-- ==== Sys2Proof/Word.lean ====
section
/-! DEFINITION. The words, byte strings and sparse tables of the VRK-6400 model.
A register is 32 bits wide (R4 and the register notation of 00_scope.md); a counter is 64 bits wide (R11). -/

namespace Sys2Proof

/-- One byte. -/
abbrev Byte := BitVec 8

/-- One register: 32 bits. -/
abbrev Word := BitVec 32

/-- One 64-bit counter, address or serial. -/
abbrev DWord := BitVec 64

/-- A byte string, byte 0 first. -/
abbrev Bytes := List Byte

/-- A sparse table: pairs of a key and a value, the keys strictly rising.
The operations over it are in Machine/Store.lean. -/
abbrev Map (α : Type) := List (Nat × α)

end Sys2Proof
end

