-- ==== Sys2Proof/Syntax.lean ====
section
/-! DEFINITION. The commands of the VRK-6400 model: one constructor of `Instr` per row of spec/opcode_table.json, and the types of
their operands. An operand carries what comes from outside the device: the party that accesses, the bytes that arrive, the
unit that an event names, the result of a memory's ECC. -/

namespace Sys2Proof

/-- A party that accesses registers (R35, R499). A service access names its thread (R388, R394). -/
inductive Party where
  /-- the host, through BAR0 of the PF -/
  | host
  /-- service-cluster thread `thread`, through the service view -/
  | service (thread : Nat)
  /-- Crater firmware, through the Crater view -/
  | crater
deriving DecidableEq, Repr

/-- How an EMSG reached the device (R52, ALP_LAST_REJECT.PATH). -/
inductive EmsgPath where
  /-- a token-phase frame of loop port LPn, n = 0–3 -/
  | loop (n : Nat)
  /-- a station frame of an Ethernet port -/
  | eth
  /-- a Cascade peer on link Gg -/
  | cascade (g : Nat)
deriving DecidableEq, Repr

/-- The subsystems that the precedence wire set reaches (R14, R60). -/
inductive Subsystem where
  | hep | vfm | wqm | dma | pool | swc | flp | tmg | cph | str | eth | loop | cas | svc | crt | pcr
deriving DecidableEq, Repr

/-- The function a Configuration Request addresses (R207, the virtual switch of R229). -/
inductive CfgTarget where
  | pf
  | vf (n : Nat)
  | upstream
  | downstream (k : Nat)
  /-- function fn of the member of Cascade ID k, below downstream port k -/
  | member (k fn : Nat)
deriving DecidableEq, Repr

/-- What an incoming memory request addresses (R210). -/
inductive MemTarget where
  | bar0
  | bar2
  | bar4
  /-- BAR0 of VF n -/
  | vfBar0 (n : Nat)
  /-- BAR0 of the downstream port of Cascade ID k: its MSI-X structures -/
  | portBar (k : Nat)
  /-- a function below the downstream port of Cascade ID k -/
  | member (k : Nat)
deriving DecidableEq, Repr

/-- What the host endpoint detects on its link or inside itself while a request arrives (R222). -/
inductive LinkError where
  | receiver | badTlp | badDllp | replayTimeout | replayRollover | correctedInternal | headerOverflow
  | dataLinkProtocol | flowControlProtocol | receiverOverflow | malformedTlp | internal
deriving DecidableEq, Repr

/-- An incoming memory request. -/
structure MemReq where
  target : MemTarget
  offset : Nat
  /-- bytes asked for (a read) -/
  len : Nat
  write : Bool
  /-- bytes carried (a write) -/
  data : Bytes
  poisoned : Bool
  /-- I/O, locked, AtomicOp or Deferrable Memory Write (R217) -/
  unsupported : Bool
  /-- the requester's tag, returned in the completion -/
  tag : Nat
  /-- an error that the endpoint finds in place of a request (R222) -/
  error : Option LinkError := none
deriving DecidableEq, Repr

/-- How a read that the device sent to the host ends (R223), or that it is still outstanding when the command ends. -/
inductive ReadOutcome where
  /-- successful completion with these bytes -/
  | data (bs : Bytes)
  /-- completion with Unsupported Request status -/
  | ur
  /-- completion with Completer Abort status -/
  | ca
  /-- completion with poisoned data -/
  | poisoned
  /-- the read has been sent and has not been answered yet -/
  | pending
deriving DecidableEq, Repr

/-- What wakes the device from the Watch state (R463). -/
inductive WakeSource where
  | input
  | ethernet
  /-- a WAKE stream on loop port LPn -/
  | loop (n : Nat)
  | tamper
deriving DecidableEq, Repr

/-- The ECC result of one HBM line read (R469). -/
inductive EccResult where
  | clean | corrected | uncorrectable
deriving DecidableEq, Repr

/-- The levelled and unlevelled NVM partitions that are written in lines (R471). -/
inductive NvmPartition where
  | bankA | bankB | keyStore | eventLog | system
deriving DecidableEq, Repr

/-- One reading of the telemetry unit (R483): junction sites in 1/16 °C, supplies and power. -/
structure TelemetryReading where
  junctions : List Int
  vin12mV : Nat
  vin12cA : Nat
  vaux33mV : Nat
  vaux33mA : Nat
  powerMw : Nat
deriving DecidableEq, Repr

/-- The four engines that translate through the DTU (R24, VFM_DTU_FAULT.ENGINE). -/
inductive DtuEngine where
  | storage | recorder | service | key
deriving DecidableEq, Repr

/-- Purposes of a pool buffer (R293), NET split as its quotas are. -/
inductive PoolPurpose where
  | netRx | netTx | stor | svc | core
deriving DecidableEq, Repr

/-- A request for one buffer (R294, R299), with the ECC result of the free-list link that a grant reads (R296). -/
structure PoolReq where
  /-- the requesting unit's number for the request -/
  id : Nat
  purpose : PoolPurpose
  inst : Nat
  len : Nat
  /-- class 7 -/
  ls : Bool
  link : EccResult
deriving DecidableEq, Repr

/-- A frame as it arrives at an Ethernet port: its bytes without the FCS, what the FCS and FEC found (R306), and when its
first bit reached the balls. -/
structure RxFrame where
  bytes : Bytes
  fcsGood : Bool
  /-- codewords corrected -/
  fecCorr : Nat
  fecUncorr : Bool
  /-- device time of the first bit -/
  at_ : Nat
deriving DecidableEq, Repr

/-- ECC results of the reads of one lookup: the exact buckets, the profile's default result (R124, R127), and the
credit word of the policer (R144). -/
structure LookupEcc where
  bucket : EccResult
  dflt : EccResult
  credit : EccResult
deriving DecidableEq, Repr

/-- A tag error of the cell that crosses to an output in a cell time (R74). -/
structure TagError where
  output : Nat
  ecc : EccResult
deriving DecidableEq, Repr

/-- Where a frame waits for its egress pass (R20). -/
inductive EgressFrom where
  /-- behind output SPn, classes 0–6 -/
  | output (sp : Nat)
  /-- behind output SPn, class 7 -/
  | outputLs (sp : Nat)
  /-- a host-transmitted frame at H0 or H1 -/
  | host (h : Nat)
deriving DecidableEq, Repr

/-- Where a frame waits for a cipher pass (R148); `entry` is the ECC result of its slot's key-cache entry, where the dispatcher reads it
(R172). -/
inductive CipherFrom where
  /-- decrypt frames from SP25 -/
  | decrypt (entry : EccResult)
  /-- the hand-over queue of FP2 or FP3 -/
  | handover (fp : Nat) (entry : EccResult)
  /-- pass `n` of the miss queue, whose key has been loaded -/
  | parked (n : Nat)
  /-- the oldest pass of the LS dispatch queue, whose cache entry cannot be read -/
  | lsEntryLost
deriving DecidableEq, Repr

/-- The commands (98_reader.md: the rows of the opcode table). -/
inductive Instr where
  /-- REGISTER_WRITE (R8): A write to a register that has no row of its own takes effect per its access type, with reserved bits ignored and reserved encodings leaving RW fields unchanged. -/
  | registerWrite (p : Party) (off : Nat) (v : Word)
  /-- COUNTER_LOW_READ (R10): A read of the low word of a 64-bit register returns it and loads the reader's own latch with the high word. -/
  | counterLowRead (p : Party) (off : Nat)
  /-- EVENT_MASK_WRITE (R539): A write to a block's event mask register; setting an ENABLE bit whose event bit reads 1 sends the vector at once. -/
  | eventMaskWrite (p : Party) (off : Nat) (v : Word)
  /-- INPUT_COMBINATION_ACCEPT (R48): A combination of the emergency input pair held for 50 µs is accepted as Quiet, Asserted or Fault, which sets or clears the input sources. -/
  | inputCombinationAccept (a b : Bool) (since : Nat)
  /-- EMSG_DECLARE (R53): An EMSG of kind DECLARE is checked by Crater and, if accepted, activates the arrival path's source and adds its originator. -/
  | emsgDeclare (path : EmsgPath) (msg : Bytes) (rx : Nat)
  /-- EMSG_CLEAR (R53): An EMSG of kind CLEAR is checked and, if accepted, removes its originator from the active set and is relayed to tree neighbours. -/
  | emsgClear (path : EmsgPath) (msg : Bytes) (rx : Nat)
  /-- EMSG_DRILL_START (R55): An accepted DRILL_START EMSG is a drill request handled per R65. -/
  | emsgDrillStart (path : EmsgPath) (msg : Bytes) (rx : Nat)
  /-- EMSG_DRILL_END (R55): An accepted DRILL_END EMSG stops a drill and raises DRILL_END. -/
  | emsgDrillEnd (path : EmsgPath) (msg : Bytes) (rx : Nat)
  /-- HOLDOVER_EXPIRY (R43): The holdover timer reaches 0 and the alarm state returns to NORMAL. -/
  | holdoverExpiry
  /-- DRILL_CTL_START (R65): A write of 1 to ALP_DRILL_CTL.START requests a drill, accepted only in NORMAL. -/
  | drillCtlStart (p : Party)
  /-- DRILL_CTL_STOP (R66): A write of 1 to ALP_DRILL_CTL.STOP ends a drill, returning to NORMAL and raising DRILL_END. -/
  | drillCtlStop (p : Party)
  /-- DRILL_TIMEOUT (R66): A drill that has lasted LIMIT_S seconds ends and DRILL_TIMEOUT is raised. -/
  | drillTimeout
  /-- PRECEDENCE_LEVEL_ARRIVE (R60): A new alarm level reaches a subsystem's islands and the subsystem applies its entry, drill or return actions. -/
  | precedenceLevelArrive (sub : Subsystem)
  /-- ENTRY_DONE (R56): Every entry action other than level-1 scaling completes; ENTRY_DONE is set and ALP_EVENT.ENTER raised. -/
  | entryDone
  /-- PARAMETER_SWEEP (R140): The 512 µs sweep visits each instance and applies or removes shed scaling and sweep-applied record fields. -/
  | parameterSweep (lost : List Nat)
  /-- ETH_FRAME_RECEIVE (R306): A whole frame received on an Ethernet port is checked for MTU, size and FCS and sorted as EMSG, PTP or pipeline traffic. -/
  | ethFrameReceive (port : Nat) (f : RxFrame)
  /-- PFC_FRAME_RX (R316): A received PFC frame holds or releases the configured storage class of the port. -/
  | pfcFrameRx (port : Nat) (enables : BitVec 8) (times : List Nat)
  /-- PFC_PAUSE_EXPIRY (R316): The pause time of a received PFC frame runs out and the held class is released. -/
  | pfcPauseExpiry (port : Nat)
  /-- PFC_XOFF_REPEAT (R316): Every 100 µs while occupancy stays above half the threshold, the port repeats its XOFF PFC frame. -/
  | pfcXoffRepeat (port : Nat)
  /-- INGRESS_LOOKUP (R108): An ingress pass parses a frame, builds keys, looks up exact and ternary tables, polices it and fixes its action record. -/
  | ingressLookup (fp : Nat) (ecc : LookupEcc)
  /-- CACHE_MISS_RETURN (R97): An HBM read for an exact-table cache miss returns and the waiting frame completes its lookup. -/
  | cacheMissReturn (fp n : Nat) (ecc : LookupEcc)
  /-- SWITCH_ADMIT (R75): A frame's first cell reaches the switch core and is stored on die, spilled to HBM or tail-dropped whole. -/
  | switchAdmit (inputs : List Nat)
  /-- SPILL_READBACK_SELECT (R78): The reader selects the oldest spilled frame of a VOQ once its ingress count falls below the hysteresis point. -/
  | spillReadbackSelect (inp out cls : Nat)
  /-- SPILL_READ_RETURN (R80): A spilled frame returns from HBM into the cell buffer, or is dropped on an uncorrectable error. -/
  | spillReadReturn (inp out cls : Nat) (ecc : EccResult)
  /-- SLALOM_CELL_TIME (R81): Each cell time Slalom computes the three-iteration match and the matched cells cross the crossbar, replicating multicast cells. -/
  | slalomCellTime (tags : List TagError)
  /-- LS_STAGING_HEAD (R88): An LS frame at the head of its staging queue is charged to the output's admission meter and moved across the priority plane, or dropped. -/
  | lsStagingHead (o : Nat) (tags : List EccResult)
  /-- OUTPUT_FRAME_BOUNDARY (R138): At a frame boundary of an output, TMG chooses the next frame from the LS queue, class 6 or classes 0–5 and starts it on the wire. -/
  | outputFrameBoundary (o : Nat) (bad : List Nat)
  /-- SHAPER_CONFORM (R130): A waiting head frame becomes eligible when its shapers' credit reaches its length. -/
  | shaperConform (o cls inst : Nat) (bad : List Nat)
  /-- EGRESS_PASS (R111): An egress pipeline pass executes the stage E actions of a frame, including ENCAP and the MTU check. -/
  | egressPass (q : EgressFrom) (ecc : LookupEcc)
  /-- TEPHRA_ENTRY_WRITE (R93): A mirror copy reaching SP20 is written into the Tephra ring, or dropped or overwriting per MODE. -/
  | tephraEntryWrite
  /-- TEPHRA_CFG_WRITE (R93): A write to SWC_TEPHRA_CFG; setting ENABLE resets PROD and SEQ, and layout writes are ignored while enabled. -/
  | tephraCfgWrite (p : Party) (v : Word)
  /-- CIPHER_DISPATCH (R148): A non-LS pass is given to the eligible engine with least queued work, binding its key and counting invocations. -/
  | cipherDispatch (src : CipherFrom)
  /-- LS_PASS_DISPATCH (R152): An LS pass at the head of the LS dispatch queue starts on CE0–CE15, suspending a non-LS pass if needed. -/
  | lsPassDispatch
  /-- PASS_RESUME (R152): A suspended non-LS pass resumes when its engine has no LS pass waiting. -/
  | passResume (engine : Nat)
  /-- CIPHER_PASS_COMPLETE (R151): An engine finishes a pass, compares the tag and either holds the result for release or overwrites and drops it. -/
  | cipherPassComplete (engine : Nat)
  /-- RESULT_RELEASE (R150): A result that is the oldest of its key-slot domain leaves the engine or release buffer, after the release-time replay check. -/
  | resultRelease (slot : Nat)
  /-- PREEMPT_ABANDON (R153): A non-LS pass still unfinished on CE0–CE15 5.76 µs after EMERGENCY or DRILL is abandoned and its frame dropped. -/
  | preemptAbandon (engine : Nat)
  /-- KEY_LOAD (R165): A key cache LOAD completes, unwrapping a working copy into the cache so parked passes can dispatch. -/
  | keyLoad (slot : Nat) (ecc : EccResult)
  /-- CKPT_COMMIT (R410): Crater commits a new high-water mark for a slot, releasing any dispatch stall on it. -/
  | ckptCommit (slot : Nat)
  /-- ENGINE_KAT_DONE (R154): An engine's known-answer test completes; a failure fences the engine and makes the state DEGRADED. -/
  | engineKatDone (engine : Nat) (pass : Bool)
  /-- WORKING_COPY_RESTORE (R172): Crater restores a damaged HBM working copy of a slot from NVM. -/
  | workingCopyRestore (slot : Nat)
  /-- TXHOLD_LIMIT (R313): A transmit hold reaches LIMIT_US; class 0–6 frames are discarded at line rate and LS frames redirected to the alternate. -/
  | txholdLimit (port : Nat)
  /-- RECAL_DUE (R314): A recalibration of a lane group falls due 10 min after the last calibration. -/
  | recalDue (group : Nat)
  /-- RECAL_START (R314): A due recalibration starts at a frame boundary, after waiting for empty LS queues in NORMAL and DRILL. -/
  | recalStart (group : Nat)
  /-- RECAL_VERIFIED (R311): A recalibration verifies and the synthesiser returns to READY, releasing transmit. -/
  | recalVerified (group : Nat)
  /-- RECAL_TIMEOUT (R311): A recalibration not verified within 40 µs sends the synthesiser to NOT_READY. -/
  | recalTimeout (group : Nat)
  /-- RECAL_DEFER_EXPIRY (R315): A recalibration deferred in EMERGENCY or HOLDOVER reaches 60 s and starts. -/
  | recalDeferExpiry (group : Nat)
  /-- SYNTH_LOCK (R311): A lane group's synthesiser achieves lock and becomes READY; redirection ends once no moved frame waits. -/
  | synthLock (group : Nat)
  /-- SYNTH_LOCK_TIMEOUT (R311): No lock within 20 ms puts the synthesiser in FAULT and raises SYNTH_FAULT. -/
  | synthLockTimeout (group : Nat)
  /-- SYNTH_RELOCK_ATTEMPT (R311): Every 1 s a synthesiser in FAULT attempts relock, moving to NOT_READY. -/
  | synthRelockAttempt (group : Nat)
  /-- ETH_LINK_CHANGE (R312): An Ethernet link goes up or down; a down link holds transmit and raises LINK_CHANGE. -/
  | ethLinkChange (port : Nat) (up : Bool)
  /-- STATION_ENTRY_WRITE (R310): A write of ETH_STN_HI commits a station entry atomically, refused for entries 0–3 from non-Crater parties. -/
  | stationEntryWrite (p : Party) (hi : Word)
  /-- STN_LO_READ (R310): A read of ETH_STN_LO loads the selected station entry and latches its high half. -/
  | stnLoRead (p : Party)
  /-- TS_INFO_POP (R319): A read of ETH_TS_INFO pops the oldest timestamp capture and latches its time words. -/
  | tsInfoPop (p : Party) (port : Nat)
  /-- WAKE_PATTERN_RX (R321): In P3 a magic pattern or EMSG frame on E0 wakes the device, keeping up to 4 EMSGs. -/
  | wakePatternRx (f : RxFrame)
  /-- FLP_IND_READ (R121): FLP_IND_CTL.READ loads the addressed table entry into the data registers. -/
  | flpIndRead (p : Party)
  /-- FLP_IND_WRITE (R121): FLP_IND_CTL.WRITE writes an entry by index atomically, including member blocks and group commits. -/
  | flpIndWrite (p : Party)
  /-- MEMBER_BLOCKS_RETURN (R118): Blocks of a replaced member list return to the pool once no frame uses them. -/
  | memberBlocksReturn
  /-- FLP_INSERT (R123): INSERT places an exact entry by key in bucket h1 or h2, or refuses with TABLE_FULL. -/
  | flpInsert (p : Party)
  /-- FLP_DELETE (R123): DELETE removes an exact entry by key, succeeding also when it is absent. -/
  | flpDelete (p : Party)
  /-- PROFILE_QUIESCE (R124): A QUIESCE command moves a key profile from RUN to QUIESCE. -/
  | profileQuiesce (p : Party) (profile : Nat)
  /-- PROFILE_RUN (R124): A RUN command returns a STOPPED or ERROR profile to RUN. -/
  | profileRun (p : Party) (profile : Nat)
  /-- PROFILE_STOPPED (R124): A quiescing profile reaches STOPPED once no frame remains in its lookup. -/
  | profileStopped (profile : Nat)
  /-- AGING_SCAN_BUCKET (R125): The aging scan visits a bucket and removes or reports entries idle beyond LIMIT_S. -/
  | agingScanBucket
  /-- AGE_FIFO_POP (R125): A read of FLP_AGE_FIFO_HI returns key bytes and pops the aging FIFO. -/
  | ageFifoPop (p : Party)
  /-- TMG_IND_READ (R135): TMG_IND_CTL.READ loads a shaper or policer entry or a one-clock counter snapshot. -/
  | tmgIndRead (p : Party)
  /-- TMG_IND_WRITE (R135): TMG_IND_CTL.WRITE commits a shaper or policer entry atomically with the credit rules of R135. -/
  | tmgIndWrite (p : Party)
  /-- CPH_IND_READ (R160): CPH_IND_CTL.READ loads a key slot's readable state or counters. -/
  | cphIndRead (p : Party)
  /-- NEAR_FIFO_POP (R166): A read of CPH_NEAR_FIFO returns and pops the oldest limit notification. -/
  | nearFifoPop (p : Party)
  /-- STOR_CMD_EXECUTE (R182): A fetched STOR_CMD is resolved through the Sinter map and its sub-commands are issued, or it completes with a failure. -/
  | storCmdExecute (qp : Nat) (r : ReadOutcome) (mapEcc : EccResult)
  /-- TCP_SEGMENT_RX (R174): A TCP segment for a storage connection is received and processed by the offloaded TCP. -/
  | tcpSegmentRx
  /-- RTO_EXPIRY (R174): A connection's retransmission timer expires and a segment is retransmitted or the connection fails. -/
  | rtoExpiry (conn : Nat)
  /-- DELAYED_ACK_EXPIRY (R174): The 500 µs delayed-ACK timer expires and an ACK is sent. -/
  | delayedAckExpiry (conn : Nat)
  /-- KEEPALIVE_PROBE (R174): Keepalive idle or probe timer expires; a probe is sent or the connection fails after 5. -/
  | keepaliveProbe (conn : Nat)
  /-- ICRESP_RX (R178): An ICResp is checked and the open proceeds or fails. -/
  | icrespRx (conn : Nat)
  /-- PDU_R2T_RX (R178): An R2T PDU is answered with H2CData PDUs. -/
  | pduR2tRx (conn : Nat)
  /-- C2HDATA_RX (R178): A C2HData PDU places data at its offset, and with SUCCESS completes its command. -/
  | c2hdataRx (conn : Nat)
  /-- CAPSULE_RESP_RX (R184): A CapsuleResp ends a sub-command; a command completes in queue order when all its sub-commands end. -/
  | capsuleRespRx (conn : Nat)
  /-- C2HTERMREQ_RX (R178): A received C2HTermReq sends the connection to FAILED. -/
  | c2htermreqRx (conn : Nat)
  /-- STOR_CMD_TIMEOUT (R185): A storage command unfinished after TIMEOUT_S completes with TIMEOUT and holds its CIDs. -/
  | storCmdTimeout (cmd : Nat)
  /-- CONNECT_OPEN_TIMEOUT (R269): An open that has not reached READY within TIMEOUT_S goes to FAILED and STOR_CONNECT completes with PEER_LOST. -/
  | connectOpenTimeout (conn : Nat)
  /-- CONNECTION_CLOSED (R176): A CLOSING connection whose commands have ended sends FIN and becomes IDLE. -/
  | connectionClosed (conn : Nat)
  /-- JOURNAL_RECORD_FORM (R190): The recorder forms a journal record for stream data, assigns SEQ and runs its record and chain passes. -/
  | journalRecordForm (stream : Nat)
  /-- JOURNAL_FLUSH (R191): Every FLUSH_MS the recorder writes the bytes appended since the last flush in whole 4 KiB blocks. -/
  | journalFlush
  /-- JOURNAL_WRITE_DONE (R193): The journal target completes a write and the records in it become durable. -/
  | journalWriteDone
  /-- ANCHOR_COMMIT (R193): Crater commits an anchor for the last durable record to NVM, at most once per 100 ms and at capture boundaries. -/
  | anchorCommit
  /-- AUTO_PLAY_START (R198): AUTO_DELAY_MS after entry, a play channel starts its auto-play message. -/
  | autoPlayStart (pc : Nat)
  /-- PLAY_BLOCK_OUTPUT (R199): A library sample block is CRC-checked and output, or output as silence on failure. -/
  | playBlockOutput (pc : Nat)
  /-- PLAY_REPEAT_END (R199): A play reaches the end of a repeat and either waits GAP_MS and repeats or ends on its last sample. -/
  | playRepeatEnd (pc : Nat)
  /-- PLAY_FADE_END (R199): The 10 ms linear fade of a stopped play ends in silence. -/
  | playFadeEnd (pc : Nat)
  /-- STR_IND_READ (R182): STR_IND_CTL.READ loads a map, namespace, binding, connection, stream, play channel or directory entry. -/
  | strIndRead (p : Party)
  /-- STR_IND_WRITE (R182): STR_IND_CTL.WRITE writes a map, namespace, binding or stream entry atomically. -/
  | strIndWrite (p : Party)
  /-- CONFIG_REQUEST (R216): A PCIe Configuration Request is completed, or answered with Request Retry Status before configuration ready or under FLR. -/
  | configRequest (t : CfgTarget) (type1 write : Bool) (reg : Nat) (be : BitVec 4) (data : Word) (tag : Nat)
  /-- MEMORY_REQUEST (R217): An incoming memory request to a BAR is applied or completed with UR per the endpoint's checks. -/
  | memoryRequest (r : MemReq)
  /-- VENDOR_MESSAGE_RX (R217): A vendor-defined message is answered with UR for Type 0 or discarded for Type 1. -/
  | vendorMessageRx (fn : Nat) (type1 : Bool)
  /-- BME_CLEAR (R218): Clearing Bus Master Enable stops new requests and holds posted writes and MSI-X messages. -/
  | bmeClear (fn : Nat)
  /-- BME_SET (R218): Setting Bus Master Enable releases held writes and MSI-X messages in order. -/
  | bmeSet (fn : Nat)
  /-- MSE_WRITE (R219): A write of Memory Space Enable enables or stops register and doorbell access. -/
  | mseWrite (fn : Nat) (on : Bool)
  /-- D3HOT_ENTRY (R206): A function enters D3hot and behaves as if MSE and BME were clear. -/
  | d3hotEntry (fn : Nat)
  /-- D0_RETURN (R206): A function returns from D3hot to D0 with its state kept and its held writes released if BME is set. -/
  | d0Return (fn : Nat)
  /-- VF_FLR (R225): An FLR of a VF stops fetch, squashes unissued writes, resets queues and invalidates DTU translations. -/
  | vfFlr (vf : Nat)
  /-- PF_FLR (R227): An FLR of the PF applies FLR to the PF and every VF and clears VF Enable. -/
  | pfFlr
  /-- FLR_COMPLETE (R226): An FLR completes once every tag has returned or timed out, sending Function Readiness Status. -/
  | flrComplete (fn : Nat)
  /-- FLR_TAG_QUARANTINE (R226): Tags still outstanding 99.9 ms after an FLR began are quarantined so the FLR can complete. -/
  | flrTagQuarantine (fn : Nat)
  /-- VF_ENABLE_SET (R209): Setting VF Enable creates the VFs, or fails with UR when NumVFs exceeds TotalVFs. -/
  | vfEnableSet
  /-- VF_ENABLE_CLEAR (R242): Clearing VF Enable returns every VF to RUN with its queues reset and record kept. -/
  | vfEnableClear
  /-- NUMVFS_WRITE (R209): A NumVFs write is stored unless VF Enable is 1. -/
  | numvfsWrite (n : BitVec 16)
  /-- SLOT_CONTROL_WRITE (R230): A Slot Control write at a head downstream port completes and sends a SLOT frame to the member. -/
  | slotControlWrite (k : Nat) (v : BitVec 16)
  /-- READ_COMPLETION_RX (R223): A completion for a device read arrives, delivering data or ending the read in error. -/
  | readCompletionRx (fn tag : Nat) (r : ReadOutcome)
  /-- COMPLETION_TIMEOUT (R224): A request's completion timeout expires; its descriptor completes with TIMEOUT and its tag is quarantined. -/
  | completionTimeout (tag : Nat)
  /-- MSIX_MASK_WRITE (R218): A write to an MSI-X vector mask; unmasking a pending vector sends it. -/
  | msixMaskWrite (fn vec : Nat) (masked : Bool)
  /-- LINK_TRAINING_DONE (R205): The PCIe link finishes training at a rate and width shown in HEP_STATUS. -/
  | linkTrainingDone (speed width : Nat) (flit : Bool)
  /-- PCIE_LINK_DOWN (R450): The PCIe link goes down to Detect, which is a HOST reset of cause 4. -/
  | pcieLinkDown
  /-- PERST_ASSERT (R450): PERST_N asserted causes a HOST reset, ignored on a MEMBER. -/
  | perstAssert
  /-- PERST_DEASSERT (R215): PERST_N deasserted lets the LTSSM leave Detect and the endpoint reach configuration ready. -/
  | perstDeassert
  /-- HOT_RESET (R452): A PCIe hot reset resets the host scope without changing alarm, boot or power state. -/
  | hotReset
  /-- VFM_IND_READ (R238): VFM_IND_CTL.READ loads a resource record, DTU segment or instance counters. -/
  | vfmIndRead (p : Party) (ecc : EccResult)
  /-- VFM_IND_WRITE (R238): VFM_IND_CTL.WRITE commits a resource record after the checks of R237. -/
  | vfmIndWrite (p : Party)
  /-- FN_CTL_QUIESCE (R240): A QUIESCE through VFM_FN_CTL stops new fetch for an instance and starts its drain. -/
  | fnCtlQuiesce (p : Party) (inst : Nat)
  /-- FN_CTL_RUN (R240): A RUN through VFM_FN_CTL resumes fetch of a STOPPED instance. -/
  | fnCtlRun (p : Party) (inst : Nat)
  /-- FUNCTION_STOPPED (R240): A quiescing instance that holds no work token reaches STOPPED and its QUIESCE completes. -/
  | functionStopped (inst : Nat)
  /-- QUIESCE_TIMEOUT (R240): A drain exceeding LIMIT_MS puts the function in ERROR and its QUIESCE completes with TIMEOUT. -/
  | quiesceTimeout (inst : Nat)
  /-- DTU_MISS_FILL (R244): A DTU cache miss reads the segment table from HBM and translates the waiting access. -/
  | dtuMissFill (engine : DtuEngine) (inst dva len : Nat) (write : Bool) (ecc : EccResult)
  /-- DTU_UNMAP_COMPLETE (R245): DTU_UNMAP completes once every access translated under the old mapping has finished. -/
  | dtuUnmapComplete (inst : Nat)
  /-- SQ_TAIL_WRITE (R252): A write to a queue's SQ_TAIL posts descriptors, or puts the queue in ERROR on overflow. -/
  | sqTailWrite (fn qp : Nat) (v : Word)
  /-- CQ_HEAD_WRITE (R261): A write to CQ_HEAD frees completion slots so held entries can be written. -/
  | cqHeadWrite (fn qp : Nat) (v : Word)
  /-- CQ_ARM_WRITE (R262): A write of 1 to CQ_ARM re-arms the CQ interrupt, sending it at once if entries are unconsumed. -/
  | cqArmWrite (fn qp : Nat) (v : Word)
  /-- GEYSER_WRITE (R257): A 64-byte Geyser write pushes one descriptor as a tail advance of 1. -/
  | geyserWrite (fn qp : Nat) (desc : Bytes)
  /-- DESCRIPTOR_FETCH (R253): A descriptor read from a ring returns and is validated and handed to its job. -/
  | descriptorFetch (qp : Nat) (r : ReadOutcome) (ctx : EccResult)
  /-- TX_FRAME (R260): A TX_FRAME job reads its frame into device buffers, passes it to the egress pipeline and writes its completion. -/
  | txFrame (qp : Nat) (r : ReadOutcome)
  /-- RX_FRAME_DELIVER (R258): A frame for a receive queue is written into posted buffers with one completion per buffer. -/
  | rxFrameDeliver (hport : Nat)
  /-- DESC_NOP (R254): A NOP descriptor completes with its TAG and no effect. -/
  | descNop (qp : Nat)
  /-- MODERATION_TIMER_EXPIRY (R262): MOD_US after the first unsignalled entry, an armed CQ sends its vector. -/
  | moderationTimerExpiry (qp : Nat)
  /-- QCTL_RESET_MODE0 (R265): WQM_QCTL CMD 01 starts a QUEUE_RESET that returns the queue to RUN. -/
  | qctlResetMode0 (p : Party) (qp : Nat)
  /-- QCTL_RESET_MODE1 (R265): WQM_QCTL CMD 10 starts a QUEUE_RESET that leaves the queue DISABLED. -/
  | qctlResetMode1 (p : Party) (qp : Nat)
  /-- QUEUE_RESET_DRAINED (R265): Once jobs in execution finish, the reset writes FLUSHED entries for the rest and sets the queue's new state. -/
  | queueResetDrained (qp : Nat) (ring : List ReadOutcome)
  /-- ADMIN_CFG_WRITE (R266): A write to WQM_ADMIN_CFG or WQM_SVCQ_CFG enables or disables an admin ring. -/
  | adminCfgWrite (p : Party) (svcRing : Bool) (v : Word)
  /-- QUEUE_CONFIG (R267): Admin command QUEUE_CONFIG configures a DISABLED queue pair and puts it in RUN. -/
  | adminQueueConfig (svcRing : Bool)
  /-- QUEUE_RESET (R265): Admin command QUEUE_RESET resets a queue pair in mode 0 or 1. -/
  | adminQueueReset (svcRing : Bool)
  /-- VF_CONFIG (R238): Admin command VF_CONFIG writes a 64-byte resource record. -/
  | adminVfConfig (svcRing : Bool) (r : ReadOutcome)
  /-- VF_STATE_QUIESCE (R240): Admin command VF_STATE with CMD QUIESCE starts a function's drain. -/
  | adminVfStateQuiesce (svcRing : Bool)
  /-- VF_STATE_RUN (R240): Admin command VF_STATE with CMD RUN resumes a STOPPED function. -/
  | adminVfStateRun (svcRing : Bool)
  /-- DTU_MAP (R245): Admin command DTU_MAP writes one invalid DTU segment. -/
  | adminDtuMap (svcRing : Bool)
  /-- DTU_UNMAP (R245): Admin command DTU_UNMAP invalidates one or all segments of an instance. -/
  | adminDtuUnmap (svcRing : Bool)
  /-- TABLE_WRITE (R268): Admin command TABLE_WRITE performs a block's indirect WRITE, INSERT or DELETE. -/
  | adminTableWrite (svcRing : Bool) (r : ReadOutcome)
  /-- TABLE_READ (R268): Admin command TABLE_READ reads a table entry into a host buffer. -/
  | adminTableRead (svcRing : Bool)
  /-- KEY_INSTALL (R162): Admin command KEY_INSTALL checks an install blob and has Crater wrap and commit the key. -/
  | adminKeyInstall (svcRing : Bool) (r : ReadOutcome)
  /-- KEY_RETIRE (R162): Admin command KEY_RETIRE checks a blob and has Crater empty the slot. -/
  | adminKeyRetire (svcRing : Bool) (r : ReadOutcome)
  /-- KEY_COMMIT_DONE (R409): The commit line of an install or retire is written; Crater updates the cache and writes the completion. -/
  | keyCommitDone
  /-- STOR_CONNECT (R176): Admin command STOR_CONNECT opens a storage connection. -/
  | adminStorConnect (svcRing : Bool) (r : ReadOutcome)
  /-- STOR_DISCONNECT (R176): Admin command STOR_DISCONNECT closes a connection or returns a FAILED one to IDLE. -/
  | adminStorDisconnect (svcRing : Bool)
  /-- STOR_RAW (R267): Admin command STOR_RAW sends a raw NVMe capsule and completes on its response. -/
  | adminStorRaw (svcRing : Bool) (r data : ReadOutcome)
  /-- JNL_READ (R195): Admin command JNL_READ copies a journal range into a PF buffer, refused with PAUSED in EMERGENCY or HOLDOVER. -/
  | adminJnlRead (svcRing : Bool) (mapEcc : EccResult)
  /-- PLAY (R198): Admin command PLAY starts a message on a play channel at the next 1 ms boundary. -/
  | adminPlay (svcRing : Bool)
  /-- PLAY_STOP (R199): Admin command PLAY_STOP fades a channel's play to silence. -/
  | adminPlayStop (svcRing : Bool)
  /-- LS_QUEUE_RESTORE (R542): After context loss, Crater sets an LS queue pair up again from its image record. -/
  | lsQueueRestore (qp : Nat)
  /-- CHANNEL_START (R275): DMA_CH_CTL.START begins an IDLE program channel at BASE. -/
  | channelStart (p : Party) (ch : Nat)
  /-- CHANNEL_RESUME (R288): DMA_CH_CTL.RESUME re-executes the faulting instruction of a FAULTED channel. -/
  | channelResume (p : Party) (ch : Nat)
  /-- CHANNEL_ABORT (R285): DMA_CH_CTL.ABORT stops new reads and discards unwritten data. -/
  | channelAbort (p : Party) (ch : Nat)
  /-- CHANNEL_ABORT_DONE (R285): An aborted channel goes to IDLE with END = ABORT once every outstanding read has ended. -/
  | channelAbortDone (ch : Nat)
  /-- CHANNEL_PAUSE_SET (R285): Setting DMA_CH_CTL.PAUSE stops a channel issuing new reads. -/
  | channelPauseSet (p : Party) (ch : Nat)
  /-- CHANNEL_PAUSED (R285): A pausing channel drains and reaches PAUSED at an exact boundary. -/
  | channelPaused (ch : Nat)
  /-- CHANNEL_PAUSE_CLEAR (R285): Clearing PAUSE resumes a channel from its paused point. -/
  | channelPauseClear (p : Party) (ch : Nat)
  /-- INSN_NOP (R277): DMA instruction NOP has no effect. -/
  | insnNop (ch : Nat)
  /-- MOVE (R280): DMA instruction MOVE copies RC bytes in bursts, paced by a request line when PACE is set. -/
  | insnMove (ch : Nat)
  /-- FILL (R280): DMA instruction FILL writes a repeated pattern in bursts. -/
  | insnFill (ch : Nat)
  /-- DMA_BURST_COMPLETE (R280): A burst's data returns and is written, advancing RA, RB and RC to the next boundary. -/
  | dmaBurstComplete (ch : Nat) (r : ReadOutcome)
  /-- LOADI (R277): DMA instruction LOADI loads an immediate into a register. -/
  | insnLoadi (ch : Nat)
  /-- ADD (R277): DMA instruction ADD adds an immediate or register modulo 2^64. -/
  | insnAdd (ch : Nat)
  /-- LOAD (R277): DMA instruction LOAD reads 8 aligned bytes from the source space. -/
  | insnLoad (ch : Nat) (r : ReadOutcome)
  /-- STORE (R277): DMA instruction STORE writes 8 aligned bytes to the destination space. -/
  | insnStore (ch : Nat)
  /-- LOOP (R283): DMA instruction LOOP pushes a loop level and runs its body RA times. -/
  | insnLoop (ch : Nat)
  /-- BRANCH (R283): DMA instruction BRANCH changes the PC on its condition. -/
  | insnBranch (ch : Nat)
  /-- WAIT (R282): DMA instruction WAIT takes one request of a line or waits a time. -/
  | insnWait (ch : Nat)
  /-- WAIT_TIME_EXPIRY (R277): The time of a WAIT TIME elapses and the next instruction issues. -/
  | waitTimeExpiry (ch : Nat)
  /-- SIGNAL (R284): DMA instruction SIGNAL pulses a request line or notifies the owner with a code. -/
  | insnSignal (ch : Nat)
  /-- MODE (R279): DMA instruction MODE checks and sets the channel's instance and address spaces. -/
  | insnMode (ch : Nat)
  /-- FENCE (R277): DMA instruction FENCE waits for earlier writes to leave, optionally with a flushing read. -/
  | insnFence (ch : Nat)
  /-- FENCE_DONE (R277): The writes a FENCE waits for have left, and its flushing read completed, so it retires. -/
  | fenceDone (ch : Nat) (r : ReadOutcome)
  /-- HALT (R284): DMA instruction HALT ends the program once every write has left. -/
  | insnHalt (ch : Nat)
  /-- HALT_DONE (R284): The last write of a halting program leaves; the channel goes IDLE and the owner is notified. -/
  | haltDone (ch : Nat)
  /-- DMA_TIMER_EXPIRY (R281): A DMA timer's period elapses and it asserts its request line. -/
  | dmaTimerExpiry (n : Nat)
  /-- REQ_SET_WRITE (R281): A write of DMA_REQ_SET asserts a request line of the writer's range. -/
  | reqSetWrite (p : Party) (line : Nat)
  /-- PMEM_WORD_WRITE (R274): A write of DMA_PMEM_HI stores one program word atomically and increments ADDR. -/
  | pmemWordWrite (p : Party) (hi : Word)
  /-- PMEM_HI_READ (R274): A read of DMA_PMEM_HI returns the latched half and increments ADDR. -/
  | pmemHiRead (p : Party)
  /-- POOL_REQUEST (R299): A unit requests a buffer; its first-choice pool is judged and it is granted, refused or made to wait. -/
  | poolRequest (r : PoolReq)
  /-- POOL_WAIT_EXPIRY (R299): WAIT_NS passes without a buffer and the fallback pool is judged once. -/
  | poolWaitExpiry (id : Nat)
  /-- BUFFER_FREE (R301): A buffer's last reader finishes; it returns to its free list and a waiting request may be granted. -/
  | bufferFree (pool buffer : Nat)
  /-- POOL_REBUILD (R296): POOL_CTL.REBUILD rebuilds a pool's free list when IN_USE is 0. -/
  | poolRebuild (p : Party) (pool : Nat)
  /-- REBUILD_DONE (R296): A REBUILD completes and POOL_LOSTn returns to 0. -/
  | rebuildDone (pool : Nat)
  /-- POOL_IND_READ (R301): POOL_IND_CTL.READ loads an instance's quotas and holdings. -/
  | poolIndRead (p : Party)
  /-- POOL_IND_WRITE (R301): POOL_IND_CTL.WRITE sets an instance's quotas, judged from the next clock. -/
  | poolIndWrite (p : Party)
  /-- LOOP_CYCLE_START (R328): At a cycle boundary a sourcing master sends sweeps on both lanes, judging the previous cycle's misses and token. -/
  | loopCycleStart (lp : Nat)
  /-- SWEEP_RX (R332): A node receives a sweep frame, forwards it, fills its slot and takes time and audio from it. -/
  | sweepRx (lp : Nat) (west : Bool) (frame : Bytes)
  /-- SWEEP_RETURN (R334): A sweep returns to the master, which takes answers and detects breaks or heals. -/
  | sweepReturn (lp : Nat) (west : Bool) (frame : Bytes)
  /-- TOKEN_RX (R335): A node absorbs the TOKEN, sends its frames and passes it on, or the master absorbs it. -/
  | tokenRx (lp : Nat) (west : Bool)
  /-- LOOP_FRAME_RX (R337): A management frame is matched against a node's addresses and accepted, forwarded or removed. -/
  | loopFrameRx (lp : Nat) (west : Bool) (frame : Bytes)
  /-- MGMT_PLAY (R339): A signed management message of kind PLAY is checked and starts a play. -/
  | mgmtPlay (lp : Nat) (msg : Bytes)
  /-- MGMT_PLAY_STOP (R339): A signed management message of kind PLAY_STOP is checked and stops a play. -/
  | mgmtPlayStop (lp : Nat) (msg : Bytes)
  /-- MGMT_RESET (R456): A signed management message of kind RESET is checked and requests the reset its ARG selects. -/
  | mgmtReset (lp : Nat) (msg : Bytes)
  /-- BREAK_RX (R346): A received BREAK ordered set marks a side lost and the node wraps. -/
  | breakRx (lp : Nat) (west : Bool) (sender : Nat)
  /-- WAKE_RX (R349): A WAKE stream at a loop port in P3 starts the wake and records sender and reason. -/
  | wakeRx (lp : Nat) (west : Bool) (sender reason : Nat)
  /-- PD_REQ_RX (R340): A PD_REQ is answered with a PD_RESP carrying the turnaround. -/
  | pdReqRx (lp : Nat) (west : Bool) (seq : Nat)
  /-- PD_RESP_RX (R340): A PD_RESP gives the link delay used for CORRECTION. -/
  | pdRespRx (lp : Nat) (west : Bool) (seq turnaround : Nat)
  /-- PD_MEASURE (R340): Once per second per lane a node sends PD_REQ to measure link delay. -/
  | pdMeasure (lp : Nat) (west : Bool)
  /-- LOOP_LOCK_LOSS (R346): Loss of block lock on a receive lane sends BREAK and makes the node wrap. -/
  | loopLockLoss (lp : Nat) (west : Bool)
  /-- LOOP_UNWRAP (R347): After 10 ms of held lock without BREAK, a node unwraps at the next IDLE after EOF. -/
  | loopUnwrap (lp : Nat) (west : Bool)
  /-- MASTER_LISTEN_TIMEOUT (R344): A MASTER-role port hearing no sweep for its listen time starts sourcing with a new epoch. -/
  | masterListenTimeout (lp : Nat)
  /-- LOOP_WAKE_SEND (R349): A write of LOOP_WAKE.SEND sends WAKE on every lost side for 1 ms. -/
  | loopWakeSend (p : Party) (lp : Nat) (v : Word)
  /-- LOOP_IND_READ (R333): LOOP_IND_CTL.READ loads a node, queue, answer or address entry, popping table 3. -/
  | loopIndRead (p : Party) (lp : Nat)
  /-- LOOP_IND_WRITE (R333): LOOP_IND_CTL.WRITE queues a request, stages an answer or writes an address entry. -/
  | loopIndWrite (p : Party) (lp : Nat)
  /-- GONDOLA_MARKER_RX (R355): A marker beat is accepted and its ACK, NAK and sideband fields take effect. -/
  | gondolaMarkerRx (g : Nat) (beat : Bytes)
  /-- MARKER_LOCK_LOSS (R355): Eight marker slots without an accepted marker, or lane lock lost, take the link DOWN. -/
  | markerLockLoss (g : Nat)
  /-- FABRIC_FRAME_RX (R367): A FABRIC link frame is forwarded along its ROUTE or delivered, with epoch checking. -/
  | fabricFrameRx (g : Nat) (frame : Bytes)
  /-- TLP_FRAME_RX (R370): A TLP link frame is passed on through CAS or delivered between head and member. -/
  | tlpFrameRx (g : Nat) (frame : Bytes)
  /-- TOPO_RX (R365): A TOPO frame is checked, forwarded and used to rebuild the Cascade graph and routes. -/
  | topoRx (g : Nat) (frame : Bytes)
  /-- SLOT_FRAME_RX (R375): A SLOT frame carries indicators, POWER_OFF or RESET_REQ to a member, or ATTN to the head. -/
  | slotFrameRx (g : Nat) (frame : Bytes)
  /-- REPLAY_TIMER_EXPIRY (R359): REPLAY_NS passes without ACK progress and every outstanding frame is replayed. -/
  | replayTimerExpiry (g ch : Nat)
  /-- RETRAIN_TIMEOUT (R362): A link in RETRAIN without relock within 2 ms goes DOWN. -/
  | retrainTimeout (g : Nat)
  /-- RETRAIN_RELOCK (R362): A link in RETRAIN relocks and returns to UP with its replay state. -/
  | retrainRelock (g : Nat)
  /-- PEER_DETECT (R362): A peer is detected on a DOWN link and it enters TRAINING. -/
  | peerDetect (g : Nat)
  /-- TRAINING_LOCK (R362): Lock and deskew move a link to VERIFY, sending TOPO. -/
  | trainingLock (g : Nat)
  /-- TRAINING_TIMEOUT (R362): No lock within 20 ms of TRAINING returns the link to DOWN. -/
  | trainingTimeout (g : Nat)
  /-- VERIFY_TIMEOUT (R362): A VERIFY not passed within 1 ms moves the link to HELD. -/
  | verifyTimeout (g : Nat)
  /-- VERIFY_RETRY (R362): Every 1 s a HELD link runs a new VERIFY. -/
  | verifyRetry (g : Nat)
  /-- TOPO_PERIODIC_SEND (R364): Once per second a device sends a TOPO on its links. -/
  | topoPeriodicSend
  /-- MAP_HOLD_EXPIRY (R372): A bit that left the LOCAL_MAP view leaves CAS_MAP after its 20 µs hold. -/
  | mapHoldExpiry (k : Nat)
  /-- TLP_HOLD_EXPIRY (R370): The 10 µs hold after a path change ends and TLP frames use the new path. -/
  | tlpHoldExpiry (dst : Nat)
  /-- CAS_REMOVE_REQ (R375): A write of CAS_CTL.REMOVE_REQ on a member sends ATTN to the head. -/
  | casRemoveReq (p : Party)
  /-- CAS_MEMBER_RESET (R375): A write of CAS_CTL.MEMBER_RESET on the head sends RESET_REQ to the member. -/
  | casMemberReset (p : Party) (member : Nat)
  /-- THREAD_INSTRUCTION (R381): A service thread executes an RV64IMAC instruction or CSR access. -/
  | threadInstruction (g : Nat)
  /-- EVWAIT (R385): EVWAIT takes a wake from the thread's counter or waits for a post, event or deadline. -/
  | threadEvwait (g : Nat)
  /-- EVWAIT_DEADLINE (R385): Device time reaches an EVWAIT deadline and the wait ends with reason 2. -/
  | evwaitDeadline (g : Nat)
  /-- EVPOST (R384): EVPOST adds a wake to one thread's counter or to every other thread of a core. -/
  | threadEvpost (g : Nat)
  /-- THREAD_TRAP (R389): A trap writes the thread save block and enters the handler, or parks the thread. -/
  | threadTrap (g : Nat)
  /-- MRET (R389): MRET returns from a trap and clears TSB_BUSY. -/
  | threadMret (g : Nat)
  /-- SVC_TIMER_EVENT (R387): Device time reaches svctimecmp and SVC_EV_TIMER is raised at the thread. -/
  | svcTimerEvent (g : Nat)
  /-- THREAD_RELEASE (R388): SVC_THREAD_CTL CMD RELEASE starts a HELD thread. -/
  | threadRelease (by_ target : Nat)
  /-- THREAD_HALT (R392): SVC_THREAD_CTL CMD HALT stops a thread at an instruction boundary. -/
  | threadHalt (by_ target : Nat)
  /-- THREAD_HELD (R392): A halting thread reaches HELD once its outstanding accesses have ended. -/
  | threadHeld (g : Nat)
  /-- THREAD_RESET (R392): SVC_THREAD_CTL CMD RESET returns a thread to OFF. -/
  | threadReset (by_ target : Nat)
  /-- THREAD_RESUME (R391): SVC_THREAD_CTL CMD RESUME repeats the TSB check of a FAULTED_UNSAVED thread and completes its trap. -/
  | threadResume (by_ target : Nat)
  /-- SETUP_REGISTER_WRITE (R388): A master writes a thread setup register, moving an OFF thread to HELD. -/
  | setupRegisterWrite (by_ target off : Nat) (v : DWord)
  /-- FAULT_FIFO_POP (R390): A read of SVC_FAULT_FIFO pops the oldest parked-thread entry. -/
  | faultFifoPop (p : Party)
  /-- WDOG_KICK (R393): SC0.T0 writes SVC_WDOG.KICK and the watchdog period restarts. -/
  | wdogKick (p : Party)
  /-- SERVICE_WDOG_EXPIRY (R393): The service watchdog expires and the whole cluster is reset and SC0.T0 restarted. -/
  | serviceWdogExpiry
  /-- CRATER_WATCHDOG_EXPIRY (R397): Crater's 100 ms watchdog expires and Crater restarts with cause WATCHDOG. -/
  | craterWatchdogExpiry
  /-- LOCKSTEP_MISMATCH (R397): The Crater cores' outputs differ and Crater restarts with cause LOCKSTEP. -/
  | lockstepMismatch
  /-- DOUBLE_TRAP (R397): A second Crater trap before the save is consumed restarts Crater with cause DOUBLE_TRAP. -/
  | doubleTrap
  /-- CRATER_RESUME (R453): A restarted Crater resumes message checks, key services and ALP state from its retention. -/
  | craterResume
  /-- STATE (R413): Secure request STATE returns the security state, boot mode, bank and BOOT_COUNT. -/
  | secureState (ch : Nat)
  /-- SLOT_GEN (R413): Secure request SLOT_GEN returns a slot's generation, PROTO and flags. -/
  | secureSlotGen (ch : Nat)
  /-- ATTEST (R414): Secure request ATTEST writes a tagged attestation report into a PF buffer. -/
  | secureAttest (ch : Nat) (nonce : ReadOutcome)
  /-- KEYOP_ACK (R412): Secure request KEYOP_ACK clears CRT_KEYOP. -/
  | secureKeyopAck (ch : Nat)
  /-- TAMPER_ACCEPT (R416): Crater accepts a tamper trip and zeroises the key store, SEED and cipher state. -/
  | tamperAccept
  /-- ZEROISE_COMPLETE (R168): The NVM copies are overwritten and the reset Tamper, after zeroisation acts. -/
  | zeroiseComplete
  /-- MBX_WORD_COMMIT (R421): A write of MBX_WORD_HI commits a mailbox word and sets FULL, or is refused. -/
  | mbxWordCommit (p : Party) (ch : Nat) (hi : Word)
  /-- MBX_RELEASE (R424): A write of MBX_CH_CTL.RELEASE clears FULL and raises EMPTY at the sender. -/
  | mbxRelease (p : Party) (ch : Nat)
  /-- MBX_DB_SET (R423): A write to MBX_DB_SET sets doorbell bits and notifies the receiver for unmasked bits. -/
  | mbxDbSet (p : Party) (ch : Nat) (v : Word)
  /-- MBX_DB_MASK_WRITE (R423): A write to MBX_DB_MASK notifies at once for a newly unmasked set bit. -/
  | mbxDbMaskWrite (p : Party) (ch : Nat) (v : Word)
  /-- EMPTY_EN_WRITE (R424): A write of 1 to EMPTY_EN while EMPTY is 1 raises the notification at once. -/
  | emptyEnWrite (p : Party) (ch : Nat)
  /-- CRATER_REQUEST_READ (R422): Crater takes a request word from a secure channel in commit order and releases it. -/
  | craterRequestRead
  /-- MCTP_WRITE (R427): MCTP command WRITE sends a word on MBS6. -/
  | mctpWrite (word : DWord)
  /-- MCTP_READ (R427): MCTP command READ returns MBS6 status and word and clears EMPTY. -/
  | mctpRead
  /-- MCTP_RELEASE (R427): MCTP command RELEASE releases the MBS6 word. -/
  | mctpRelease
  /-- REC_BEGIN (R447): MCTP REC_BEGIN starts a recovery write of a bank. -/
  | recBegin (bank len : Nat)
  /-- REC_DATA (R447): MCTP REC_DATA supplies the next in-order bytes of a recovery write. -/
  | recData (offset : Nat) (bytes : Bytes)
  /-- REC_FINISH (R447): MCTP REC_FINISH verifies the recovered bank. -/
  | recFinish
  /-- REC_ACTIVATE (R447): MCTP REC_ACTIVATE activates the bank, clears the failed-start count and restarts in the recovery hold. -/
  | recActivate
  /-- REC_STATUS (R447): MCTP REC_STATUS returns the image status word and bytes received. -/
  | recStatus
  /-- MCTP_SIGNED_RESET (R456): MCTP command 0x20 carries a signed reset message that is checked and acted on. -/
  | mctpSignedReset (msg : Bytes)
  /-- MCTP_POWER_STATE (R461): MCTP command 0x21 requests a power-state transition. -/
  | mctpPowerState (target : Nat)
  /-- SMB_ERRSRC_READ (R532): MCTP command 0x22 returns and clears SMB_ERRSRC. -/
  | smbErrsrcRead
  /-- SMB_ARBITRATION_LOST (R532): The device loses SMBus arbitration on a response and retries up to 3 times before giving up. -/
  | smbArbitrationLost
  /-- SMB_SCL_TIMEOUT (R517): SCL held low for 25–35 ms makes the device release the bus and discard a partial packet. -/
  | smbSclTimeout
  /-- IMG_WRITE (R444): PCR_IMG_CTL CMD WRITE starts writing the staged image into the other bank. -/
  | imgWrite (p : Party)
  /-- IMG_STAGED_CHECKED (R444): Crater finishes checking the staged copy and starts page writes, or refuses. -/
  | imgStagedChecked
  /-- IMG_PAGE_WRITE (R444): One 4 KiB page of the other bank is written, or the write pauses at this boundary. -/
  | imgPageWrite
  /-- IMG_VERIFY_DONE (R444): The read-back check ends and the other bank shows VERIFIED or FAILED. -/
  | imgVerifyDone
  /-- IMG_ACTIVATE (R445): PCR_IMG_CTL CMD ACTIVATE writes a trial selector line naming the verified bank. -/
  | imgActivate (p : Party)
  /-- IMG_DEACTIVATE (R445): PCR_IMG_CTL CMD DEACTIVATE writes a selector line naming the running bank. -/
  | imgDeactivate (p : Party)
  /-- IMG_VERIFY (R444): PCR_IMG_CTL CMD VERIFY re-checks the other bank. -/
  | imgVerify (p : Party)
  /-- IMG_CONFIRM (R445): PCR_IMG_CTL CMD CONFIRM ends a trial and raises SVN_MIN. -/
  | imgConfirm (p : Party)
  /-- IMG_ABORT (R444): PCR_IMG_CTL CMD ABORT stops a WRITE at the next page. -/
  | imgAbort (p : Party)
  /-- IMAGE_VERIFIED (R400): Step 4 of secure boot passes on a bank and the image verified milestone is reached. -/
  | imageVerified
  /-- EMERGENCY_PATH_READY (R441): The LS path, ports, loops and player are configured and PATH_READY is set; a pending declaration or holdover takes effect. -/
  | emergencyPathReady
  /-- CONFIGURATION_READY (R441): Every section is applied, the DDT built, RWL fields locked and SC0.T0 released. -/
  | configurationReady
  /-- STORE_READY (R418): Every key slot has been recovered and STORE_READY is set. -/
  | storeReady
  /-- FULL_OPERATION (R441): Pools enter service mode and descriptor fetch begins; the failed-start count is cleared. -/
  | fullOperation
  /-- START_FAILURE (R442): A start fails; affected blocks are held in reset and a FULL reset of cause 14 follows. -/
  | startFailure (section_ reason record : Nat)
  /-- START_DEADLINE (R457): A start that has not reached its required milestone 30.0 s after reset release fails. -/
  | startDeadline
  /-- VIN12_GOOD (R450): VIN12 becomes good and a FULL start of cause 1 begins. -/
  | vin12Good
  /-- VIN12_LOST (R467): VIN12 is lost and the VIN12 islands are held in reset. -/
  | vin12Lost
  /-- VAUX33_GOOD (R450): VAUX33 becomes good; device time starts and a FULL start of cause 2 follows. -/
  | vaux33Good
  /-- VAUX33_LOST (R451): VAUX33 is lost and retained SRAM and backup registers are lost. -/
  | vaux33Lost
  /-- RESET_RELEASE (R454): A held FULL reset is released and the start sequence begins. -/
  | resetRelease
  /-- SWRESET_FULL (R450): PCR_SWRESET KIND FULL with the right KEY starts a FULL reset. -/
  | swresetFull (p : Party) (key : BitVec 16)
  /-- SWRESET_SERVICE (R450): PCR_SWRESET KIND SERVICE with the right KEY resets the service scope. -/
  | swresetService (p : Party) (key : BitVec 16)
  /-- PWR_CTL_P0 (R461): PCR_PWR_CTL CMD P0 requests the Full power state. -/
  | pwrCtlP0 (p : Party)
  /-- PWR_CTL_P1 (R461): PCR_PWR_CTL CMD P1 requests the Reduced power state. -/
  | pwrCtlP1 (p : Party)
  /-- PWR_CTL_P2 (R461): PCR_PWR_CTL CMD P2 requests the Standby power state. -/
  | pwrCtlP2 (p : Party)
  /-- PWR_CTL_P3 (R461): PCR_PWR_CTL CMD P3 requests the Watch state, refused outside NORMAL. -/
  | pwrCtlP3 (p : Party)
  /-- POWER_TRANSITION_DONE (R462): A power-state transition completes and PWR_DONE is raised. -/
  | powerTransitionDone
  /-- P3_WAKE (R463): A wake event in P3 drives WAKE_OUT_N low and leads to a FULL start of cause 16. -/
  | p3Wake (source : WakeSource)
  /-- THERMAL_SAMPLE (R464): The 1 ms junction sample applies thermal hold, critical warning or trip. -/
  | thermalSample (celsius : Int)
  /-- THERMAL_HOLD_END (R464): After 10 s below 100 °C the thermal hold ends. -/
  | thermalHoldEnd
  /-- THERMAL_TRIP_RELEASE (R464): After 10 s below 100 °C a thermal-trip reset is released. -/
  | thermalTripRelease
  /-- ISLAND_CLOCK_FAULT (R465): An island clock outside ±10 % for 1 µs causes a FULL reset of cause 15. -/
  | islandClockFault (island : Nat)
  /-- SCRUB_SEGMENT_DUE (R470): A scrub segment unfinished at its due time is raised to foreground priority. -/
  | scrubSegmentDue
  /-- SCRUB_LINE_READ (R469): The scrubber reads an HBM line and writes it back corrected, or reports an uncorrectable error. -/
  | scrubLineRead (addr : Nat) (ecc : EccResult) (cancelled : Bool)
  /-- NVM_LINE_WRITE (R473): An NVM line write is verified, retried and retired on repeated failure. -/
  | nvmLineWrite (part : NvmPartition) (line failures : Nat)
  /-- OWED_MOVE_TICK (R472): After NORMAL is driven, one owed wear move is made per 1 ms. -/
  | owedMoveTick
  /-- TIM_CFG_WRITE (R477): A write of TIM_CFG selects the PTP time source FREE, PTP or LOOP. -/
  | timCfgWrite (p : Party) (v : Word)
  /-- PTP_RATE_WRITE (R479): A write of TIM_PTP_RATE changes the rate correction in the next clock. -/
  | ptpRateWrite (p : Party) (v : Word)
  /-- PTP_STEP_WRITE (R479): A write of TIM_PTP_STEP_HI steps PTP time, or slews it while a loop is sourced. -/
  | ptpStepWrite (p : Party) (hi : Word)
  /-- SLEW_END (R479): A PTP slew completes and SLEWING clears. -/
  | slewEnd
  /-- PTP_NS_READ (R477): A read of TIM_PTP_NS latches the PTP seconds. -/
  | ptpNsRead (p : Party)
  /-- FREEWHEEL_TIMEOUT (R478): Ten cycles without a valid sweep set FREEWHEEL and clear LOCKED. -/
  | freewheelTimeout
  /-- EVENT_LOG_WRITE (R482): A queued event-log entry is written durably to NVM. -/
  | eventLogWrite
  /-- LOG_ENTRY_LOAD (R485): A write of TIM_LOG_SEL loads an event-log entry into TIM_LOG_DATA. -/
  | logEntryLoad (p : Party) (index : Nat)
  /-- TELEMETRY_SAMPLE (R483): Every 1 ms the telemetry unit samples temperatures, voltages, currents and power. -/
  | telemetrySample (r : TelemetryReading)
  /-- TELEMETRY_SNAPSHOT (R483): Every PERIOD_MS while enabled a snapshot is written into the service-memory ring, or lost. -/
  | telemetrySnapshot
  /-- SWC_IND_WRITE (R90): SWC_IND_CTL.WRITE commits a group port set or instance quota from the DATA registers as one atomic change, or refuses it with ERR. -/
  | swcIndWrite (p : Party)
  /-- SWC_IND_READ (R541): SWC_IND_CTL.READ loads a group port set or instance quota entry into SWC_IND_DATA_LO/HI. -/
  | swcIndRead (p : Party)
  /-- DEVICE_TIME_SECOND (R281): At each whole second of device time the device asserts request line REQ36. -/
  | deviceTimeSecond
  /-- BLOCK_LOCK_REGAINED (R347): A loop receive lane regains 64b/66b block lock, setting E_LOCK or W_LOCK and starting the 10 ms hold before unwrap. -/
  | blockLockRegained (lp : Nat) (west : Bool)
  /-- WAKE_SIGNALLING_END (R349): The 1 ms after a LOOP_WAKE.SEND write, or the 1 s after EMERGENCY entry, runs out, and the loop port sends BREAK again in place of WAKE on its lost sides. -/
  | wakeSignallingEnd (lp : Nat)
  /-- TAMPER_TRIP_CONDITION (R415): A tamper source enters or leaves its trip condition (TAMPER_N low, mesh, supply, clock or cold), which updates CRT_TAMPER_STATUS.LIVE and starts or cancels its acceptance interval. -/
  | tamperTripCondition (source : Nat) (on : Bool)
deriving DecidableEq, Repr

end Sys2Proof
end

