-- ==== Sys2Proof/Machine/Bytes.lean ====
section
/-! DEFINITION. Bit fields, byte order and byte strings (R4, R5). -/

namespace Sys2Proof.Machine

/-- Bits `lo .. lo + w - 1` of a word, as a number (R4). -/
def fld (v : Word) (lo w : Nat) : Nat := (v.toNat >>> lo) % 2 ^ w

/-- One bit of a word. -/
def bit (v : Word) (n : Nat) : Bool := v.getLsbD n

/-- The mask of bits `lo .. lo + w - 1`. -/
def fieldMask (lo w : Nat) : Word := BitVec.ofNat 32 ((2 ^ w - 1) <<< lo)

/-- The word with bits `lo .. lo + w - 1` replaced by the low bits of `x`. -/
def setFld (v : Word) (lo w x : Nat) : Word :=
  (v &&& ~~~ (fieldMask lo w)) ||| (BitVec.ofNat 32 ((x % 2 ^ w) <<< lo))

/-- The word that carries number `x` in bits `lo .. lo + w - 1` and zeros elsewhere. -/
def putFld (lo w x : Nat) : Word := BitVec.ofNat 32 ((x % 2 ^ w) <<< lo)

/-- A flag as bit `n`. -/
def putBit (n : Nat) (b : Bool) : Word := if b then BitVec.ofNat 32 (2 ^ n) else 0

/-- The low half of a 64-bit register. -/
def lo32 (v : DWord) : Word := BitVec.ofNat 32 v.toNat

/-- The high half of a 64-bit register. -/
def hi32 (v : DWord) : Word := BitVec.ofNat 32 (v.toNat >>> 32)

/-- A 64-bit value from its halves. -/
def join64 (hi lo : Word) : DWord := BitVec.ofNat 64 (hi.toNat * 2 ^ 32 + lo.toNat)

/-- The number that a byte string spells, little-endian (R5). -/
def leNat : Bytes → Nat
  | [] => 0
  | b :: bs => b.toNat + 256 * leNat bs

/-- The number that a byte string spells, big-endian (network order). -/
def beNat (bs : Bytes) : Nat := bs.foldl (fun a b => a * 256 + b.toNat) 0

/-- `n` bytes of number `x`, little-endian. -/
def toLe : Nat → Nat → Bytes
  | 0, _ => []
  | n + 1, x => BitVec.ofNat 8 x :: toLe n (x / 256)

/-- `n` bytes of number `x`, big-endian. -/
def toBe (n x : Nat) : Bytes := (toLe n x).reverse

/-- The `n` bytes from offset `o`, bytes past the end read as 0. -/
def slice (bs : Bytes) (o n : Nat) : Bytes :=
  let t := (bs.drop o).take n
  t ++ List.replicate (n - t.length) 0

/-- Little-endian field of `n` bytes at offset `o`. -/
def leAt (bs : Bytes) (o n : Nat) : Nat := leNat (slice bs o n)

/-- Big-endian field of `n` bytes at offset `o`. -/
def beAt (bs : Bytes) (o n : Nat) : Nat := beNat (slice bs o n)

/-- Byte at offset `o`, 0 past the end. -/
def byteAt (bs : Bytes) (o : Nat) : Nat := (bs.getD o 0).toNat

/-- Bits `lo .. lo + w - 1` of a number. -/
def nbits (x lo w : Nat) : Nat := (x >>> lo) % 2 ^ w

/-- Bit `n` of a number. -/
def nbit (x n : Nat) : Bool := x.testBit n

/-- The byte string with the bytes from offset `o` replaced by `new`. -/
def patch (bs : Bytes) (o : Nat) (new : Bytes) : Bytes :=
  slice bs 0 o ++ new ++ bs.drop (o + new.length)

/-- Whether every byte of the string is 0. -/
def allZero (bs : Bytes) : Bool := bs.all (fun b => b == 0)

/-- The bytes of a list of registers, each little-endian. -/
def wordsToBytes : List Word → Bytes
  | [] => []
  | w :: ws => toLe 4 w.toNat ++ wordsToBytes ws

/-- `n` registers from a byte string, missing bytes read as 0. -/
def bytesToWords : Nat → Bytes → List Word
  | 0, _ => []
  | n + 1, bs => BitVec.ofNat 32 (leAt bs 0 4) :: bytesToWords n (bs.drop 4)

/-- The signed reading of a `w`-bit field. -/
def signed (w x : Nat) : Int := if nbit x (w - 1) then (x % 2 ^ w : Nat) - (2 ^ w : Nat) else ((x % 2 ^ w : Nat) : Int)

/-- Quotient rounded up. -/
def ceilDiv (a b : Nat) : Nat := (a + b - 1) / b

/-- Whether `x` lies in one of the closed ranges. -/
def inRanges (rs : List (Nat × Nat)) (x : Nat) : Bool := rs.any (fun r => decide (r.1 ≤ x) && decide (x ≤ r.2))

end Sys2Proof.Machine
end

