-- ==== Sys2Proof/Machine/Crc.lean ====
section
/-! DEFINITION. The two CRCs of R540. -/

namespace Sys2Proof.Machine

/-- One bit of the reflected CRC32C. -/
def crc32cBit (c : BitVec 32) : BitVec 32 := if c.getLsbD 0 then (c >>> 1) ^^^ 0x82F63B78 else c >>> 1

/-- One byte of the reflected CRC32C. -/
def crc32cByte (c : BitVec 32) (b : Byte) : BitVec 32 := Nat.repeat crc32cBit 8 (c ^^^ b.zeroExtend 32)

/-- CRC32C with a seed: reflected, the result inverted (R540). -/
def crc32cSeed (seed : BitVec 32) (bs : Bytes) : BitVec 32 := ~~~ (bs.foldl crc32cByte seed)

/-- CRC32C (R540). -/
def crc32c (bs : Bytes) : BitVec 32 := crc32cSeed 0xFFFFFFFF bs

/-- One bit of the CRC-16 of Gondola markers. -/
def crc16Bit (c : BitVec 16) : BitVec 16 := if c.getLsbD 15 then (c <<< 1) ^^^ 0x1021 else c <<< 1

/-- CRC-16 of Gondola markers: polynomial 0x1021, seed 0xFFFF, not reflected, no final XOR (R354, R540). -/
def crc16 (bs : Bytes) : BitVec 16 :=
  bs.foldl (fun c b => Nat.repeat crc16Bit 8 (c ^^^ (BitVec.ofNat 16 (b.toNat * 256)))) 0xFFFF

end Sys2Proof.Machine
end

