-- ==== Sys2Proof/Machine/Regs.lean ====
section
/-! DEFINITION. The register map of R506: the offset of every register in the PF BAR0, and for each register its access
masks (R8), its reset value and the encodings its RW fields allow (R7). A register that exists once per view (R500) is marked.
A register whose value the device computes from its state has no stored bits here: Machine/RegRead.lean gives its value. -/

namespace Sys2Proof.Machine

/-- HEP_STATUS (R205). -/
def rHEP_STATUS : Nat := 0x0
/-- HEP_TAGS (R224). -/
def rHEP_TAGS : Nat := 0x4
/-- HEP_FN_SEL (R500). -/
def rHEP_FN_SEL : Nat := 0x10
/-- HEP_FN_STATUS (R218). -/
def rHEP_FN_STATUS : Nat := 0x14
/-- HEP_EVENT (R539). -/
def rHEP_EVENT : Nat := 0x20
/-- HEP_EVENT_MASK (R539). -/
def rHEP_EVENT_MASK : Nat := 0x24
/-- HEP_LAST_FLR (R226). -/
def rHEP_LAST_FLR : Nat := 0x28
/-- HEP_VSW_SEL (R230). -/
def rHEP_VSW_SEL : Nat := 0x40
/-- HEP_VSW_STATUS (R231). -/
def rHEP_VSW_STATUS : Nat := 0x44
/-- VFM_STATUS (R209). -/
def rVFM_STATUS : Nat := 0x100000
/-- VFM_IND_ADDR (R238). -/
def rVFM_IND_ADDR : Nat := 0x100010
/-- VFM_IND_CTL (R238). -/
def rVFM_IND_CTL : Nat := 0x100014
/-- VFM_IND_DATA (R238). -/
def rVFM_IND_DATA (n : Nat) : Nat := 0x100020 + 4 * n
/-- VFM_FN_CTL (R240). -/
def rVFM_FN_CTL : Nat := 0x100080
/-- VFM_QCFG (R240). -/
def rVFM_QCFG : Nat := 0x100084
/-- VFM_EVENT (R539). -/
def rVFM_EVENT : Nat := 0x100090
/-- VFM_EVENT_MASK (R539). -/
def rVFM_EVENT_MASK : Nat := 0x100094
/-- VFM_DTU_FAULT (R244). -/
def rVFM_DTU_FAULT : Nat := 0x1000a0
/-- VFM_DTU_FAULT_ADDR (R244). -/
def rVFM_DTU_FAULT_ADDR : Nat := 0x1000a4
/-- WQM_STATUS (R253). -/
def rWQM_STATUS : Nat := 0x200000
/-- WQM_QCTL (R265). -/
def rWQM_QCTL : Nat := 0x200010
/-- WQM_QHEAD (R252). -/
def rWQM_QHEAD : Nat := 0x200014
/-- WQM_QTAIL (R252). -/
def rWQM_QTAIL : Nat := 0x200018
/-- WQM_QERR (R264). -/
def rWQM_QERR : Nat := 0x20001c
/-- WQM_ADMIN_CFG (R266). -/
def rWQM_ADMIN_CFG : Nat := 0x200030
/-- WQM_ADMIN_SQ (R266). -/
def rWQM_ADMIN_SQ : Nat := 0x200038
/-- WQM_ADMIN_CQ (R266). -/
def rWQM_ADMIN_CQ : Nat := 0x200040
/-- WQM_SVCQ_CFG (R266). -/
def rWQM_SVCQ_CFG : Nat := 0x200050
/-- WQM_SVCQ_SQ (R266). -/
def rWQM_SVCQ_SQ : Nat := 0x200058
/-- WQM_SVCQ_CQ (R266). -/
def rWQM_SVCQ_CQ : Nat := 0x200060
/-- WQM_SVCQ_TAIL (R266). -/
def rWQM_SVCQ_TAIL : Nat := 0x200068
/-- WQM_SVCQ_HEAD (R266). -/
def rWQM_SVCQ_HEAD : Nat := 0x20006c
/-- WQM_EVENT (R539). -/
def rWQM_EVENT : Nat := 0x200080
/-- WQM_EVENT_MASK (R539). -/
def rWQM_EVENT_MASK : Nat := 0x200084
/-- DMA_STATUS (R273). -/
def rDMA_STATUS : Nat := 0x300000
/-- DMA_DEVBUF_CFG (R272). -/
def rDMA_DEVBUF_CFG : Nat := 0x300004
/-- DMA_CH_SEL (R500). -/
def rDMA_CH_SEL : Nat := 0x300010
/-- DMA_CH_CTL (R275). -/
def rDMA_CH_CTL : Nat := 0x300014
/-- DMA_CH_PROG (R275). -/
def rDMA_CH_PROG : Nat := 0x300018
/-- DMA_CH_PC (R275). -/
def rDMA_CH_PC : Nat := 0x30001c
/-- DMA_CH_MODE (R278). -/
def rDMA_CH_MODE : Nat := 0x300020
/-- DMA_CH_FAULT (R286). -/
def rDMA_CH_FAULT : Nat := 0x300024
/-- DMA_CH_FAULT_ADDR (R286). -/
def rDMA_CH_FAULT_ADDR : Nat := 0x300028
/-- DMA_CH_END (R284). -/
def rDMA_CH_END : Nat := 0x300030
/-- DMA_CH_C (R275). -/
def rDMA_CH_C (n : Nat) : Nat := 0x300040 + 8 * n
/-- DMA_CH_LOOP (R283). -/
def rDMA_CH_LOOP (n : Nat) : Nat := 0x300080 + 4 * n
/-- DMA_REQ_SET (R281). -/
def rDMA_REQ_SET : Nat := 0x300100
/-- DMA_REQ_SEL (R281). -/
def rDMA_REQ_SEL : Nat := 0x300104
/-- DMA_REQ_PEND (R281). -/
def rDMA_REQ_PEND : Nat := 0x300108
/-- DMA_PMEM_ADDR (R274). -/
def rDMA_PMEM_ADDR : Nat := 0x300110
/-- DMA_PMEM_LO (R274). -/
def rDMA_PMEM_LO : Nat := 0x300114
/-- DMA_PMEM_HI (R274). -/
def rDMA_PMEM_HI : Nat := 0x300118
/-- DMA_TMR_CFG (R281). -/
def rDMA_TMR_CFG (n : Nat) : Nat := 0x300200 + 4 * n
/-- DMA_EVENT (R539). -/
def rDMA_EVENT : Nat := 0x300300
/-- DMA_EVENT_MASK (R539). -/
def rDMA_EVENT_MASK : Nat := 0x300304
/-- DMA_DONE (R284). -/
def rDMA_DONE (n : Nat) : Nat := 0x300310 + 4 * n
/-- DMA_FAULTED (R286). -/
def rDMA_FAULTED (n : Nat) : Nat := 0x300320 + 4 * n
/-- DMA_SIGNALLED (R284). -/
def rDMA_SIGNALLED (n : Nat) : Nat := 0x300330 + 4 * n
/-- POOL_STATUS (R297). -/
def rPOOL_STATUS : Nat := 0x400000
/-- POOL_CTL (R296). -/
def rPOOL_CTL : Nat := 0x400004
/-- POOL_CFG (R292). -/
def rPOOL_CFG (n : Nat) : Nat := 0x400040 + 4 * n
/-- POOL_P_COUNT (R292). -/
def rPOOL_P_COUNT (n : Nat) : Nat := 0x400100 + 32 * n
/-- POOL_P_FREE (R295). -/
def rPOOL_P_FREE (n : Nat) : Nat := 0x400104 + 32 * n
/-- POOL_P_IN_USE (R295). -/
def rPOOL_P_IN_USE (n : Nat) : Nat := 0x400108 + 32 * n
/-- POOL_P_HEAD (R295). -/
def rPOOL_P_HEAD (n : Nat) : Nat := 0x40010c + 32 * n
/-- POOL_P_LOST (R296). -/
def rPOOL_P_LOST (n : Nat) : Nat := 0x400110 + 32 * n
/-- POOL_P_LS_MIN (R294). -/
def rPOOL_P_LS_MIN (n : Nat) : Nat := 0x400114 + 32 * n
/-- POOL_P_CORE_MIN (R294). -/
def rPOOL_P_CORE_MIN (n : Nat) : Nat := 0x400118 + 32 * n
/-- POOL_P_SVC_MIN (R294). -/
def rPOOL_P_SVC_MIN (n : Nat) : Nat := 0x40011c + 32 * n
/-- POOL_IND_ADDR (R301). -/
def rPOOL_IND_ADDR : Nat := 0x400400
/-- POOL_IND_CTL (R301). -/
def rPOOL_IND_CTL : Nat := 0x400404
/-- POOL_IND_DATA (R301). -/
def rPOOL_IND_DATA (n : Nat) : Nat := 0x400410 + 4 * n
/-- POOL_EVENT (R539). -/
def rPOOL_EVENT : Nat := 0x400500
/-- POOL_EVENT_MASK (R539). -/
def rPOOL_EVENT_MASK : Nat := 0x400504
/-- SWC_STATUS (R79). -/
def rSWC_STATUS : Nat := 0x500000
/-- SWC_BUF_CFG (R75). -/
def rSWC_BUF_CFG : Nat := 0x500004
/-- SWC_FREE_CELLS (R72). -/
def rSWC_FREE_CELLS : Nat := 0x500008
/-- SWC_ING_LIMIT (R76). -/
def rSWC_ING_LIMIT (n : Nat) : Nat := 0x500010 + 4 * n
/-- SWC_EGR_LIMIT (R76). -/
def rSWC_EGR_LIMIT (n : Nat) : Nat := 0x500030 + 4 * n
/-- SWC_SPILL_CFG (R79). -/
def rSWC_SPILL_CFG : Nat := 0x500050
/-- SWC_SPILL_USED (R79). -/
def rSWC_SPILL_USED : Nat := 0x500054
/-- SWC_IND_ADDR (R90). -/
def rSWC_IND_ADDR : Nat := 0x500060
/-- SWC_IND_CTL (R90). -/
def rSWC_IND_CTL : Nat := 0x500064
/-- SWC_IND_DATA_LO (R90). -/
def rSWC_IND_DATA_LO : Nat := 0x500068
/-- SWC_IND_DATA_HI (R90). -/
def rSWC_IND_DATA_HI : Nat := 0x50006c
/-- SWC_EVENT (R539). -/
def rSWC_EVENT : Nat := 0x500080
/-- SWC_EVENT_MASK (R539). -/
def rSWC_EVENT_MASK : Nat := 0x500084
/-- SWC_TEPHRA_CFG (R93). -/
def rSWC_TEPHRA_CFG : Nat := 0x500090
/-- SWC_TEPHRA_BASE_LO (R93). -/
def rSWC_TEPHRA_BASE_LO : Nat := 0x500094
/-- SWC_TEPHRA_BASE_HI (R93). -/
def rSWC_TEPHRA_BASE_HI : Nat := 0x500098
/-- SWC_TEPHRA_PROD (R93). -/
def rSWC_TEPHRA_PROD : Nat := 0x5000a0
/-- SWC_TEPHRA_CONS (R93). -/
def rSWC_TEPHRA_CONS : Nat := 0x5000a4
/-- FLP_STATUS (R125). -/
def rFLP_STATUS : Nat := 0x600000
/-- FLP_IND_ADDR (R121). -/
def rFLP_IND_ADDR : Nat := 0x600010
/-- FLP_IND_CTL (R121). -/
def rFLP_IND_CTL : Nat := 0x600014
/-- FLP_IND_RESULT (R123). -/
def rFLP_IND_RESULT : Nat := 0x600018
/-- FLP_AGE_CFG (R125). -/
def rFLP_AGE_CFG : Nat := 0x600020
/-- FLP_TICK (R125). -/
def rFLP_TICK : Nat := 0x600024
/-- FLP_TUN_PORTS (R115). -/
def rFLP_TUN_PORTS : Nat := 0x600028
/-- FLP_PROF_CTL (R124). -/
def rFLP_PROF_CTL : Nat := 0x600030
/-- FLP_AGE_FIFO_LO (R125). -/
def rFLP_AGE_FIFO_LO : Nat := 0x600038
/-- FLP_AGE_FIFO_HI (R125). -/
def rFLP_AGE_FIFO_HI : Nat := 0x60003c
/-- FLP_EVENT (R539). -/
def rFLP_EVENT : Nat := 0x600040
/-- FLP_EVENT_MASK (R539). -/
def rFLP_EVENT_MASK : Nat := 0x600044
/-- FLP_IND_DATA (R121). -/
def rFLP_IND_DATA (n : Nat) : Nat := 0x600100 + 4 * n
/-- TMG_STATUS (R134). -/
def rTMG_STATUS : Nat := 0x700000
/-- TMG_DWRR_CFG (R139). -/
def rTMG_DWRR_CFG : Nat := 0x700004
/-- TMG_CLS_WEIGHT (R139). -/
def rTMG_CLS_WEIGHT : Nat := 0x700008
/-- TMG_CLS_WEIGHT_HI (R139). -/
def rTMG_CLS_WEIGHT_HI : Nat := 0x70000c
/-- TMG_IND_ADDR (R135). -/
def rTMG_IND_ADDR : Nat := 0x700010
/-- TMG_IND_CTL (R135). -/
def rTMG_IND_CTL : Nat := 0x700014
/-- TMG_IND_DATA (R135). -/
def rTMG_IND_DATA (n : Nat) : Nat := 0x700020 + 4 * n
/-- TMG_EVENT (R539). -/
def rTMG_EVENT : Nat := 0x700040
/-- TMG_EVENT_MASK (R539). -/
def rTMG_EVENT_MASK : Nat := 0x700044
/-- CPH_STATUS (R154). -/
def rCPH_STATUS : Nat := 0x800000
/-- CPH_FENCED (R154). -/
def rCPH_FENCED (n : Nat) : Nat := 0x800010 + 4 * n
/-- CPH_POWERED (R460). -/
def rCPH_POWERED (n : Nat) : Nat := 0x800030 + 4 * n
/-- CPH_IND_ADDR (R160). -/
def rCPH_IND_ADDR : Nat := 0x800060
/-- CPH_IND_CTL (R160). -/
def rCPH_IND_CTL : Nat := 0x800064
/-- CPH_IND_DATA (R160). -/
def rCPH_IND_DATA (n : Nat) : Nat := 0x800070 + 4 * n
/-- CPH_EVENT (R539). -/
def rCPH_EVENT : Nat := 0x800100
/-- CPH_EVENT_MASK (R539). -/
def rCPH_EVENT_MASK : Nat := 0x800104
/-- CPH_NEAR_FIFO (R166). -/
def rCPH_NEAR_FIFO : Nat := 0x800108
/-- STR_STATUS (R187). -/
def rSTR_STATUS : Nat := 0x900000
/-- STR_JNL_CFG (R191). -/
def rSTR_JNL_CFG : Nat := 0x900004
/-- STR_JNL_BASE (R191). -/
def rSTR_JNL_BASE : Nat := 0x900008
/-- STR_JNL_EXTENTS (R191). -/
def rSTR_JNL_EXTENTS : Nat := 0x90000c
/-- STR_JNL_SEQ (R190). -/
def rSTR_JNL_SEQ : Nat := 0x900010
/-- STR_JNL_DURABLE (R193). -/
def rSTR_JNL_DURABLE : Nat := 0x900018
/-- STR_JNL_HEAD (R191). -/
def rSTR_JNL_HEAD : Nat := 0x900020
/-- STR_STAGE_CFG (R191). -/
def rSTR_STAGE_CFG : Nat := 0x900028
/-- STR_STAGE_USED (R191). -/
def rSTR_STAGE_USED : Nat := 0x90002c
/-- STR_CMD_CFG (R185). -/
def rSTR_CMD_CFG : Nat := 0x900030
/-- STR_OUTSTANDING (R185). -/
def rSTR_OUTSTANDING : Nat := 0x900034
/-- STR_IND_ADDR (R182). -/
def rSTR_IND_ADDR : Nat := 0x900040
/-- STR_IND_CTL (R182). -/
def rSTR_IND_CTL : Nat := 0x900044
/-- STR_IND_DATA (R182). -/
def rSTR_IND_DATA (n : Nat) : Nat := 0x900050 + 4 * n
/-- STR_EVENT (R539). -/
def rSTR_EVENT : Nat := 0x900100
/-- STR_EVENT_MASK (R539). -/
def rSTR_EVENT_MASK : Nat := 0x900104
/-- ETH_STATUS (R315). -/
def rETH_STATUS : Nat := 0xa00000
/-- ETH_GRP_STATUS (R311). -/
def rETH_GRP_STATUS (n : Nat) : Nat := 0xa00010 + 4 * n
/-- ETH_STN_SEL (R310). -/
def rETH_STN_SEL : Nat := 0xa00040
/-- ETH_STN_LO (R310). -/
def rETH_STN_LO : Nat := 0xa00044
/-- ETH_STN_HI (R310). -/
def rETH_STN_HI : Nat := 0xa00048
/-- ETH_WAKE_CFG (R321). -/
def rETH_WAKE_CFG : Nat := 0xa00060
/-- ETH_WAKE_STATUS (R321). -/
def rETH_WAKE_STATUS : Nat := 0xa00064
/-- ETH_EVENT (R539). -/
def rETH_EVENT : Nat := 0xa00080
/-- ETH_EVENT_MASK (R539). -/
def rETH_EVENT_MASK : Nat := 0xa00084
/-- ETH_PORT_STATUS (R312). -/
def rETH_PORT_STATUS (n : Nat) : Nat := 0xa01000 + 512 * n
/-- ETH_MTU (R306). -/
def rETH_MTU (n : Nat) : Nat := 0xa01004 + 512 * n
/-- ETH_TXHOLD_LIMIT (R313). -/
def rETH_TXHOLD_LIMIT (n : Nat) : Nat := 0xa01008 + 512 * n
/-- ETH_PFC_CFG (R316). -/
def rETH_PFC_CFG (n : Nat) : Nat := 0xa0100c + 512 * n
/-- ETH_PTP_CFG (R318). -/
def rETH_PTP_CFG (n : Nat) : Nat := 0xa01010 + 512 * n
/-- ETH_TS_INFO (R319). -/
def rETH_TS_INFO (n : Nat) : Nat := 0xa01018 + 512 * n
/-- ETH_TS_NS (R319). -/
def rETH_TS_NS (n : Nat) : Nat := 0xa0101c + 512 * n
/-- ETH_TS_SEC_LO (R319). -/
def rETH_TS_SEC_LO (n : Nat) : Nat := 0xa01020 + 512 * n
/-- ETH_TS_SEC_HI (R319). -/
def rETH_TS_SEC_HI (n : Nat) : Nat := 0xa01024 + 512 * n
/-- LOOP_STATUS (R344). -/
def rLOOP_STATUS (n : Nat) : Nat := 0xb00000 + 256 * n
/-- LOOP_CFG (R328). -/
def rLOOP_CFG (n : Nat) : Nat := 0xb00004 + 256 * n
/-- LOOP_BUDGET (R335). -/
def rLOOP_BUDGET (n : Nat) : Nat := 0xb00008 + 256 * n
/-- LOOP_CABLE (R342). -/
def rLOOP_CABLE (n : Nat) : Nat := 0xb0000c + 256 * n
/-- LOOP_EPOCH (R344). -/
def rLOOP_EPOCH (n : Nat) : Nat := 0xb00010 + 256 * n
/-- LOOP_MASTER (R344). -/
def rLOOP_MASTER (n : Nat) : Nat := 0xb00014 + 256 * n
/-- LOOP_CYCLE (R328). -/
def rLOOP_CYCLE (n : Nat) : Nat := 0xb0001c + 256 * n
/-- LOOP_RING_E (R334). -/
def rLOOP_RING_E (n : Nat) : Nat := 0xb00020 + 256 * n
/-- LOOP_RING_W (R334). -/
def rLOOP_RING_W (n : Nat) : Nat := 0xb00024 + 256 * n
/-- LOOP_BREAK (R346). -/
def rLOOP_BREAK (n : Nat) : Nat := 0xb00028 + 256 * n
/-- LOOP_WAKE (R349). -/
def rLOOP_WAKE (n : Nat) : Nat := 0xb0002c + 256 * n
/-- LOOP_MATCH0 (R337). -/
def rLOOP_MATCH0 (n : Nat) : Nat := 0xb00030 + 256 * n
/-- LOOP_MATCH1 (R337). -/
def rLOOP_MATCH1 (n : Nat) : Nat := 0xb00034 + 256 * n
/-- LOOP_MATCH2 (R337). -/
def rLOOP_MATCH2 (n : Nat) : Nat := 0xb00038 + 256 * n
/-- LOOP_MATCH3 (R337). -/
def rLOOP_MATCH3 (n : Nat) : Nat := 0xb0003c + 256 * n
/-- LOOP_MATCH4 (R337). -/
def rLOOP_MATCH4 (n : Nat) : Nat := 0xb00040 + 256 * n
/-- LOOP_MATCH5 (R337). -/
def rLOOP_MATCH5 (n : Nat) : Nat := 0xb00044 + 256 * n
/-- LOOP_MATCH6 (R337). -/
def rLOOP_MATCH6 (n : Nat) : Nat := 0xb00048 + 256 * n
/-- LOOP_MATCH7 (R337). -/
def rLOOP_MATCH7 (n : Nat) : Nat := 0xb0004c + 256 * n
/-- LOOP_IND_ADDR (R333). -/
def rLOOP_IND_ADDR (n : Nat) : Nat := 0xb00050 + 256 * n
/-- LOOP_IND_CTL (R333). -/
def rLOOP_IND_CTL (n : Nat) : Nat := 0xb00054 + 256 * n
/-- LOOP_IND_DATA0 (R333). -/
def rLOOP_IND_DATA0 (n : Nat) : Nat := 0xb00060 + 256 * n
/-- LOOP_IND_DATA1 (R333). -/
def rLOOP_IND_DATA1 (n : Nat) : Nat := 0xb00064 + 256 * n
/-- LOOP_IND_DATA2 (R333). -/
def rLOOP_IND_DATA2 (n : Nat) : Nat := 0xb00068 + 256 * n
/-- LOOP_IND_DATA3 (R333). -/
def rLOOP_IND_DATA3 (n : Nat) : Nat := 0xb0006c + 256 * n
/-- LOOP_IND_DATA4 (R333). -/
def rLOOP_IND_DATA4 (n : Nat) : Nat := 0xb00070 + 256 * n
/-- LOOP_IND_DATA5 (R333). -/
def rLOOP_IND_DATA5 (n : Nat) : Nat := 0xb00074 + 256 * n
/-- LOOP_IND_DATA6 (R333). -/
def rLOOP_IND_DATA6 (n : Nat) : Nat := 0xb00078 + 256 * n
/-- LOOP_IND_DATA7 (R333). -/
def rLOOP_IND_DATA7 (n : Nat) : Nat := 0xb0007c + 256 * n
/-- LOOP_EVENT (R539). -/
def rLOOP_EVENT (n : Nat) : Nat := 0xb00080 + 256 * n
/-- LOOP_EVENT_MASK (R539). -/
def rLOOP_EVENT_MASK (n : Nat) : Nat := 0xb00084 + 256 * n
/-- CAS_STATUS (R366). -/
def rCAS_STATUS : Nat := 0xc00000
/-- CAS_PEERS (R363). -/
def rCAS_PEERS : Nat := 0xc00004
/-- CAS_LINK_STATUS (R362). -/
def rCAS_LINK_STATUS (n : Nat) : Nat := 0xc00010 + 4 * n
/-- CAS_LINK_CFG (R359). -/
def rCAS_LINK_CFG : Nat := 0xc00020
/-- CAS_CTL (R375). -/
def rCAS_CTL : Nat := 0xc00028
/-- CAS_REACH (R366). -/
def rCAS_REACH : Nat := 0xc00030
/-- CAS_MAP (R371). -/
def rCAS_MAP : Nat := 0xc00038
/-- CAS_HELD (R372). -/
def rCAS_HELD : Nat := 0xc00040
/-- CAS_DRILL (R373). -/
def rCAS_DRILL : Nat := 0xc00048
/-- CAS_TOPO_SEL (R364). -/
def rCAS_TOPO_SEL : Nat := 0xc00060
/-- CAS_TOPO_INFO (R364). -/
def rCAS_TOPO_INFO : Nat := 0xc00064
/-- CAS_TOPO_SERIAL (R364). -/
def rCAS_TOPO_SERIAL : Nat := 0xc00068
/-- CAS_TOPO_ROUTE (R366). -/
def rCAS_TOPO_ROUTE : Nat := 0xc00070
/-- CAS_EVENT (R539). -/
def rCAS_EVENT : Nat := 0xc00080
/-- CAS_EVENT_MASK (R539). -/
def rCAS_EVENT_MASK : Nat := 0xc00084
/-- SVC_STATUS (R378). -/
def rSVC_STATUS : Nat := 0xd00000
/-- SVC_THREAD_SEL (R388). -/
def rSVC_THREAD_SEL : Nat := 0xd00010
/-- SVC_THREAD_CTL (R388). -/
def rSVC_THREAD_CTL : Nat := 0xd00014
/-- SVC_THREAD_PC (R388). -/
def rSVC_THREAD_PC : Nat := 0xd00018
/-- SVC_TSBBASE (R389). -/
def rSVC_TSBBASE : Nat := 0xd00020
/-- SVC_REGION_BASE (R382). -/
def rSVC_REGION_BASE : Nat := 0xd00028
/-- SVC_REGION_LIMIT (R382). -/
def rSVC_REGION_LIMIT : Nat := 0xd00030
/-- SVC_XREG_SEL (R388). -/
def rSVC_XREG_SEL : Nat := 0xd00038
/-- SVC_XREG (R388). -/
def rSVC_XREG : Nat := 0xd0003c
/-- SVC_SHADOW_CAUSE (R389). -/
def rSVC_SHADOW_CAUSE : Nat := 0xd00044
/-- SVC_SHADOW_PC (R389). -/
def rSVC_SHADOW_PC : Nat := 0xd00048
/-- SVC_SHADOW_TVAL (R389). -/
def rSVC_SHADOW_TVAL : Nat := 0xd00050
/-- SVC_FAULT_FIFO (R390). -/
def rSVC_FAULT_FIFO : Nat := 0xd00058
/-- SVC_WDOG (R393). -/
def rSVC_WDOG : Nat := 0xd00060
/-- SVC_EVENT (R539). -/
def rSVC_EVENT : Nat := 0xd00080
/-- SVC_EVENT_MASK (R539). -/
def rSVC_EVENT_MASK : Nat := 0xd00084
/-- MBX_WORD (R421). -/
def rMBX_WORD (n : Nat) : Nat := 0xe00000 + 32 * n
/-- MBX_CH_STATUS (R421). -/
def rMBX_CH_STATUS (n : Nat) : Nat := 0xe00008 + 32 * n
/-- MBX_CH_CTL (R424). -/
def rMBX_CH_CTL (n : Nat) : Nat := 0xe0000c + 32 * n
/-- MBX_DB_SET (R423). -/
def rMBX_DB_SET (n : Nat) : Nat := 0xe00010 + 32 * n
/-- MBX_DB (R423). -/
def rMBX_DB (n : Nat) : Nat := 0xe00014 + 32 * n
/-- MBX_DB_MASK (R423). -/
def rMBX_DB_MASK (n : Nat) : Nat := 0xe00018 + 32 * n
/-- MBX_CH_CFG (R425). -/
def rMBX_CH_CFG (n : Nat) : Nat := 0xe0001c + 32 * n
/-- PCR_STATUS (R461). -/
def rPCR_STATUS : Nat := 0xf00000
/-- PCR_PWR_CTL (R461). -/
def rPCR_PWR_CTL : Nat := 0xf00004
/-- PCR_RESET_CAUSE (R450). -/
def rPCR_RESET_CAUSE : Nat := 0xf00008
/-- PCR_SWRESET (R450). -/
def rPCR_SWRESET : Nat := 0xf0000c
/-- PCR_THERM (R464). -/
def rPCR_THERM : Nat := 0xf00010
/-- PCR_EVENT (R539). -/
def rPCR_EVENT : Nat := 0xf00040
/-- PCR_EVENT_MASK (R539). -/
def rPCR_EVENT_MASK : Nat := 0xf00044
/-- PCR_BACKUP (R451). -/
def rPCR_BACKUP (n : Nat) : Nat := 0xf00080 + 4 * n
/-- PCR_ISLAND_SEL (R465). -/
def rPCR_ISLAND_SEL : Nat := 0xf00100
/-- PCR_ISLAND_STATUS (R465). -/
def rPCR_ISLAND_STATUS : Nat := 0xf00104
/-- PCR_IMG_STATUS (R430). -/
def rPCR_IMG_STATUS : Nat := 0xf00800
/-- PCR_IMG_CTL (R448). -/
def rPCR_IMG_CTL : Nat := 0xf00804
/-- PCR_IMG_SRC_LO (R444). -/
def rPCR_IMG_SRC_LO : Nat := 0xf00808
/-- PCR_IMG_SRC_HI (R444). -/
def rPCR_IMG_SRC_HI : Nat := 0xf0080c
/-- PCR_IMG_LEN (R444). -/
def rPCR_IMG_LEN : Nat := 0xf00810
/-- PCR_IMG_DONE (R444). -/
def rPCR_IMG_DONE : Nat := 0xf00814
/-- PCR_IMG_VER (R444). -/
def rPCR_IMG_VER : Nat := 0xf00818
/-- PCR_IMG_FAIL (R442). -/
def rPCR_IMG_FAIL : Nat := 0xf00820
/-- PCR_IMG_EVENT (R539). -/
def rPCR_IMG_EVENT : Nat := 0xf00828
/-- PCR_IMG_EVENT_MASK (R539). -/
def rPCR_IMG_EVENT_MASK : Nat := 0xf0082c
/-- MEM_STATUS (R475). -/
def rMEM_STATUS : Nat := 0x1000000
/-- MEM_SVC_MEM (R468). -/
def rMEM_SVC_MEM : Nat := 0x1000004
/-- MEM_SCRUB (R470). -/
def rMEM_SCRUB : Nat := 0x1000008
/-- MEM_NVM_SPARE (R473). -/
def rMEM_NVM_SPARE : Nat := 0x100000c
/-- MEM_ERR (R469). -/
def rMEM_ERR : Nat := 0x1000010
/-- MEM_ERR_ADDR (R469). -/
def rMEM_ERR_ADDR : Nat := 0x1000014
/-- MEM_EVENT (R539). -/
def rMEM_EVENT : Nat := 0x1000040
/-- MEM_EVENT_MASK (R539). -/
def rMEM_EVENT_MASK : Nat := 0x1000044
/-- TIM_STATUS (R478). -/
def rTIM_STATUS : Nat := 0x1100000
/-- TIM_CFG (R477). -/
def rTIM_CFG : Nat := 0x1100004
/-- TIM_DEV (R476). -/
def rTIM_DEV : Nat := 0x1100008
/-- TIM_PTP_NS (R477). -/
def rTIM_PTP_NS : Nat := 0x1100010
/-- TIM_PTP_SEC_LO (R477). -/
def rTIM_PTP_SEC_LO : Nat := 0x1100014
/-- TIM_PTP_SEC_HI (R477). -/
def rTIM_PTP_SEC_HI : Nat := 0x1100018
/-- TIM_PTP_RATE (R479). -/
def rTIM_PTP_RATE : Nat := 0x1100020
/-- TIM_PTP_STEP_LO (R479). -/
def rTIM_PTP_STEP_LO : Nat := 0x1100028
/-- TIM_PTP_STEP_HI (R479). -/
def rTIM_PTP_STEP_HI : Nat := 0x110002c
/-- TIM_EVENT (R539). -/
def rTIM_EVENT : Nat := 0x1100040
/-- TIM_EVENT_MASK (R539). -/
def rTIM_EVENT_MASK : Nat := 0x1100044
/-- TIM_LOG_SEL (R485). -/
def rTIM_LOG_SEL : Nat := 0x1100050
/-- TIM_LOG_STATUS (R480). -/
def rTIM_LOG_STATUS : Nat := 0x1100054
/-- TIM_LOG_VALID (R485). -/
def rTIM_LOG_VALID : Nat := 0x1100058
/-- TIM_LOG_DATA (R485). -/
def rTIM_LOG_DATA (n : Nat) : Nat := 0x1100060 + 4 * n
/-- TIM_TELEM_CFG (R483). -/
def rTIM_TELEM_CFG : Nat := 0x11000b0
/-- TIM_TELEM_BASE_LO (R483). -/
def rTIM_TELEM_BASE_LO : Nat := 0x11000b4
/-- TIM_TELEM_BASE_HI (R483). -/
def rTIM_TELEM_BASE_HI : Nat := 0x11000b8
/-- TIM_TELEM_PROD (R483). -/
def rTIM_TELEM_PROD : Nat := 0x11000bc
/-- TIM_TELEM_CONS (R483). -/
def rTIM_TELEM_CONS : Nat := 0x11000c0
/-- ALP_STATUS (R41). -/
def rALP_STATUS : Nat := 0x1200000
/-- ALP_SOURCES (R45). -/
def rALP_SOURCES : Nat := 0x1200004
/-- ALP_EVENT (R539). -/
def rALP_EVENT : Nat := 0x1200008
/-- ALP_EVENT_MASK (R539). -/
def rALP_EVENT_MASK : Nat := 0x120000c
/-- ALP_DRILL_CTL (R65). -/
def rALP_DRILL_CTL : Nat := 0x1200010
/-- ALP_HOLD_REMAIN (R43). -/
def rALP_HOLD_REMAIN : Nat := 0x1200014
/-- ALP_SHED_CFG (R61). -/
def rALP_SHED_CFG : Nat := 0x1200018
/-- ALP_POLICY (R49). -/
def rALP_POLICY : Nat := 0x120001c
/-- ALP_ENTRY_TIME (R58). -/
def rALP_ENTRY_TIME : Nat := 0x1200020
/-- ALP_ENTRY_LAT (R58). -/
def rALP_ENTRY_LAT : Nat := 0x1200028
/-- ALP_LAST_REJECT (R54). -/
def rALP_LAST_REJECT : Nat := 0x120002c
/-- ALP_MSG_ETYPE (R51). -/
def rALP_MSG_ETYPE : Nat := 0x1200050
/-- CRT_STATUS (R405). -/
def rCRT_STATUS : Nat := 0x1300000
/-- CRT_DEG_CAUSE (R405). -/
def rCRT_DEG_CAUSE : Nat := 0x1300004
/-- CRT_BOOT_COUNT (R400). -/
def rCRT_BOOT_COUNT : Nat := 0x1300008
/-- CRT_SVN (R400). -/
def rCRT_SVN : Nat := 0x130000c
/-- CRT_TAMPER_CFG (R415). -/
def rCRT_TAMPER_CFG : Nat := 0x1300010
/-- CRT_TAMPER_STATUS (R415). -/
def rCRT_TAMPER_STATUS : Nat := 0x1300014
/-- CRT_KEYOP (R412). -/
def rCRT_KEYOP : Nat := 0x1300018
/-- CRT_KEYOP_GEN (R412). -/
def rCRT_KEYOP_GEN : Nat := 0x130001c
/-- CRT_RESTART (R397). -/
def rCRT_RESTART : Nat := 0x1300020
/-- CRT_EVENT (R539). -/
def rCRT_EVENT : Nat := 0x1300040
/-- CRT_EVENT_MASK (R539). -/
def rCRT_EVENT_MASK : Nat := 0x1300044

/-- How a register answers a plain write. -/
structure RegDesc where
  /-- offset of the first copy in BAR0 -/
  off : Nat
  /-- copies -/
  count : Nat
  /-- distance between copies -/
  stride : Nat
  /-- one copy per view (R500) -/
  perView : Bool
  /-- value after reset -/
  reset : Nat
  /-- RW bits -/
  rw : Nat
  /-- W1C bits -/
  w1c : Nat
  /-- RWL bits (R9) -/
  rwl : Nat
  /-- host may write, service may write (R35, R499) -/
  who : Bool × Bool
  /-- fields with reserved encodings: low bit, width, admitted ranges (R7) -/
  legal : List (Nat × Nat × List (Nat × Nat))
deriving DecidableEq, Repr

/-- Registers of the HEP window. -/
def regsHEP : List RegDesc := [
  ⟨0x0, 1, 4, false, 0x0, 0x0, 0x0, 0x0, (true, true), []⟩,
  ⟨0x4, 1, 4, false, 0x0, 0x0, 0x0, 0x0, (true, true), []⟩,
  ⟨0x10, 1, 4, true, 0x0, 0x1fff, 0x0, 0x0, (true, true), [(0, 13, [(0, 4096)])]⟩,
  ⟨0x14, 1, 4, false, 0x0, 0x0, 0x0, 0x0, (true, true), []⟩,
  ⟨0x20, 1, 4, false, 0x0, 0x0, 0xff, 0x0, (true, true), []⟩,
  ⟨0x24, 1, 4, false, 0xff, 0x7ff00ff, 0x0, 0x0, (true, true), []⟩,
  ⟨0x28, 1, 4, false, 0x0, 0x0, 0x0, 0x0, (true, true), []⟩,
  ⟨0x40, 1, 4, true, 0x0, 0x3f, 0x0, 0x0, (true, true), []⟩,
  ⟨0x44, 1, 4, false, 0x0, 0x0, 0x0, 0x0, (true, true), []⟩]

/-- Registers of the VFM window. -/
def regsVFM : List RegDesc := [
  ⟨0x100000, 1, 4, false, 0x0, 0x0, 0x0, 0x0, (true, true), []⟩,
  ⟨0x100010, 1, 4, true, 0x0, 0x33f1fff, 0x0, 0x0, (true, true), [(24, 2, [(0, 2)])]⟩,
  ⟨0x100014, 1, 4, true, 0x0, 0x0, 0x0, 0x0, (true, true), []⟩,
  ⟨0x100020, 16, 4, true, 0x0, 0xffffffff, 0x0, 0x0, (true, true), []⟩,
  ⟨0x100080, 1, 4, false, 0x0, 0x1fff, 0x0, 0x0, (true, true), []⟩,
  ⟨0x100084, 1, 4, false, 0x3e8, 0x3fff, 0x0, 0x0, (true, true), [(0, 14, [(1, 10000)])]⟩,
  ⟨0x100090, 1, 4, false, 0x0, 0x0, 0x7, 0x0, (true, true), []⟩,
  ⟨0x100094, 1, 4, false, 0x7, 0x7ff0007, 0x0, 0x0, (true, true), []⟩,
  ⟨0x1000a0, 1, 4, false, 0x0, 0x0, 0x0, 0x0, (true, true), []⟩,
  ⟨0x1000a4, 1, 4, false, 0x0, 0x0, 0x0, 0x0, (true, true), []⟩,
  ⟨0x1000a8, 1, 4, false, 0x0, 0x0, 0x0, 0x0, (true, true), []⟩]

/-- Registers of the WQM window. -/
def regsWQM : List RegDesc := [
  ⟨0x200000, 1, 4, false, 0x0, 0x0, 0x0, 0x0, (true, true), []⟩,
  ⟨0x200010, 1, 4, false, 0x0, 0xffff, 0x0, 0x0, (true, true), []⟩,
  ⟨0x200014, 1, 4, false, 0x0, 0x0, 0x0, 0x0, (true, true), []⟩,
  ⟨0x200018, 1, 4, false, 0x0, 0x0, 0x0, 0x0, (true, true), []⟩,
  ⟨0x20001c, 1, 4, false, 0x0, 0x0, 0x0, 0x0, (true, true), []⟩,
  ⟨0x200030, 1, 4, false, 0x0, 0x7ff0ff1, 0x0, 0x0, (true, false), []⟩,
  ⟨0x200038, 1, 4, false, 0x0, 0xfffff000, 0x0, 0x0, (true, false), []⟩,
  ⟨0x20003c, 1, 4, false, 0x0, 0xffffffff, 0x0, 0x0, (true, false), []⟩,
  ⟨0x200040, 1, 4, false, 0x0, 0xfffff000, 0x0, 0x0, (true, false), []⟩,
  ⟨0x200044, 1, 4, false, 0x0, 0xffffffff, 0x0, 0x0, (true, false), []⟩,
  ⟨0x200050, 1, 4, false, 0x0, 0x7ff0ff1, 0x0, 0x0, (false, true), []⟩,
  ⟨0x200058, 1, 4, false, 0x0, 0xfffff000, 0x0, 0x0, (false, true), []⟩,
  ⟨0x20005c, 1, 4, false, 0x0, 0xffffffff, 0x0, 0x0, (false, true), []⟩,
  ⟨0x200060, 1, 4, false, 0x0, 0xfffff000, 0x0, 0x0, (false, true), []⟩,
  ⟨0x200064, 1, 4, false, 0x0, 0xffffffff, 0x0, 0x0, (false, true), []⟩,
  ⟨0x200068, 1, 4, false, 0x0, 0xffffffff, 0x0, 0x0, (false, true), []⟩,
  ⟨0x20006c, 1, 4, false, 0x0, 0xffffffff, 0x0, 0x0, (false, true), []⟩,
  ⟨0x200080, 1, 4, false, 0x0, 0x0, 0x7, 0x0, (true, true), []⟩,
  ⟨0x200084, 1, 4, false, 0x7, 0x7ff0007, 0x0, 0x0, (true, true), []⟩]

/-- Registers of the DMA window. -/
def regsDMA : List RegDesc := [
  ⟨0x300000, 1, 4, false, 0x0, 0x0, 0x0, 0x0, (true, true), []⟩,
  ⟨0x300004, 1, 4, false, 0x0, 0x0, 0x0, 0x1fff, (true, true), [(0, 13, [(0, 4096)])]⟩,
  ⟨0x300010, 1, 4, true, 0x0, 0x1ff, 0x0, 0x0, (true, true), []⟩,
  ⟨0x300014, 1, 4, false, 0x0, 0x0, 0x0, 0x0, (true, true), []⟩,
  ⟨0x300018, 1, 4, false, 0x0, 0x0, 0x0, 0x0, (true, true), []⟩,
  ⟨0x30001c, 1, 4, false, 0x0, 0x0, 0x0, 0x0, (true, true), []⟩,
  ⟨0x300020, 1, 4, false, 0x0, 0x0, 0x0, 0x0, (true, true), []⟩,
  ⟨0x300024, 1, 4, false, 0x0, 0x0, 0x0, 0x0, (true, true), []⟩,
  ⟨0x300028, 1, 4, false, 0x0, 0x0, 0x0, 0x0, (true, true), []⟩,
  ⟨0x30002c, 1, 4, false, 0x0, 0x0, 0x0, 0x0, (true, true), []⟩,
  ⟨0x300030, 1, 4, false, 0x0, 0x0, 0x0, 0x0, (true, true), []⟩,
  ⟨0x300040, 8, 8, false, 0x0, 0x0, 0x0, 0x0, (true, true), []⟩,
  ⟨0x300044, 8, 8, false, 0x0, 0x0, 0x0, 0x0, (true, true), []⟩,
  ⟨0x300080, 4, 4, false, 0x0, 0x0, 0x0, 0x0, (true, true), []⟩,
  ⟨0x300100, 1, 4, false, 0x0, 0x0, 0x0, 0x0, (true, true), []⟩,
  ⟨0x300104, 1, 4, true, 0x0, 0xff, 0x0, 0x0, (true, true), []⟩,
  ⟨0x300108, 1, 4, false, 0x0, 0x0, 0x0, 0x0, (true, true), []⟩,
  ⟨0x300110, 1, 4, true, 0x0, 0x1fff, 0x0, 0x0, (true, true), []⟩,
  ⟨0x300114, 1, 4, true, 0x0, 0xffffffff, 0x0, 0x0, (true, true), []⟩,
  ⟨0x300118, 1, 4, true, 0x0, 0xffffffff, 0x0, 0x0, (true, true), []⟩,
  ⟨0x300200, 32, 4, false, 0xf4240, 0xbfffffff, 0x0, 0x0, (true, true), [(0, 30, [(1000, 1000000000)])]⟩,
  ⟨0x300300, 1, 4, false, 0x0, 0x0, 0xf, 0x0, (true, true), []⟩,
  ⟨0x300304, 1, 4, false, 0xf, 0x7ff000f, 0x0, 0x0, (true, true), []⟩,
  ⟨0x300310, 4, 4, false, 0x0, 0x0, 0xffffffff, 0x0, (true, true), []⟩,
  ⟨0x300320, 4, 4, false, 0x0, 0x0, 0x0, 0x0, (true, true), []⟩,
  ⟨0x300330, 4, 4, false, 0x0, 0x0, 0xffffffff, 0x0, (true, true), []⟩]

/-- Registers of the POOL window. -/
def regsPOOL : List RegDesc := [
  ⟨0x400000, 1, 4, false, 0x0, 0x0, 0x0, 0x0, (true, true), []⟩,
  ⟨0x400004, 1, 4, false, 0x1f4, 0xf3fff, 0x0, 0x0, (true, true), [(0, 14, [(0, 10000)])]⟩,
  ⟨0x400040, 16, 4, false, 0x0, 0x0, 0x0, 0x0, (true, true), []⟩,
  ⟨0x400100, 16, 32, false, 0x0, 0x0, 0x0, 0x0, (true, true), []⟩,
  ⟨0x400104, 16, 32, false, 0x0, 0x0, 0x0, 0x0, (true, true), []⟩,
  ⟨0x400108, 16, 32, false, 0x0, 0x0, 0x0, 0x0, (true, true), []⟩,
  ⟨0x40010c, 16, 32, false, 0x0, 0x0, 0x0, 0x0, (true, true), []⟩,
  ⟨0x400110, 16, 32, false, 0x0, 0x0, 0x0, 0x0, (true, true), []⟩,
  ⟨0x400114, 16, 32, false, 0x0, 0x0, 0x0, 0x0, (true, true), []⟩,
  ⟨0x400118, 16, 32, false, 0x0, 0x0, 0x0, 0x0, (true, true), []⟩,
  ⟨0x40011c, 16, 32, false, 0x0, 0x0, 0x0, 0x0, (true, true), []⟩,
  ⟨0x400400, 1, 4, true, 0x0, 0x1fff, 0x0, 0x0, (true, true), []⟩,
  ⟨0x400404, 1, 4, true, 0x0, 0x0, 0x0, 0x0, (true, true), []⟩,
  ⟨0x400410, 6, 4, true, 0x0, 0xffffffff, 0x0, 0x0, (true, true), []⟩,
  ⟨0x400500, 1, 4, false, 0x0, 0x0, 0x3, 0x0, (true, true), []⟩,
  ⟨0x400504, 1, 4, false, 0x3, 0x7ff0003, 0x0, 0x0, (true, true), []⟩]

/-- Registers of the SWC window. -/
def regsSWC : List RegDesc := [
  ⟨0x500000, 1, 4, false, 0x0, 0x0, 0x0, 0x0, (true, true), []⟩,
  ⟨0x500004, 1, 4, false, 0x200, 0x0, 0x0, 0xffff, (true, true), [(0, 16, [(0, 8192)])]⟩,
  ⟨0x500008, 1, 4, false, 0x0, 0x0, 0x0, 0x0, (true, true), []⟩,
  ⟨0x500010, 7, 4, false, 0x8000, 0x7ffff, 0x0, 0x0, (true, true), [(0, 19, [(64, 393216)])]⟩,
  ⟨0x500030, 7, 4, false, 0x2000, 0x7ffff, 0x0, 0x0, (true, true), [(0, 19, [(64, 65536)])]⟩,
  ⟨0x500050, 1, 4, false, 0x4003f00, 0xffff3f00, 0x0, 0x3f, (true, true), [(0, 6, [(0, 32)]), (16, 16, [(64, 32768)])]⟩,
  ⟨0x500054, 1, 4, false, 0x0, 0x0, 0x0, 0x0, (true, true), []⟩,
  ⟨0x500060, 1, 4, true, 0x0, 0xfffff, 0x0, 0x0, (true, true), [(16, 4, [(0, 1)])]⟩,
  ⟨0x500064, 1, 4, true, 0x0, 0x0, 0x0, 0x0, (true, true), []⟩,
  ⟨0x500068, 1, 4, true, 0x0, 0xffffffff, 0x0, 0x0, (true, true), []⟩,
  ⟨0x50006c, 1, 4, true, 0x0, 0xffffffff, 0x0, 0x0, (true, true), []⟩,
  ⟨0x500080, 1, 4, false, 0x0, 0x0, 0xff, 0x0, (true, true), []⟩,
  ⟨0x500084, 1, 4, false, 0xff, 0x7ff00ff, 0x0, 0x0, (true, true), []⟩,
  ⟨0x500090, 1, 4, false, 0xa04, 0x1f1f, 0x0, 0x0, (true, true), [(2, 3, [(0, 4)]), (8, 5, [(6, 20)])]⟩,
  ⟨0x500094, 1, 4, false, 0x0, 0xfffff000, 0x0, 0x0, (true, true), []⟩,
  ⟨0x500098, 1, 4, false, 0x0, 0xffffffff, 0x0, 0x0, (true, true), []⟩,
  ⟨0x5000a0, 1, 4, false, 0x0, 0x0, 0x0, 0x0, (true, true), []⟩,
  ⟨0x5000a4, 1, 4, false, 0x0, 0xffffffff, 0x0, 0x0, (true, true), []⟩]

/-- Registers of the FLP window. -/
def regsFLP : List RegDesc := [
  ⟨0x600000, 1, 4, false, 0x0, 0x0, 0x0, 0x0, (true, true), []⟩,
  ⟨0x600010, 1, 4, true, 0x0, 0xfffffff, 0x0, 0x0, (true, true), [(24, 4, [(0, 10)])]⟩,
  ⟨0x600014, 1, 4, true, 0x0, 0x0, 0x0, 0x0, (true, true), []⟩,
  ⟨0x600018, 1, 4, true, 0x0, 0x0, 0x0, 0x0, (true, true), []⟩,
  ⟨0x600020, 1, 4, false, 0x3c0012c, 0xffffffff, 0x0, 0x0, (true, true), [(0, 20, [(1, 1000000)]), (20, 11, [(1, 1440)])]⟩,
  ⟨0x600024, 1, 4, false, 0x0, 0x0, 0x0, 0x0, (true, true), []⟩,
  ⟨0x600028, 1, 4, false, 0x17c112b5, 0x0, 0x0, 0xffffffff, (true, true), []⟩,
  ⟨0x600030, 1, 4, false, 0x0, 0x3f, 0x0, 0x0, (true, true), []⟩,
  ⟨0x600038, 1, 4, false, 0x0, 0x0, 0x0, 0x0, (true, true), []⟩,
  ⟨0x60003c, 1, 4, false, 0x0, 0x0, 0x0, 0x0, (true, true), []⟩,
  ⟨0x600040, 1, 4, false, 0x0, 0x0, 0x1f, 0x0, (true, true), []⟩,
  ⟨0x600044, 1, 4, false, 0x1f, 0x7ff001f, 0x0, 0x0, (true, true), []⟩,
  ⟨0x600100, 64, 4, true, 0x0, 0xffffffff, 0x0, 0x0, (true, true), []⟩]

/-- Registers of the TMG window. -/
def regsTMG : List RegDesc := [
  ⟨0x700000, 1, 4, false, 0x0, 0x0, 0x0, 0x0, (true, true), []⟩,
  ⟨0x700004, 1, 4, false, 0x800, 0x0, 0x0, 0xffff, (true, true), [(0, 16, [(256, 16384)])]⟩,
  ⟨0x700008, 1, 4, false, 0x8040201, 0xffffffff, 0x0, 0x0, (true, true), [(0, 8, [(1, 255)]), (8, 8, [(1, 255)]), (16, 8, [(1, 255)]), (24, 8, [(1, 255)])]⟩,
  ⟨0x70000c, 1, 4, false, 0x2010, 0xffff, 0x0, 0x0, (true, true), [(0, 8, [(1, 255)]), (8, 8, [(1, 255)])]⟩,
  ⟨0x700010, 1, 4, true, 0x0, 0xfffff, 0x0, 0x0, (true, true), []⟩,
  ⟨0x700014, 1, 4, true, 0x0, 0x0, 0x0, 0x0, (true, true), []⟩,
  ⟨0x700020, 8, 4, true, 0x0, 0xffffffff, 0x0, 0x0, (true, true), []⟩,
  ⟨0x700040, 1, 4, false, 0x0, 0x0, 0x3, 0x0, (true, true), []⟩,
  ⟨0x700044, 1, 4, false, 0x3, 0x7ff0003, 0x0, 0x0, (true, true), []⟩]

/-- Registers of the CPH window. -/
def regsCPH : List RegDesc := [
  ⟨0x800000, 1, 4, false, 0x0, 0x0, 0x0, 0x0, (true, true), []⟩,
  ⟨0x800010, 8, 4, false, 0x0, 0x0, 0x0, 0x0, (true, true), []⟩,
  ⟨0x800030, 8, 4, false, 0x0, 0x0, 0x0, 0x0, (true, true), []⟩,
  ⟨0x800060, 1, 4, true, 0x0, 0xfffff, 0x0, 0x0, (true, true), [(16, 4, [(0, 1)])]⟩,
  ⟨0x800064, 1, 4, true, 0x0, 0x0, 0x0, 0x0, (true, true), []⟩,
  ⟨0x800070, 8, 4, true, 0x0, 0x0, 0x0, 0x0, (true, true), []⟩,
  ⟨0x800100, 1, 4, false, 0x0, 0x0, 0x1ff, 0x0, (true, true), []⟩,
  ⟨0x800104, 1, 4, false, 0x1ff, 0x7ff01ff, 0x0, 0x0, (true, true), []⟩,
  ⟨0x800108, 1, 4, false, 0x0, 0x0, 0x0, 0x0, (true, true), []⟩]

/-- Registers of the STR window. -/
def regsSTR : List RegDesc := [
  ⟨0x900000, 1, 4, false, 0x0, 0x0, 0x0, 0x0, (true, true), []⟩,
  ⟨0x900004, 1, 4, false, 0x0, 0x0, 0x0, 0x0, (true, true), []⟩,
  ⟨0x900008, 1, 4, false, 0x0, 0x0, 0x0, 0x0, (true, true), []⟩,
  ⟨0x90000c, 1, 4, false, 0x0, 0x0, 0x0, 0x0, (true, true), []⟩,
  ⟨0x900010, 1, 4, false, 0x0, 0x0, 0x0, 0x0, (true, true), []⟩,
  ⟨0x900014, 1, 4, false, 0x0, 0x0, 0x0, 0x0, (true, true), []⟩,
  ⟨0x900018, 1, 4, false, 0x0, 0x0, 0x0, 0x0, (true, true), []⟩,
  ⟨0x90001c, 1, 4, false, 0x0, 0x0, 0x0, 0x0, (true, true), []⟩,
  ⟨0x900020, 1, 4, false, 0x0, 0x0, 0x0, 0x0, (true, true), []⟩,
  ⟨0x900024, 1, 4, false, 0x0, 0x0, 0x0, 0x0, (true, true), []⟩,
  ⟨0x900028, 1, 4, false, 0x0, 0x0, 0x0, 0x0, (true, true), []⟩,
  ⟨0x90002c, 1, 4, false, 0x0, 0x0, 0x0, 0x0, (true, true), []⟩,
  ⟨0x900030, 1, 4, false, 0x8011e, 0xfffff, 0x0, 0x0, (true, true), [(0, 8, [(1, 255)]), (8, 8, [(1, 200)]), (16, 4, [(3, 15)])]⟩,
  ⟨0x900034, 1, 4, false, 0x0, 0x0, 0x0, 0x0, (true, true), []⟩,
  ⟨0x900040, 1, 4, true, 0x0, 0x3fffffff, 0x0, 0x0, (true, true), []⟩,
  ⟨0x900044, 1, 4, true, 0x0, 0xf0, 0x0, 0x0, (true, true), []⟩,
  ⟨0x900050, 16, 4, true, 0x0, 0xffffffff, 0x0, 0x0, (true, true), []⟩,
  ⟨0x900100, 1, 4, false, 0x0, 0x0, 0x3ff, 0x0, (true, true), []⟩,
  ⟨0x900104, 1, 4, false, 0x3ff, 0x7ff03ff, 0x0, 0x0, (true, true), []⟩]

/-- Registers of the ETH window. -/
def regsETH : List RegDesc := [
  ⟨0xa00000, 1, 4, false, 0x0, 0x0, 0x0, 0x0, (true, true), []⟩,
  ⟨0xa00010, 4, 4, false, 0x0, 0x0, 0x0, 0x0, (true, true), []⟩,
  ⟨0xa00040, 1, 4, true, 0x0, 0xff, 0x0, 0x0, (true, true), []⟩,
  ⟨0xa00044, 1, 4, true, 0x0, 0xffffffff, 0x0, 0x0, (true, true), []⟩,
  ⟨0xa00048, 1, 4, true, 0x0, 0x1ffff, 0x0, 0x0, (true, true), []⟩,
  ⟨0xa00060, 1, 4, false, 0x2, 0x3, 0x0, 0x0, (true, true), []⟩,
  ⟨0xa00064, 1, 4, false, 0x0, 0x0, 0x3, 0x0, (true, true), []⟩,
  ⟨0xa00080, 1, 4, false, 0x0, 0x0, 0x3f, 0x0, (true, true), []⟩,
  ⟨0xa00084, 1, 4, false, 0x3f, 0x7ff003f, 0x0, 0x0, (true, true), []⟩,
  ⟨0xa01000, 16, 512, false, 0x0, 0x0, 0x0, 0x0, (true, true), []⟩,
  ⟨0xa01004, 16, 512, false, 0x2328, 0x0, 0x0, 0x3fff, (true, true), [(0, 14, [(1280, 9216)])]⟩,
  ⟨0xa01008, 16, 512, false, 0x7d0, 0x1ffff, 0x0, 0x0, (true, true), [(0, 17, [(100, 100000)])]⟩,
  ⟨0xa0100c, 16, 512, false, 0x100000, 0xffff00, 0x0, 0x7f, (true, true), [(4, 3, [(0, 5)]), (8, 16, [(64, 65535)])]⟩,
  ⟨0xa01010, 16, 512, false, 0x1, 0x7, 0x0, 0x0, (true, true), []⟩,
  ⟨0xa01018, 16, 512, false, 0x0, 0x0, 0x0, 0x0, (true, true), []⟩,
  ⟨0xa0101c, 16, 512, false, 0x0, 0x0, 0x0, 0x0, (true, true), []⟩,
  ⟨0xa01020, 16, 512, false, 0x0, 0x0, 0x0, 0x0, (true, true), []⟩,
  ⟨0xa01024, 16, 512, false, 0x0, 0x0, 0x0, 0x0, (true, true), []⟩]

/-- Registers of the LOOP window. -/
def regsLOOP : List RegDesc := [
  ⟨0xb00000, 4, 256, false, 0x0, 0x0, 0x0, 0x0, (true, true), []⟩,
  ⟨0xb00004, 4, 256, false, 0x0, 0x0, 0x0, 0x0, (true, true), []⟩,
  ⟨0xb00008, 4, 256, false, 0x0, 0x0, 0x0, 0x0, (true, true), []⟩,
  ⟨0xb0000c, 4, 256, false, 0x0, 0x0, 0x0, 0x0, (true, true), []⟩,
  ⟨0xb00010, 4, 256, false, 0x0, 0x0, 0x0, 0x0, (true, true), []⟩,
  ⟨0xb00014, 4, 256, false, 0x0, 0x0, 0x0, 0x0, (true, true), []⟩,
  ⟨0xb00018, 4, 256, false, 0x0, 0x0, 0x0, 0x0, (true, true), []⟩,
  ⟨0xb0001c, 4, 256, false, 0x0, 0x0, 0x0, 0x0, (true, true), []⟩,
  ⟨0xb00020, 4, 256, false, 0x0, 0x0, 0x0, 0x0, (true, true), []⟩,
  ⟨0xb00024, 4, 256, false, 0x0, 0x0, 0x0, 0x0, (true, true), []⟩,
  ⟨0xb00028, 4, 256, false, 0x0, 0x0, 0x0, 0x0, (true, true), []⟩,
  ⟨0xb0002c, 4, 256, false, 0x0, 0x1e, 0x80000000, 0x0, (true, true), []⟩,
  ⟨0xb00030, 4, 256, false, 0x0, 0x0, 0x0, 0x0, (true, true), []⟩,
  ⟨0xb00034, 4, 256, false, 0x0, 0x800083ff, 0x0, 0x0, (true, true), []⟩,
  ⟨0xb00038, 4, 256, false, 0x0, 0x800083ff, 0x0, 0x0, (true, true), []⟩,
  ⟨0xb0003c, 4, 256, false, 0x0, 0x800083ff, 0x0, 0x0, (true, true), []⟩,
  ⟨0xb00040, 4, 256, false, 0x0, 0x800083ff, 0x0, 0x0, (true, true), []⟩,
  ⟨0xb00044, 4, 256, false, 0x0, 0x800083ff, 0x0, 0x0, (true, true), []⟩,
  ⟨0xb00048, 4, 256, false, 0x0, 0x800083ff, 0x0, 0x0, (true, true), []⟩,
  ⟨0xb0004c, 4, 256, false, 0x0, 0x800083ff, 0x0, 0x0, (true, true), []⟩,
  ⟨0xb00050, 4, 256, true, 0x0, 0x70fff, 0x0, 0x0, (true, true), [(16, 3, [(0, 4)])]⟩,
  ⟨0xb00054, 4, 256, true, 0x0, 0x0, 0x0, 0x0, (true, true), []⟩,
  ⟨0xb00060, 4, 256, true, 0x0, 0xffffffff, 0x0, 0x0, (true, true), []⟩,
  ⟨0xb00064, 4, 256, true, 0x0, 0xffffffff, 0x0, 0x0, (true, true), []⟩,
  ⟨0xb00068, 4, 256, true, 0x0, 0xffffffff, 0x0, 0x0, (true, true), []⟩,
  ⟨0xb0006c, 4, 256, true, 0x0, 0xffffffff, 0x0, 0x0, (true, true), []⟩,
  ⟨0xb00070, 4, 256, true, 0x0, 0xffffffff, 0x0, 0x0, (true, true), []⟩,
  ⟨0xb00074, 4, 256, true, 0x0, 0xffffffff, 0x0, 0x0, (true, true), []⟩,
  ⟨0xb00078, 4, 256, true, 0x0, 0xffffffff, 0x0, 0x0, (true, true), []⟩,
  ⟨0xb0007c, 4, 256, true, 0x0, 0xffffffff, 0x0, 0x0, (true, true), []⟩,
  ⟨0xb00080, 4, 256, false, 0x0, 0x0, 0x7ff, 0x0, (true, true), []⟩,
  ⟨0xb00084, 4, 256, false, 0x7ff, 0x7ff07ff, 0x0, 0x0, (true, true), []⟩]

/-- Registers of the CAS window. -/
def regsCAS : List RegDesc := [
  ⟨0xc00000, 1, 4, false, 0x0, 0x0, 0x0, 0x0, (true, true), []⟩,
  ⟨0xc00004, 1, 4, false, 0x0, 0x0, 0x0, 0x0, (true, true), []⟩,
  ⟨0xc00010, 4, 4, false, 0x0, 0x0, 0x0, 0x0, (true, true), []⟩,
  ⟨0xc00020, 1, 4, false, 0x40fa0, 0x7ffff, 0x0, 0x0, (true, true), [(0, 16, [(1000, 65535)]), (16, 3, [(1, 7)])]⟩,
  ⟨0xc00028, 1, 4, false, 0xf, 0x3f0000, 0x0, 0x0, (true, true), []⟩,
  ⟨0xc00030, 1, 4, false, 0x0, 0x0, 0x0, 0x0, (true, true), []⟩,
  ⟨0xc00034, 1, 4, false, 0x0, 0x0, 0x0, 0x0, (true, true), []⟩,
  ⟨0xc00038, 1, 4, false, 0x0, 0x0, 0x0, 0x0, (true, true), []⟩,
  ⟨0xc0003c, 1, 4, false, 0x0, 0x0, 0x0, 0x0, (true, true), []⟩,
  ⟨0xc00040, 1, 4, false, 0x0, 0x0, 0x0, 0x0, (true, true), []⟩,
  ⟨0xc00044, 1, 4, false, 0x0, 0x0, 0x0, 0x0, (true, true), []⟩,
  ⟨0xc00048, 1, 4, false, 0x0, 0x0, 0x0, 0x0, (true, true), []⟩,
  ⟨0xc00060, 1, 4, true, 0x0, 0x3f, 0x0, 0x0, (true, true), []⟩,
  ⟨0xc00064, 1, 4, false, 0x0, 0x0, 0x0, 0x0, (true, true), []⟩,
  ⟨0xc00068, 1, 4, false, 0x0, 0x0, 0x0, 0x0, (true, true), []⟩,
  ⟨0xc0006c, 1, 4, false, 0x0, 0x0, 0x0, 0x0, (true, true), []⟩,
  ⟨0xc00070, 1, 4, false, 0x0, 0x0, 0x0, 0x0, (true, true), []⟩,
  ⟨0xc00080, 1, 4, false, 0x0, 0x0, 0x1ff, 0x0, (true, true), []⟩,
  ⟨0xc00084, 1, 4, false, 0x1ff, 0x7ff01ff, 0x0, 0x0, (true, true), []⟩]

/-- Registers of the SVC window. -/
def regsSVC : List RegDesc := [
  ⟨0xd00000, 1, 4, false, 0x0, 0x0, 0x0, 0x0, (true, true), []⟩,
  ⟨0xd00010, 1, 4, true, 0x0, 0xff, 0x0, 0x0, (true, true), []⟩,
  ⟨0xd00014, 1, 4, false, 0x0, 0x0, 0x0, 0x0, (true, true), []⟩,
  ⟨0xd00018, 1, 4, false, 0x0, 0x0, 0x0, 0x0, (true, true), []⟩,
  ⟨0xd0001c, 1, 4, false, 0x0, 0x0, 0x0, 0x0, (true, true), []⟩,
  ⟨0xd00020, 1, 4, false, 0x0, 0x0, 0x0, 0x0, (true, true), []⟩,
  ⟨0xd00024, 1, 4, false, 0x0, 0x0, 0x0, 0x0, (true, true), []⟩,
  ⟨0xd00028, 1, 4, false, 0x0, 0x0, 0x0, 0x0, (true, true), []⟩,
  ⟨0xd0002c, 1, 4, false, 0x0, 0x0, 0x0, 0x0, (true, true), []⟩,
  ⟨0xd00030, 1, 4, false, 0x0, 0x0, 0x0, 0x0, (true, true), []⟩,
  ⟨0xd00034, 1, 4, false, 0x0, 0x0, 0x0, 0x0, (true, true), []⟩,
  ⟨0xd00038, 1, 4, true, 0x0, 0x1f, 0x0, 0x0, (true, true), []⟩,
  ⟨0xd0003c, 1, 4, false, 0x0, 0x0, 0x0, 0x0, (true, true), []⟩,
  ⟨0xd00040, 1, 4, false, 0x0, 0x0, 0x0, 0x0, (true, true), []⟩,
  ⟨0xd00044, 1, 4, false, 0x0, 0x0, 0x0, 0x0, (true, true), []⟩,
  ⟨0xd00048, 1, 4, false, 0x0, 0x0, 0x0, 0x0, (true, true), []⟩,
  ⟨0xd0004c, 1, 4, false, 0x0, 0x0, 0x0, 0x0, (true, true), []⟩,
  ⟨0xd00050, 1, 4, false, 0x0, 0x0, 0x0, 0x0, (true, true), []⟩,
  ⟨0xd00054, 1, 4, false, 0x0, 0x0, 0x0, 0x0, (true, true), []⟩,
  ⟨0xd00058, 1, 4, false, 0x0, 0x0, 0x0, 0x0, (true, true), []⟩,
  ⟨0xd00060, 1, 4, false, 0x0, 0x0, 0x0, 0x0, (true, true), []⟩,
  ⟨0xd00080, 1, 4, false, 0x0, 0x0, 0x3, 0x0, (true, true), []⟩,
  ⟨0xd00084, 1, 4, false, 0x3, 0x7ff0003, 0x0, 0x0, (true, true), []⟩]

/-- Registers of the MBX window. -/
def regsMBX : List RegDesc := [
  ⟨0xe00000, 40, 32, false, 0x0, 0x0, 0x0, 0x0, (true, true), []⟩,
  ⟨0xe00004, 40, 32, false, 0x0, 0x0, 0x0, 0x0, (true, true), []⟩,
  ⟨0xe00008, 40, 32, false, 0x0, 0x0, 0x0, 0x0, (true, true), []⟩,
  ⟨0xe0000c, 40, 32, false, 0x0, 0x0, 0x0, 0x0, (true, true), []⟩,
  ⟨0xe00010, 40, 32, false, 0x0, 0x0, 0x0, 0x0, (true, true), []⟩,
  ⟨0xe00014, 40, 32, false, 0x0, 0x0, 0x0, 0x0, (true, true), []⟩,
  ⟨0xe00018, 40, 32, false, 0x0, 0x0, 0x0, 0x0, (true, true), []⟩,
  ⟨0xe0001c, 40, 32, false, 0x0, 0x0, 0x0, 0x0, (true, true), []⟩]

/-- Registers of the PCR window. -/
def regsPCR : List RegDesc := [
  ⟨0xf00000, 1, 4, false, 0x0, 0x0, 0x0, 0x0, (true, true), []⟩,
  ⟨0xf00004, 1, 4, false, 0x0, 0x0, 0x0, 0x0, (true, false), []⟩,
  ⟨0xf00008, 1, 4, false, 0x0, 0x0, 0x0, 0x0, (true, true), []⟩,
  ⟨0xf0000c, 1, 4, false, 0x0, 0x0, 0x0, 0x0, (true, false), []⟩,
  ⟨0xf00010, 1, 4, false, 0x0, 0x0, 0x0, 0x0, (true, true), []⟩,
  ⟨0xf00040, 1, 4, false, 0x0, 0x0, 0x3f, 0x0, (true, true), []⟩,
  ⟨0xf00044, 1, 4, false, 0x3f, 0x7ff003f, 0x0, 0x0, (true, true), []⟩,
  ⟨0xf00080, 16, 4, false, 0x0, 0xffffffff, 0x0, 0x0, (true, true), []⟩,
  ⟨0xf00100, 1, 4, true, 0x0, 0x7f, 0x0, 0x0, (true, true), [(0, 7, [(0, 107)])]⟩,
  ⟨0xf00104, 1, 4, false, 0x0, 0x0, 0x0, 0x0, (true, true), []⟩,
  ⟨0xf00800, 1, 4, false, 0x0, 0x0, 0x0, 0x0, (true, true), []⟩,
  ⟨0xf00804, 1, 4, false, 0x0, 0x0, 0x0, 0x0, (true, true), []⟩,
  ⟨0xf00808, 1, 4, false, 0x0, 0xfffff000, 0x0, 0x0, (true, true), []⟩,
  ⟨0xf0080c, 1, 4, false, 0x0, 0xffffffff, 0x0, 0x0, (true, true), []⟩,
  ⟨0xf00810, 1, 4, false, 0x0, 0x7ffffff, 0x0, 0x0, (true, true), [(0, 27, [(4352, 100663296)])]⟩,
  ⟨0xf00814, 1, 4, false, 0x0, 0x0, 0x0, 0x0, (true, true), []⟩,
  ⟨0xf00818, 1, 4, false, 0x0, 0x0, 0x0, 0x0, (true, true), []⟩,
  ⟨0xf0081c, 1, 4, false, 0x0, 0x0, 0x0, 0x0, (true, true), []⟩,
  ⟨0xf00820, 1, 4, false, 0x0, 0x0, 0x0, 0x0, (true, true), []⟩,
  ⟨0xf00828, 1, 4, false, 0x0, 0x0, 0xf, 0x0, (true, true), []⟩,
  ⟨0xf0082c, 1, 4, false, 0xf, 0x7ff000f, 0x0, 0x0, (true, true), []⟩]

/-- Registers of the MEM window. -/
def regsMEM : List RegDesc := [
  ⟨0x1000000, 1, 4, false, 0x0, 0x0, 0x0, 0x0, (true, true), []⟩,
  ⟨0x1000004, 1, 4, false, 0x0, 0x0, 0x0, 0x0, (true, true), []⟩,
  ⟨0x1000008, 1, 4, false, 0x0, 0x0, 0x0, 0x0, (true, true), []⟩,
  ⟨0x100000c, 1, 4, false, 0x0, 0x0, 0x0, 0x0, (true, true), []⟩,
  ⟨0x1000010, 1, 4, false, 0x0, 0x0, 0x0, 0x0, (true, true), []⟩,
  ⟨0x1000014, 1, 4, false, 0x0, 0x0, 0x0, 0x0, (true, true), []⟩,
  ⟨0x1000018, 1, 4, false, 0x0, 0x0, 0x0, 0x0, (true, true), []⟩,
  ⟨0x1000040, 1, 4, false, 0x0, 0x0, 0xf, 0x0, (true, true), []⟩,
  ⟨0x1000044, 1, 4, false, 0xf, 0x7ff000f, 0x0, 0x0, (true, true), []⟩]

/-- Registers of the TIM window. -/
def regsTIM : List RegDesc := [
  ⟨0x1100000, 1, 4, false, 0x0, 0x0, 0x0, 0x0, (true, true), []⟩,
  ⟨0x1100004, 1, 4, false, 0x0, 0x33, 0x0, 0x0, (true, false), [(0, 2, [(0, 2)])]⟩,
  ⟨0x1100008, 1, 4, false, 0x0, 0x0, 0x0, 0x0, (true, true), []⟩,
  ⟨0x110000c, 1, 4, false, 0x0, 0x0, 0x0, 0x0, (true, true), []⟩,
  ⟨0x1100010, 1, 4, false, 0x0, 0x0, 0x0, 0x0, (true, true), []⟩,
  ⟨0x1100014, 1, 4, false, 0x0, 0x0, 0x0, 0x0, (true, true), []⟩,
  ⟨0x1100018, 1, 4, false, 0x0, 0x0, 0x0, 0x0, (true, true), []⟩,
  ⟨0x1100020, 1, 4, false, 0x0, 0xffffffff, 0x0, 0x0, (true, false), []⟩,
  ⟨0x1100028, 1, 4, false, 0x0, 0xffffffff, 0x0, 0x0, (true, false), []⟩,
  ⟨0x110002c, 1, 4, false, 0x0, 0xffffffff, 0x0, 0x0, (true, false), []⟩,
  ⟨0x1100040, 1, 4, false, 0x0, 0x0, 0x1f, 0x0, (true, true), []⟩,
  ⟨0x1100044, 1, 4, false, 0x1f, 0x7ff001f, 0x0, 0x0, (true, true), []⟩,
  ⟨0x1100050, 1, 4, true, 0x0, 0xffff, 0x0, 0x0, (true, true), []⟩,
  ⟨0x1100054, 1, 4, false, 0x0, 0x0, 0x0, 0x0, (true, true), []⟩,
  ⟨0x1100058, 1, 4, true, 0x0, 0x0, 0x0, 0x0, (true, true), []⟩,
  ⟨0x1100060, 16, 4, true, 0x0, 0x0, 0x0, 0x0, (true, true), []⟩,
  ⟨0x11000b0, 1, 4, false, 0x640600, 0x3ff0f01, 0x0, 0x0, (false, true), [(8, 4, [(6, 15)]), (16, 10, [(1, 1000)])]⟩,
  ⟨0x11000b4, 1, 4, false, 0x0, 0xffffffc0, 0x0, 0x0, (false, true), []⟩,
  ⟨0x11000b8, 1, 4, false, 0x0, 0xffffffff, 0x0, 0x0, (false, true), []⟩,
  ⟨0x11000bc, 1, 4, false, 0x0, 0x0, 0x0, 0x0, (true, true), []⟩,
  ⟨0x11000c0, 1, 4, false, 0x0, 0xffffffff, 0x0, 0x0, (false, true), []⟩]

/-- Registers of the ALP window. -/
def regsALP : List RegDesc := [
  ⟨0x1200000, 1, 4, false, 0x0, 0x0, 0x0, 0x0, (true, true), []⟩,
  ⟨0x1200004, 1, 4, false, 0x0, 0x0, 0x0, 0x0, (true, true), []⟩,
  ⟨0x1200008, 1, 4, false, 0x0, 0x0, 0x3ff, 0x0, (true, true), []⟩,
  ⟨0x120000c, 1, 4, false, 0x3ff, 0x7ff03ff, 0x0, 0x0, (true, true), []⟩,
  ⟨0x1200010, 1, 4, false, 0x2580000, 0xfff0000, 0x0, 0x0, (true, true), [(16, 12, [(10, 3600)])]⟩,
  ⟨0x1200014, 1, 4, false, 0x0, 0x0, 0x0, 0x0, (true, true), []⟩,
  ⟨0x1200018, 1, 4, false, 0x1, 0x3, 0x0, 0x0, (true, true), []⟩,
  ⟨0x120001c, 1, 4, false, 0x0, 0x0, 0x0, 0x0, (true, true), []⟩,
  ⟨0x1200020, 1, 4, false, 0x0, 0x0, 0x0, 0x0, (true, true), []⟩,
  ⟨0x1200024, 1, 4, false, 0x0, 0x0, 0x0, 0x0, (true, true), []⟩,
  ⟨0x1200028, 1, 4, false, 0x0, 0x0, 0x0, 0x0, (true, true), []⟩,
  ⟨0x120002c, 1, 4, false, 0x0, 0x0, 0x0, 0x0, (true, true), []⟩,
  ⟨0x1200050, 1, 4, false, 0x0, 0x0, 0x0, 0x0, (true, true), []⟩]

/-- Registers of the CRT window. -/
def regsCRT : List RegDesc := [
  ⟨0x1300000, 1, 4, false, 0x0, 0x0, 0x0, 0x0, (true, true), []⟩,
  ⟨0x1300004, 1, 4, false, 0x0, 0x0, 0x0, 0x0, (true, true), []⟩,
  ⟨0x1300008, 1, 4, false, 0x0, 0x0, 0x0, 0x0, (true, true), []⟩,
  ⟨0x130000c, 1, 4, false, 0x0, 0x0, 0x0, 0x0, (true, true), []⟩,
  ⟨0x1300010, 1, 4, false, 0x0, 0x0, 0x0, 0x0, (true, true), []⟩,
  ⟨0x1300014, 1, 4, false, 0x0, 0x0, 0x0, 0x0, (true, true), []⟩,
  ⟨0x1300018, 1, 4, false, 0x0, 0x0, 0x0, 0x0, (true, true), []⟩,
  ⟨0x130001c, 1, 4, false, 0x0, 0x0, 0x0, 0x0, (true, true), []⟩,
  ⟨0x1300020, 1, 4, false, 0x0, 0x0, 0x0, 0x0, (true, true), []⟩,
  ⟨0x1300040, 1, 4, false, 0x0, 0x0, 0x7f, 0x0, (true, false), []⟩,
  ⟨0x1300044, 1, 4, false, 0x7f, 0x7ff007f, 0x0, 0x0, (true, false), []⟩]

/-- Every register of R506. -/
def allRegs : List RegDesc :=
  regsHEP ++ regsVFM ++ regsWQM ++ regsDMA ++ regsPOOL ++ regsSWC ++ regsFLP ++ regsTMG ++ regsCPH ++ regsSTR ++ regsETH ++ regsLOOP ++ regsCAS ++ regsSVC ++ regsMBX ++ regsPCR ++ regsMEM ++ regsTIM ++ regsALP ++ regsCRT

/-- The registers of window `w` (R498: the offset shifted right by 20). -/
def windowRegs : Nat → List RegDesc
  | 0 => regsHEP
  | 1 => regsVFM
  | 2 => regsWQM
  | 3 => regsDMA
  | 4 => regsPOOL
  | 5 => regsSWC
  | 6 => regsFLP
  | 7 => regsTMG
  | 8 => regsCPH
  | 9 => regsSTR
  | 10 => regsETH
  | 11 => regsLOOP
  | 12 => regsCAS
  | 13 => regsSVC
  | 14 => regsMBX
  | 15 => regsPCR
  | 16 => regsMEM
  | 17 => regsTIM
  | 18 => regsALP
  | 19 => regsCRT
  | _ => []

/-- Whether offset `o` is a copy of the register `d`. -/
def RegDesc.covers (d : RegDesc) (o : Nat) : Bool :=
  decide (d.off ≤ o) && decide (o < d.off + d.stride * d.count) && decide ((o - d.off) % d.stride = 0)

/-- The register at offset `o`, if there is one. -/
def regAt (o : Nat) : Option RegDesc := (windowRegs (o >>> 20)).find? (fun d => d.covers o)

/-- The value a register reads after reset, by offset; 0 where there is none. -/
def regReset (o : Nat) : Word :=
  match regAt (o % 2 ^ 32) with
  | some d => BitVec.ofNat 32 d.reset
  | none => 0

/-- SWC CELLS_IN: Cells admitted at this input. -/
def cSWC_CELLS_IN (n : Nat) : Nat := 0x501000 + 128 * n
/-- SWC CELLS_OUT: Cells delivered to this output. -/
def cSWC_CELLS_OUT (n : Nat) : Nat := 0x501008 + 128 * n
/-- SWC FRAMES_IN: Frames admitted at this input. -/
def cSWC_FRAMES_IN (n : Nat) : Nat := 0x501010 + 128 * n
/-- SWC DROP_TAIL: Frames tail-dropped at this input. -/
def cSWC_DROP_TAIL (n : Nat) : Nat := 0x501018 + 128 * n
/-- SWC SPILL_CELLS: Cells of this input written to HBM. -/
def cSWC_SPILL_CELLS (n : Nat) : Nat := 0x501020 + 128 * n
/-- SWC LS_FRAMES: LS frames delivered to this output. -/
def cSWC_LS_FRAMES (n : Nat) : Nat := 0x501028 + 128 * n
/-- SWC LS_DROP: LS frames dropped for lack of room here. -/
def cSWC_LS_DROP (n : Nat) : Nat := 0x501030 + 128 * n
/-- SWC LS_OVERCAP: LS frames dropped by this output's meter. -/
def cSWC_LS_OVERCAP (n : Nat) : Nat := 0x501038 + 128 * n
/-- SWC DROP_SPILL_ECC: Spilled frames of this input lost to errors. -/
def cSWC_DROP_SPILL_ECC (n : Nat) : Nat := 0x501040 + 128 * n
/-- SWC DROP_LOST_DEST: Frames of this input dropped for a lost destination. -/
def cSWC_DROP_LOST_DEST (n : Nat) : Nat := 0x501048 + 128 * n
/-- SWC DROP_OTHER: Frames dropped for tag errors or unused outputs. -/
def cSWC_DROP_OTHER (n : Nat) : Nat := 0x501050 + 128 * n
/-- FLP FRAMES: Frames passed. -/
def cFLP_FRAMES (n : Nat) : Nat := 0x601000 + 256 * n
/-- FLP CACHE_HIT: Exact lookups hitting the cache. -/
def cFLP_CACHE_HIT (n : Nat) : Nat := 0x601008 + 256 * n
/-- FLP CACHE_MISS: Exact lookups read from HBM. -/
def cFLP_CACHE_MISS (n : Nat) : Nat := 0x601010 + 256 * n
/-- FLP TABLE_MISS: Frames given a default result. -/
def cFLP_TABLE_MISS (n : Nat) : Nat := 0x601018 + 256 * n
/-- FLP PARSE_ERR: Parse errors. -/
def cFLP_PARSE_ERR (n : Nat) : Nat := 0x601020 + 256 * n
/-- FLP PARSE_TRUNC: Truncated parses. -/
def cFLP_PARSE_TRUNC (n : Nat) : Nat := 0x601028 + 256 * n
/-- FLP DROP_ACTION: Drops by DROP, a missing forwarding action or ERROR. -/
def cFLP_DROP_ACTION (n : Nat) : Nat := 0x601030 + 256 * n
/-- FLP DROP_SHED: Drops of shed instances. -/
def cFLP_DROP_SHED (n : Nat) : Nat := 0x601038 + 256 * n
/-- FLP DROP_DECAP: Decapsulation failures. -/
def cFLP_DROP_DECAP (n : Nat) : Nat := 0x601040 + 256 * n
/-- FLP DROP_TTL: TTL or hop-limit expiry. -/
def cFLP_DROP_TTL (n : Nat) : Nat := 0x601048 + 256 * n
/-- FLP DROP_MTU: Frames over the MTU. -/
def cFLP_DROP_MTU (n : Nat) : Nat := 0x601050 + 256 * n
/-- FLP DROP_STOP: Frames of quiesced or stopped profiles. -/
def cFLP_DROP_STOP (n : Nat) : Nat := 0x601058 + 256 * n
/-- FLP TO_SVC: Frames sent to the service cluster. -/
def cFLP_TO_SVC (n : Nat) : Nat := 0x601060 + 256 * n
/-- FLP RECIRC: Second passes. -/
def cFLP_RECIRC (n : Nat) : Nat := 0x601068 + 256 * n
/-- FLP FLOW_ECC: Uncorrectable bucket reads. -/
def cFLP_FLOW_ECC (n : Nat) : Nat := 0x601070 + 256 * n
/-- FLP MC_EMPTY: Port-set bits without members. -/
def cFLP_MC_EMPTY (n : Nat) : Nat := 0x601078 + 256 * n
/-- TMG FRAMES_OUT: Frames of classes 0–6 chosen by TMG for this output. -/
def cTMG_FRAMES_OUT (n : Nat) : Nat := 0x701000 + 64 * n
/-- TMG BYTES_OUT: Their charged bytes per R128. -/
def cTMG_BYTES_OUT (n : Nat) : Nat := 0x701008 + 64 * n
/-- TMG SHAPER_WAIT_NS: Nanoseconds in which frames were queued for this output and none was eligible. -/
def cTMG_SHAPER_WAIT_NS (n : Nat) : Nat := 0x701010 + 64 * n
/-- CPH ENC_PASSES: Encrypt and protect passes. -/
def cCPH_ENC_PASSES : Nat := 0x800200
/-- CPH DEC_PASSES: Decrypt and verify passes. -/
def cCPH_DEC_PASSES : Nat := 0x800208
/-- CPH ENC_BYTES: Payload bytes encrypted. -/
def cCPH_ENC_BYTES : Nat := 0x800210
/-- CPH DEC_BYTES: Payload bytes decrypted. -/
def cCPH_DEC_BYTES : Nat := 0x800218
/-- CPH AUTH_FAIL: Tag failures. -/
def cCPH_AUTH_FAIL : Nat := 0x800220
/-- CPH REPLAY_DROP: Replay drops. -/
def cCPH_REPLAY_DROP : Nat := 0x800228
/-- CPH KEY_LIMIT_DROP: Passes refused by STOPPED. -/
def cCPH_KEY_LIMIT_DROP : Nat := 0x800230
/-- CPH KEY_ABSENT_DROP: Passes without a key. -/
def cCPH_KEY_ABSENT_DROP : Nat := 0x800238
/-- CPH ZEROISED_DROP: Passes refused after zeroisation. -/
def cCPH_ZEROISED_DROP : Nat := 0x800240
/-- CPH LEN_DROP: Frames and jobs over 9,216 bytes. -/
def cCPH_LEN_DROP : Nat := 0x800248
/-- CPH PREEMPT_DROP: Abandoned non-LS passes. -/
def cCPH_PREEMPT_DROP : Nat := 0x800250
/-- CPH KEY_MISS: Key cache misses. -/
def cCPH_KEY_MISS : Nat := 0x800258
/-- CPH LS_PASSES: LS passes completed. -/
def cCPH_LS_PASSES : Nat := 0x800260
/-- CPH LS_QUEUE_DROP: LS passes dropped. -/
def cCPH_LS_QUEUE_DROP : Nat := 0x800268
/-- CPH CKPT_STALL_NS: Nanoseconds of slot stall per R167, summed over slots. -/
def cCPH_CKPT_STALL_NS : Nat := 0x800270
/-- CPH SUSPENDS: Non-LS passes suspended by LS passes. -/
def cCPH_SUSPENDS : Nat := 0x800278
/-- STR CMDS_DONE: Storage commands completed. -/
def cSTR_CMDS_DONE : Nat := 0x900200
/-- STR CMDS_ERR: Commands completed with a status other than OK. -/
def cSTR_CMDS_ERR : Nat := 0x900208
/-- STR BYTES_READ: Bytes read for hosts. -/
def cSTR_BYTES_READ : Nat := 0x900210
/-- STR BYTES_WRITTEN: Bytes written for hosts. -/
def cSTR_BYTES_WRITTEN : Nat := 0x900218
/-- STR RETRANS_SEG: TCP segments retransmitted. -/
def cSTR_RETRANS_SEG : Nat := 0x900220
/-- STR PROTO_DROP: Segments dropped per R174. -/
def cSTR_PROTO_DROP : Nat := 0x900228
/-- STR DIGEST_ERR: Digest mismatches. -/
def cSTR_DIGEST_ERR : Nat := 0x900230
/-- STR TIMEOUTS: Commands timed out. -/
def cSTR_TIMEOUTS : Nat := 0x900238
/-- STR SHED_CMDS: Commands completed with SHED. -/
def cSTR_SHED_CMDS : Nat := 0x900240
/-- STR REC_RECORDS: Journal records formed. -/
def cSTR_REC_RECORDS : Nat := 0x900248
/-- STR REC_BYTES: Journal bytes durable. -/
def cSTR_REC_BYTES : Nat := 0x900250
/-- STR REC_LOST: Records lost. -/
def cSTR_REC_LOST : Nat := 0x900258
/-- STR REC_GAP: GAP records written. -/
def cSTR_REC_GAP : Nat := 0x900260
/-- STR PLAY_SAMPLES: Samples output by the player. -/
def cSTR_PLAY_SAMPLES : Nat := 0x900268
/-- STR LIB_CRC_ERR: Library blocks failing CRC. -/
def cSTR_LIB_CRC_ERR : Nat := 0x900270
/-- STR CID_HELD: CIDs currently held per R185. -/
def cSTR_CID_HELD : Nat := 0x900278
/-- HEP UR_SENT: UR completions sent. -/
def cHEP_UR_SENT : Nat := 0x100
/-- HEP POISONED_RX: Poisoned TLPs received. -/
def cHEP_POISONED_RX : Nat := 0x108
/-- HEP CPL_TIMEOUT: Completion timeouts. -/
def cHEP_CPL_TIMEOUT : Nat := 0x110
/-- HEP CORR_ERR: Correctable errors detected. -/
def cHEP_CORR_ERR : Nat := 0x118
/-- HEP LATE_CPL: Completions discarded after timeout, FLR or member loss. -/
def cHEP_LATE_CPL : Nat := 0x120
/-- HEP BME_HELD: Posted writes and MSI-X messages held per R218. -/
def cHEP_BME_HELD : Nat := 0x128
/-- HEP FLR_COUNT: FLRs completed. -/
def cHEP_FLR_COUNT : Nat := 0x130
/-- HEP MEMBER_LOSSES: Cascade members lost (head only). -/
def cHEP_MEMBER_LOSSES : Nat := 0x138
/-- WQM DESC_FETCHED: Descriptors read from rings. -/
def cWQM_DESC_FETCHED : Nat := 0x200100
/-- WQM GEYSER_PUSH: Geyser writes used as pushed. -/
def cWQM_GEYSER_PUSH : Nat := 0x200108
/-- WQM GEYSER_FALLBACK: Geyser writes fetched from the ring. -/
def cWQM_GEYSER_FALLBACK : Nat := 0x200110
/-- WQM CPL_WRITTEN: Completion entries written. -/
def cWQM_CPL_WRITTEN : Nat := 0x200118
/-- WQM FLUSHED: Jobs returned FLUSHED. -/
def cWQM_FLUSHED : Nat := 0x200120
/-- WQM SHED: Jobs completed with SHED. -/
def cWQM_SHED : Nat := 0x200128
/-- WQM CQ_FULL_NS: Nanoseconds queues spent with a full CQ, summed. -/
def cWQM_CQ_FULL_NS : Nat := 0x200130
/-- WQM INTR_SENT: Completion interrupts sent. -/
def cWQM_INTR_SENT : Nat := 0x200138
/-- DMA BURSTS: Bursts written. -/
def cDMA_BURSTS : Nat := 0x300400
/-- DMA BYTES_READ: Bytes read by all channels. -/
def cDMA_BYTES_READ : Nat := 0x300408
/-- DMA BYTES_WRITTEN: Bytes written by all channels. -/
def cDMA_BYTES_WRITTEN : Nat := 0x300410
/-- DMA FAULTS: Channel faults. -/
def cDMA_FAULTS : Nat := 0x300418
/-- DMA PAUSES: Channels that reached PAUSED. -/
def cDMA_PAUSES : Nat := 0x300420
/-- DMA REQ_OVF: Request assertions lost. -/
def cDMA_REQ_OVF : Nat := 0x300428
/-- POOL ALLOCS: Buffers granted. -/
def cPOOL_ALLOCS (n : Nat) : Nat := 0x401000 + 64 * n
/-- POOL FALLBACK: Grants made from this pool as a fallback. -/
def cPOOL_FALLBACK (n : Nat) : Nat := 0x401008 + 64 * n
/-- POOL QUOTA_REFUSE: Requests refused for quota at this pool. -/
def cPOOL_QUOTA_REFUSE (n : Nat) : Nat := 0x401010 + 64 * n
/-- POOL EMPTY_REFUSE: Requests refused with both pools empty. -/
def cPOOL_EMPTY_REFUSE (n : Nat) : Nat := 0x401018 + 64 * n
/-- POOL RX_DROP: Receive frames dropped at this pool. -/
def cPOOL_RX_DROP (n : Nat) : Nat := 0x401020 + 64 * n
/-- POOL LS_DROP: LS and CORE frames dropped. -/
def cPOOL_LS_DROP (n : Nat) : Nat := 0x401028 + 64 * n
/-- POOL LINK_CORR: Corrected link errors. -/
def cPOOL_LINK_CORR (n : Nat) : Nat := 0x401030 + 64 * n
/-- POOL WAIT_NS_SUM: Nanoseconds requests spent waiting on this pool. -/
def cPOOL_WAIT_NS_SUM (n : Nat) : Nat := 0x401038 + 64 * n
/-- ETH RX_FRAMES: Frames received good. -/
def cETH_RX_FRAMES (n : Nat) : Nat := 0xa01100 + 512 * n
/-- ETH RX_BYTES: Their bytes per R128. -/
def cETH_RX_BYTES (n : Nat) : Nat := 0xa01108 + 512 * n
/-- ETH TX_FRAMES: Frames sent. -/
def cETH_TX_FRAMES (n : Nat) : Nat := 0xa01110 + 512 * n
/-- ETH TX_BYTES: Their bytes per R128. -/
def cETH_TX_BYTES (n : Nat) : Nat := 0xa01118 + 512 * n
/-- ETH RX_FCS_ERR: FCS and uncorrectable-codeword drops. -/
def cETH_RX_FCS_ERR (n : Nat) : Nat := 0xa01120 + 512 * n
/-- ETH RX_UNDERSIZE: Frames under 64 bytes. -/
def cETH_RX_UNDERSIZE (n : Nat) : Nat := 0xa01128 + 512 * n
/-- ETH RX_OVERSIZE: Frames over the MTU. -/
def cETH_RX_OVERSIZE (n : Nat) : Nat := 0xa01130 + 512 * n
/-- ETH FEC_CORR: Codewords corrected. -/
def cETH_FEC_CORR (n : Nat) : Nat := 0xa01138 + 512 * n
/-- ETH FEC_UNCORR: Codewords uncorrectable. -/
def cETH_FEC_UNCORR (n : Nat) : Nat := 0xa01140 + 512 * n
/-- ETH TXHOLD_NS: Nanoseconds held. -/
def cETH_TXHOLD_NS (n : Nat) : Nat := 0xa01148 + 512 * n
/-- ETH TXHOLD_DROP: Frames discarded per R313 (ETH_TXHOLD_DROP). -/
def cETH_TXHOLD_DROP (n : Nat) : Nat := 0xa01150 + 512 * n
/-- ETH LS_REDIRECT: LS frames moved to the alternate. -/
def cETH_LS_REDIRECT (n : Nat) : Nat := 0xa01158 + 512 * n
/-- ETH PAUSE_RX: PAUSE frames discarded. -/
def cETH_PAUSE_RX (n : Nat) : Nat := 0xa01160 + 512 * n
/-- ETH PFC_RX: PFC frames received. -/
def cETH_PFC_RX (n : Nat) : Nat := 0xa01168 + 512 * n
/-- ETH PFC_TX: PFC frames sent. -/
def cETH_PFC_TX (n : Nat) : Nat := 0xa01170 + 512 * n
/-- ETH STN_HITS: Station hits. -/
def cETH_STN_HITS (n : Nat) : Nat := 0xa01178 + 512 * n
/-- ETH STN_DROP: Station frames over rate. -/
def cETH_STN_DROP (n : Nat) : Nat := 0xa01180 + 512 * n
/-- ETH TS_OVF: Timestamp captures lost. -/
def cETH_TS_OVF (n : Nat) : Nat := 0xa01188 + 512 * n
/-- ETH PTP_1STEP_SKIP: One-step Syncs sent unchanged. -/
def cETH_PTP_1STEP_SKIP (n : Nat) : Nat := 0xa01190 + 512 * n
/-- LOOP LOOP_CYCLES: Cycles sourced or accepted. -/
def cLOOP_LOOP_CYCLES (n : Nat) : Nat := 0xb01000 + 256 * n
/-- LOOP SWEEPS_RX: Valid sweeps received. -/
def cLOOP_SWEEPS_RX (n : Nat) : Nat := 0xb01008 + 256 * n
/-- LOOP SLOT_MISS: Misses per R334, and received requests lost. -/
def cLOOP_SLOT_MISS (n : Nat) : Nat := 0xb01010 + 256 * n
/-- LOOP NODE_FAULTS: Entries to FAULT. -/
def cLOOP_NODE_FAULTS (n : Nat) : Nat := 0xb01018 + 256 * n
/-- LOOP CRC_ERR: Header, slot and frame CRC failures; reserved ordered sets. -/
def cLOOP_CRC_ERR (n : Nat) : Nat := 0xb01020 + 256 * n
/-- LOOP STALE: Stale sweeps. -/
def cLOOP_STALE (n : Nat) : Nat := 0xb01028 + 256 * n
/-- LOOP AUDIO_AUTH_FAIL: Cycles presented as silence. -/
def cLOOP_AUDIO_AUTH_FAIL (n : Nat) : Nat := 0xb01030 + 256 * n
/-- LOOP TOKEN_LOST: Tokens not returned. -/
def cLOOP_TOKEN_LOST (n : Nat) : Nat := 0xb01038 + 256 * n
/-- LOOP FRAMES_TX: Management frames sent. -/
def cLOOP_FRAMES_TX (n : Nat) : Nat := 0xb01040 + 256 * n
/-- LOOP FRAMES_RX: Management frames accepted. -/
def cLOOP_FRAMES_RX (n : Nat) : Nat := 0xb01048 + 256 * n
/-- LOOP UNKNOWN_DST: DATA frames without a loop address. -/
def cLOOP_UNKNOWN_DST (n : Nat) : Nat := 0xb01050 + 256 * n
/-- LOOP OVERSIZE: DATA frames over 1,536 bytes. -/
def cLOOP_OVERSIZE (n : Nat) : Nat := 0xb01058 + 256 * n
/-- LOOP MGMT_REJECT: Signed messages rejected. -/
def cLOOP_MGMT_REJECT (n : Nat) : Nat := 0xb01060 + 256 * n
/-- LOOP WRAPS: Wrap entries. -/
def cLOOP_WRAPS (n : Nat) : Nat := 0xb01068 + 256 * n
/-- LOOP LATE_SWEEP: Sweeps returned late. -/
def cLOOP_LATE_SWEEP (n : Nat) : Nat := 0xb01070 + 256 * n
/-- LOOP CONFLICTS: Master conflicts. -/
def cLOOP_CONFLICTS (n : Nat) : Nat := 0xb01078 + 256 * n
/-- LOOP RATE_DROP: EMSG and MGMT frames over rate. -/
def cLOOP_RATE_DROP (n : Nat) : Nat := 0xb01080 + 256 * n
/-- CAS LOST_DEST_DROP: Frames dropped for an unreachable destination. -/
def cCAS_LOST_DEST_DROP : Nat := 0xc00200
/-- CAS LINK_LOSS_DROP: Frames dropped with a DOWN link. -/
def cCAS_LINK_LOSS_DROP : Nat := 0xc00208
/-- CAS STALE_ROUTE_DROP: Frames dropped per R368. -/
def cCAS_STALE_ROUTE_DROP : Nat := 0xc00210
/-- CAS TLP_LOST: TLP frames lost. -/
def cCAS_TLP_LOST : Nat := 0xc00218
/-- CAS TOPO_REJECT: TOPO frames rejected. -/
def cCAS_TOPO_REJECT : Nat := 0xc00220
/-- CAS MEMBER_LOSSES: Devices marked lost. -/
def cCAS_MEMBER_LOSSES : Nat := 0xc00228
/-- CAS G_FRAMES_TX: Link frames sent, replays included. -/
def cCAS_G_FRAMES_TX (n : Nat) : Nat := 0xc01000 + 128 * n
/-- CAS G_FRAMES_RX: Link frames accepted. -/
def cCAS_G_FRAMES_RX (n : Nat) : Nat := 0xc01008 + 128 * n
/-- CAS G_BYTES_TX: Link frame bytes sent. -/
def cCAS_G_BYTES_TX (n : Nat) : Nat := 0xc01010 + 128 * n
/-- CAS G_BYTES_RX: Link frame bytes accepted. -/
def cCAS_G_BYTES_RX (n : Nat) : Nat := 0xc01018 + 128 * n
/-- CAS G_CRC_ERR: Frames discarded for CRC, TYPE or LEN. -/
def cCAS_G_CRC_ERR (n : Nat) : Nat := 0xc01020 + 128 * n
/-- CAS G_MARKER_ERR: Markers ignored. -/
def cCAS_G_MARKER_ERR (n : Nat) : Nat := 0xc01028 + 128 * n
/-- CAS G_NAK_TX: NAK episodes started. -/
def cCAS_G_NAK_TX (n : Nat) : Nat := 0xc01030 + 128 * n
/-- CAS G_REPLAYS: Replays begun. -/
def cCAS_G_REPLAYS (n : Nat) : Nat := 0xc01038 + 128 * n
/-- CAS G_DUP_DROP: Duplicates discarded. -/
def cCAS_G_DUP_DROP (n : Nat) : Nat := 0xc01040 + 128 * n
/-- CAS G_RETRAINS: Entries to RETRAIN. -/
def cCAS_G_RETRAINS (n : Nat) : Nat := 0xc01048 + 128 * n
/-- CAS G_WINDOW_STALL_NS: Nanoseconds stalled per R359. -/
def cCAS_G_WINDOW_STALL_NS (n : Nat) : Nat := 0xc01050 + 128 * n
/-- SVC TRAPS: Traps taken with a TSB written. -/
def cSVC_TRAPS : Nat := 0xd00100
/-- SVC TSB_FAULTS: Entries to FAULTED_UNSAVED. -/
def cSVC_TSB_FAULTS : Nat := 0xd00108
/-- SVC THREAD_FAULTS: Entries to FAULTED. -/
def cSVC_THREAD_FAULTS : Nat := 0xd00110
/-- SVC RESTARTS: Watchdog restarts. -/
def cSVC_RESTARTS : Nat := 0xd00118
/-- CRT KEY_COMMITS: Install and retire commits. -/
def cCRT_KEY_COMMITS : Nat := 0x1300100
/-- CRT CKPT_COMMITS: High-water mark commits. -/
def cCRT_CKPT_COMMITS : Nat := 0x1300108
/-- CRT SLOTS_DAMAGED: Slots found damaged. -/
def cCRT_SLOTS_DAMAGED : Nat := 0x1300110
/-- CRT ATTESTS: Reports written. -/
def cCRT_ATTESTS : Nat := 0x1300118
/-- CRT MBS_REJECT: Requests refused with PERMISSION. -/
def cCRT_MBS_REJECT : Nat := 0x1300120
/-- CRT RESTARTS: Crater restarts. -/
def cCRT_RESTARTS : Nat := 0x1300128
/-- PCR FULL_RESETS: FULL resets. -/
def cPCR_FULL_RESETS : Nat := 0xf00200
/-- PCR HOST_RESETS: HOST resets. -/
def cPCR_HOST_RESETS : Nat := 0xf00208
/-- PCR START_FAILURES: Starts failed under R457. -/
def cPCR_START_FAILURES : Nat := 0xf00210
/-- PCR REFUGE_STARTS: Starts made in Refuge mode. -/
def cPCR_REFUGE_STARTS : Nat := 0xf00218
/-- PCR THERM_HOLD_NS: Nanoseconds in thermal hold. -/
def cPCR_THERM_HOLD_NS : Nat := 0xf00220
/-- PCR P2_NS: Nanoseconds in P2. -/
def cPCR_P2_NS : Nat := 0xf00228
/-- PCR MSG_HELD_DROP: Messages dropped during CRATER restarts. -/
def cPCR_MSG_HELD_DROP : Nat := 0xf00230
/-- PCR P3_WAKES: Wakes from P3. -/
def cPCR_P3_WAKES : Nat := 0xf00238
/-- ALP ENTRY_COUNT: Entries. -/
def cALP_ENTRY_COUNT : Nat := 0x1200030
/-- ALP MSG_ACCEPT: Messages accepted. -/
def cALP_MSG_ACCEPT : Nat := 0x1200038
/-- ALP MSG_REJECT: Messages rejected. -/
def cALP_MSG_REJECT : Nat := 0x1200040
/-- SWC TEPHRA_DROP: Tephra drops. -/
def cSWC_TEPHRA_DROP : Nat := 0x5000a8
/-- SWC TAG_CORR: Corrected tag errors. -/
def cSWC_TAG_CORR : Nat := 0x5000b0
/-- FLP AGED: Aged entries. -/
def cFLP_AGED : Nat := 0x600050
/-- FLP AGE_LOST: Unreported removals. -/
def cFLP_AGE_LOST : Nat := 0x600058
/-- TMG POL_DROP: Policed drops. -/
def cTMG_POL_DROP : Nat := 0x700050
/-- VFM DTU_FAULTS: DTU faults. -/
def cVFM_DTU_FAULTS : Nat := 0x1000b0
/-- VFM DTU_MISS: Translation cache misses. -/
def cVFM_DTU_MISS : Nat := 0x1000b8
/-- MBX MSGS: Messages. -/
def cMBX_MSGS : Nat := 0xe00800
/-- MBX OVERRUN: Refused writes. -/
def cMBX_OVERRUN : Nat := 0xe00808
/-- MEM HBM_CORR. -/
def cMEM_HBM_CORR : Nat := 0x1000100
/-- MEM HBM_UNCORR. -/
def cMEM_HBM_UNCORR : Nat := 0x1000108
/-- MEM SCRUB_PASSES. -/
def cMEM_SCRUB_PASSES : Nat := 0x1000110
/-- MEM NVM_WRITES. -/
def cMEM_NVM_WRITES : Nat := 0x1000118
/-- MEM NVM_MOVES. -/
def cMEM_NVM_MOVES : Nat := 0x1000120
/-- MEM NVM_RETIRED. -/
def cMEM_NVM_RETIRED : Nat := 0x1000128
/-- TIM LOG_ENTRIES. -/
def cTIM_LOG_ENTRIES : Nat := 0x1100100
/-- TIM LOG_LOST. -/
def cTIM_LOG_LOST : Nat := 0x1100108
/-- TIM TELEM_SNAPSHOTS. -/
def cTIM_TELEM_SNAPSHOTS : Nat := 0x1100110
/-- TIM TELEM_LOST. -/
def cTIM_TELEM_LOST : Nat := 0x1100118
/-- TIM TIME_STEPS. -/
def cTIM_TIME_STEPS : Nat := 0x1100120

/-- The 64-bit statistics counters (R11): offset of the first copy, copies, distance. -/
def counterBlocks : List (Nat × Nat × Nat) := [
  (0x501000, 26, 128),
  (0x501008, 26, 128),
  (0x501010, 26, 128),
  (0x501018, 26, 128),
  (0x501020, 26, 128),
  (0x501028, 26, 128),
  (0x501030, 26, 128),
  (0x501038, 26, 128),
  (0x501040, 26, 128),
  (0x501048, 26, 128),
  (0x501050, 26, 128),
  (0x601000, 4, 256),
  (0x601008, 4, 256),
  (0x601010, 4, 256),
  (0x601018, 4, 256),
  (0x601020, 4, 256),
  (0x601028, 4, 256),
  (0x601030, 4, 256),
  (0x601038, 4, 256),
  (0x601040, 4, 256),
  (0x601048, 4, 256),
  (0x601050, 4, 256),
  (0x601058, 4, 256),
  (0x601060, 4, 256),
  (0x601068, 4, 256),
  (0x601070, 4, 256),
  (0x601078, 4, 256),
  (0x701000, 26, 64),
  (0x701008, 26, 64),
  (0x701010, 26, 64),
  (0x800200, 1, 8),
  (0x800208, 1, 8),
  (0x800210, 1, 8),
  (0x800218, 1, 8),
  (0x800220, 1, 8),
  (0x800228, 1, 8),
  (0x800230, 1, 8),
  (0x800238, 1, 8),
  (0x800240, 1, 8),
  (0x800248, 1, 8),
  (0x800250, 1, 8),
  (0x800258, 1, 8),
  (0x800260, 1, 8),
  (0x800268, 1, 8),
  (0x800270, 1, 8),
  (0x800278, 1, 8),
  (0x900200, 1, 8),
  (0x900208, 1, 8),
  (0x900210, 1, 8),
  (0x900218, 1, 8),
  (0x900220, 1, 8),
  (0x900228, 1, 8),
  (0x900230, 1, 8),
  (0x900238, 1, 8),
  (0x900240, 1, 8),
  (0x900248, 1, 8),
  (0x900250, 1, 8),
  (0x900258, 1, 8),
  (0x900260, 1, 8),
  (0x900268, 1, 8),
  (0x900270, 1, 8),
  (0x900278, 1, 8),
  (0x100, 1, 8),
  (0x108, 1, 8),
  (0x110, 1, 8),
  (0x118, 1, 8),
  (0x120, 1, 8),
  (0x128, 1, 8),
  (0x130, 1, 8),
  (0x138, 1, 8),
  (0x200100, 1, 8),
  (0x200108, 1, 8),
  (0x200110, 1, 8),
  (0x200118, 1, 8),
  (0x200120, 1, 8),
  (0x200128, 1, 8),
  (0x200130, 1, 8),
  (0x200138, 1, 8),
  (0x300400, 1, 8),
  (0x300408, 1, 8),
  (0x300410, 1, 8),
  (0x300418, 1, 8),
  (0x300420, 1, 8),
  (0x300428, 1, 8),
  (0x401000, 16, 64),
  (0x401008, 16, 64),
  (0x401010, 16, 64),
  (0x401018, 16, 64),
  (0x401020, 16, 64),
  (0x401028, 16, 64),
  (0x401030, 16, 64),
  (0x401038, 16, 64),
  (0xa01100, 16, 512),
  (0xa01108, 16, 512),
  (0xa01110, 16, 512),
  (0xa01118, 16, 512),
  (0xa01120, 16, 512),
  (0xa01128, 16, 512),
  (0xa01130, 16, 512),
  (0xa01138, 16, 512),
  (0xa01140, 16, 512),
  (0xa01148, 16, 512),
  (0xa01150, 16, 512),
  (0xa01158, 16, 512),
  (0xa01160, 16, 512),
  (0xa01168, 16, 512),
  (0xa01170, 16, 512),
  (0xa01178, 16, 512),
  (0xa01180, 16, 512),
  (0xa01188, 16, 512),
  (0xa01190, 16, 512),
  (0xb01000, 4, 256),
  (0xb01008, 4, 256),
  (0xb01010, 4, 256),
  (0xb01018, 4, 256),
  (0xb01020, 4, 256),
  (0xb01028, 4, 256),
  (0xb01030, 4, 256),
  (0xb01038, 4, 256),
  (0xb01040, 4, 256),
  (0xb01048, 4, 256),
  (0xb01050, 4, 256),
  (0xb01058, 4, 256),
  (0xb01060, 4, 256),
  (0xb01068, 4, 256),
  (0xb01070, 4, 256),
  (0xb01078, 4, 256),
  (0xb01080, 4, 256),
  (0xc00200, 1, 8),
  (0xc00208, 1, 8),
  (0xc00210, 1, 8),
  (0xc00218, 1, 8),
  (0xc00220, 1, 8),
  (0xc00228, 1, 8),
  (0xc01000, 4, 128),
  (0xc01008, 4, 128),
  (0xc01010, 4, 128),
  (0xc01018, 4, 128),
  (0xc01020, 4, 128),
  (0xc01028, 4, 128),
  (0xc01030, 4, 128),
  (0xc01038, 4, 128),
  (0xc01040, 4, 128),
  (0xc01048, 4, 128),
  (0xc01050, 4, 128),
  (0xd00100, 1, 8),
  (0xd00108, 1, 8),
  (0xd00110, 1, 8),
  (0xd00118, 1, 8),
  (0x1300100, 1, 8),
  (0x1300108, 1, 8),
  (0x1300110, 1, 8),
  (0x1300118, 1, 8),
  (0x1300120, 1, 8),
  (0x1300128, 1, 8),
  (0xf00200, 1, 8),
  (0xf00208, 1, 8),
  (0xf00210, 1, 8),
  (0xf00218, 1, 8),
  (0xf00220, 1, 8),
  (0xf00228, 1, 8),
  (0xf00230, 1, 8),
  (0xf00238, 1, 8),
  (0x1200030, 1, 8),
  (0x1200038, 1, 8),
  (0x1200040, 1, 8),
  (0x5000a8, 1, 8),
  (0x5000b0, 1, 8),
  (0x600050, 1, 8),
  (0x600058, 1, 8),
  (0x700050, 1, 8),
  (0x1000b0, 1, 8),
  (0x1000b8, 1, 8),
  (0xe00800, 1, 8),
  (0xe00808, 1, 8),
  (0x1000100, 1, 8),
  (0x1000108, 1, 8),
  (0x1000110, 1, 8),
  (0x1000118, 1, 8),
  (0x1000120, 1, 8),
  (0x1000128, 1, 8),
  (0x1100100, 1, 8),
  (0x1100108, 1, 8),
  (0x1100110, 1, 8),
  (0x1100118, 1, 8),
  (0x1100120, 1, 8)]

/-- Whether offset `o` is the low word of a counter. -/
def isCounter (o : Nat) : Bool :=
  counterBlocks.any (fun b => decide (b.1 ≤ o) && decide (o < b.1 + b.2.2 * b.2.1) && decide ((o - b.1) % b.2.2 = 0))

/-- The 64-bit registers other than counters: offset of the first copy, copies, distance. -/
def wideRegs : List (Nat × Nat × Nat) := [
  (0x1000a4, 1, 8),
  (0x200038, 1, 8),
  (0x200040, 1, 8),
  (0x200058, 1, 8),
  (0x200060, 1, 8),
  (0x300028, 1, 8),
  (0x300040, 8, 8),
  (0x500068, 1, 8),
  (0x500094, 1, 8),
  (0x900010, 1, 8),
  (0x900018, 1, 8),
  (0x900020, 1, 8),
  (0xb00014, 4, 256),
  (0xc00030, 1, 8),
  (0xc00038, 1, 8),
  (0xc00040, 1, 8),
  (0xc00068, 1, 8),
  (0xd00018, 1, 8),
  (0xd00020, 1, 8),
  (0xd00028, 1, 8),
  (0xd00030, 1, 8),
  (0xd0003c, 1, 8),
  (0xd00048, 1, 8),
  (0xd00050, 1, 8),
  (0xe00000, 40, 32),
  (0xf00808, 1, 8),
  (0xf00818, 1, 8),
  (0x1000014, 1, 8),
  (0x1100008, 1, 8),
  (0x1100028, 1, 8),
  (0x11000b4, 1, 8),
  (0x1200020, 1, 8)]

/-- Whether offset `o` is the low word of a 64-bit register or counter (R10). -/
def isWideLow (o : Nat) : Bool :=
  isCounter o || wideRegs.any (fun b => decide (b.1 ≤ o) && decide (o < b.1 + b.2.2 * b.2.1) && decide ((o - b.1) % b.2.2 = 0))

end Sys2Proof.Machine
end

