-- ==== Sys2Proof/Machine/State/Alp.lean ====
section
/-! DEFINITION. State of the emergency precedence plane (02_emergency_precedence.md). -/

namespace Sys2Proof.Machine

/-- The alarm state and the schedule in force (R41). -/
inductive AlarmState where
  | normal | drill | emergency | holdover
deriving DecidableEq, Repr

/-- One entry of the originator list (R52). -/
structure Originator where
  origin : DWord
  mayDeclare : Bool
  mayClear : Bool
  mayDrill : Bool
deriving DecidableEq, Repr

/-- One member of the active-originator set, with the path it arrived through (R53). -/
structure ActiveOrigin where
  origin : DWord
  path : EmsgPath
  /-- device time of the last bit of its DECLARE at the balls (R58) -/
  rx : Nat
deriving DecidableEq, Repr

/-- An EMSG or management message that waits while Crater restarts (R453). -/
inductive HeldMessage where
  | emsg (path : EmsgPath) (msg : Bytes) (rx : Nat)
  | mgmt (loop : Nat) (msg : Bytes)
deriving DecidableEq, Repr

/-- The alarm state machine, its sources and the levels that have reached the subsystems. -/
structure Alp where
  /-- state driven on the precedence wire set (R41, R14) -/
  state : AlarmState
  /-- ALP_STATUS.ENTRY_DONE (R56) -/
  entryDone : Bool
  /-- an entry has been driven and its ENTRY_DONE has not been reached -/
  entryOwed : Bool
  /-- last accepted levels of the input pair (R48) -/
  inA : Bool
  inB : Bool
  /-- device time of the first sample of that combination (R58) -/
  inSince : Nat
  /-- ALP_STATUS.IN_FAULT (R48) -/
  inFault : Bool
  /-- ALP_SOURCES.INPUT (R48) -/
  srcInput : Bool
  /-- ALP_SOURCES.IN_FAULT_DECL (R49) -/
  srcFault : Bool
  /-- the active-originator set (R53) -/
  active : List ActiveOrigin
  /-- device time at which the holdover ends (R43) -/
  holdEnd : Option Nat
  /-- device time at which the drill limit elapses (R66) -/
  drillEnd : Option Nat
  /-- device time from which the latency of the current entry runs (R58) -/
  entryFrom : Nat
  /-- level that has reached each subsystem, by subsystem number (R60) -/
  levels : Map AlarmState
  /-- ALP_STATUS.PATH_READY -/
  pathReady : Bool
  /-- image: an accepted Fault is a declaration (R49) -/
  faultDeclares : Bool
  /-- image: ls_clear_fallback (KL-9) -/
  clearFallback : Bool
  /-- image: ALP_SHED_CFG.DRILL_SHED (R61) -/
  drillShed : Nat
  /-- image: originator list (R52) -/
  originators : List Originator
  /-- image: key slot of EMSG tags (R51) -/
  emsgSlot : Nat
  /-- image: EtherType and UDP port of EMSG frames -/
  etype : BitVec 16
  udpPort : BitVec 16
  /-- messages that arrived during a Crater restart (R453) -/
  heldMsgs : List HeldMessage
deriving DecidableEq, Repr

end Sys2Proof.Machine
end

