-- ==== Sys2Proof/Machine/State/Frame.lean ====
section
/-! DEFINITION. A frame inside the device, and the state of the flow pipelines (04_flow_pipelines.md). -/

namespace Sys2Proof.Machine

/-- Where a frame goes (R73, R110). -/
inductive Dest where
  | none
  /-- switch port of a device -/
  | unicast (sp cid : Nat)
  /-- multicast group, with the port set as read at admission (R90) -/
  | group (g ports : Nat)
deriving DecidableEq, Repr

/-- What a frame that crosses Gondola links carries beside its record (R357). -/
structure Fabric where
  /-- destination and entry device -/
  dst : Nat
  src : Nat
  epoch : Nat
  /-- link numbers of the path, and the index of the current hop -/
  route : List Nat
  hop : Nat
deriving DecidableEq, Repr

/-- A frame: its bytes without the FCS, and what travels with it (R21, R73). -/
structure Frame where
  bytes : Bytes
  cls : Nat
  inst : Nat
  srcSp : Nat
  dest : Dest
  /-- queue selection of FWD_VF or of a multicast member (R110, R117) -/
  qsel : Nat
  /-- action record (R107) -/
  record : Bytes
  /-- index of the flow entry or ternary rule, none for a default result -/
  rule : Option Nat
  /-- L2 rewrite entries that its record names, captured with it (R21, R121) -/
  l2 : Map Bytes
  /-- the LS flag in force (R112) -/
  ls : Bool
  hash : BitVec 16
  /-- descriptors captured at the lookup (R21): ENCAP, and a DECAP of types 3–6 that is still to run -/
  encap : Option Bytes
  decap : Option Bytes
  /-- transmitted by the host: the egress pass is taken before the switch (R20) -/
  host : Bool
  /-- second pass after decryption -/
  recirc : Bool
  /-- pipeline that dispatched the frame (R16) -/
  fp : Nat
  /-- reason of a Tephra copy, 0 when the frame is none (R92) -/
  mirror : Nat
  /-- original length and output port of a Tephra copy -/
  origLen : Nat
  dstSp : Nat
  /-- class of the frame that a Tephra copy was made of -/
  copyCls : Nat
  /-- number under which the copies of a multicast frame share one member list (R118) -/
  mcId : Option Nat
  /-- recorder stream of a RECORD copy -/
  stream : Option Nat
  /-- reason of TO_SVC -/
  svcReason : Option Nat
  /-- fabric header, once the frame is routed to or from another device -/
  fab : Option Fabric
  /-- Ethernet port from whose LS queue the frame was moved to its alternate's (R313) -/
  movedFrom : Option Nat
  /-- a one-step Sync that has passed an encrypt pass (R320) -/
  sync : Bool
  /-- receive timestamp of the port, as PTP seconds and nanoseconds (R318) -/
  stamp : Option (Nat × Nat)
  /-- device time of the first bit at the balls, and of admission -/
  rxAt : Nat
  admitAt : Nat
deriving DecidableEq, Repr

/-- One extract of a key profile (R104, record 0x0303). -/
structure Extract where
  layer : Nat
  off : Nat
  len : Nat
  ternary : Bool
deriving DecidableEq, Repr

/-- State of a key profile (R124). -/
inductive ProfState where
  | run | quiesce | stopped | error
deriving DecidableEq, Repr

/-- Member lists of a multicast group (R117, R118). -/
structure Group where
  active : List DWord
  /-- blocks of the active list -/
  activeBlocks : Nat
  /-- blocks of the shadow list: 32 entries each -/
  shadow : Map (List DWord)
deriving DecidableEq, Repr

/-- The member list of a multicast frame: read, with the descriptors that its members name, when its first copies are made, and used until
no output is left whose pass is to come (R118). -/
structure McList where
  group : Nat
  members : Option (List (DWord × Bytes))
  left : Nat
deriving DecidableEq, Repr

/-- A frame that waits for a cache-miss read (R97). -/
structure MissWait where
  frame : Frame
  key : Bytes
  ternKey : Bytes
  profile : Nat
  /-- bytes removed by parsing are none; layers found, for the ternary and action stages -/
  layers : Map Nat
deriving DecidableEq, Repr

/-- An entry of FLP_AGE_FIFO (R125). -/
structure AgeEntry where
  index : Nat
  key4 : Word
deriving DecidableEq, Repr

/-- The flow pipelines. -/
structure Flp where
  ready : Bool
  lsLoaded : Bool
  /-- parse nodes of 64 bytes (R99); start nodes by switch port, 0xFE for H0 and 0xFF for H1; key profiles; default results -/
  nodes : Map Bytes
  starts : Map Nat
  profiles : Map (List Extract)
  defaults : Map Bytes
  profState : Map ProfState
  /-- valid exact entries of 64 bytes by 4 × bucket + way (R105, R106), ternary rules of 192 bytes -/
  exact : Map Bytes
  ternary : Map Bytes
  /-- frames and bytes counted by entries with CNT_EN -/
  exactFrames : Map DWord
  exactBytes : Map DWord
  ternFrames : Map DWord
  ternBytes : Map DWord
  /-- tunnel descriptors of 64 bytes, L2 rewrite entries of 12 bytes -/
  tunnels : Map Bytes
  l2 : Map Bytes
  groups : Map Group
  /-- member lists of the multicast frames under way, by number of the frame -/
  mcLists : Map McList
  /-- free member blocks, and blocks of replaced lists (R118) -/
  blocksFree : Nat
  blocksRetired : Nat
  /-- frames dropped per shed instance (R61) -/
  shedDrops : Map DWord
  /-- cached exact entries by set, most recently used first; LS entries are pinned and not listed (R98) -/
  cache : Map (List Nat)
  /-- frames waiting for an ingress pass, by ingress pipeline -/
  ingress : Map (List Frame)
  /-- host-transmitted frames waiting for their egress pass, by H0 and H1 -/
  hostTx : Map (List Frame)
  /-- frames waiting for a cache-miss read, by pipeline -/
  waiting : Map (List MissWait)
  /-- frames that used a record with SAMPLE, by exact entry or 2^24 + rule or 2^25 + profile (R110) -/
  samples : Map Nat
  /-- aging scan: next bucket, a pass is under way (R125) -/
  ageNext : Nat
  ageScanning : Bool
  ageFifo : List AgeEntry
deriving DecidableEq, Repr

/-- A DWRR level: set.cur and the deficits (R139). -/
structure DwrrSet where
  cur : Nat
  deficit : Map Nat
deriving DecidableEq, Repr

end Sys2Proof.Machine
end

