-- ==== Sys2Proof/Machine/State/Cas.lean ====
section
/-! DEFINITION. State of the cascade controller (15_cascade.md). -/

namespace Sys2Proof.Machine

/-- State of a Gondola link (R362). -/
inductive LinkState where
  | down | training | verify | up | retrain | held
deriving DecidableEq, Repr

/-- A link frame that waits to be sent: its type, destination, originator and payload (R356). -/
structure LinkFrame where
  type : Nat
  dst : Nat
  src : Nat
  /-- LINK_LOCAL -/
  local_ : Bool
  payload : Bytes
deriving DecidableEq, Repr

/-- An unacknowledged frame in a replay buffer. -/
structure SentFrame where
  seq : Nat
  frame : LinkFrame
deriving DecidableEq, Repr

/-- One channel of a link (R359, R360). -/
structure LinkChannel where
  nextSeq : Nat
  expected : Nat
  /-- a frame has been accepted since the sequence state was reset -/
  heard : Bool
  replay : List SentFrame
  queue : List LinkFrame
  /-- DWRR of TLP and SLOT frames with fabric frames (R358) -/
  share : DwrrSet
  /-- NAK flag that this end sends -/
  nak : Bool
  /-- NAK episode of the far end already answered -/
  nakSeen : Bool
  /-- replays since the oldest frame last made progress -/
  replays : Nat
  /-- device time of the last ACK progress -/
  progressAt : Nat
deriving DecidableEq, Repr

/-- The sideband fields of a marker (R354). -/
structure Sideband where
  src : Nat
  alarm : AlarmState
  local_ : Bool
  rel : Nat
  drillGen : Nat
  stopGen : Nat
  map : Nat
deriving DecidableEq, Repr

/-- A Gondola link. -/
structure Link where
  state : LinkState
  /-- device time the state was entered -/
  since : Nat
  peer : Nat
  peerValid : Bool
  ch0 : LinkChannel
  ch1 : LinkChannel
  /-- sideband of the last accepted marker, and the sideband in effect (R355) -/
  lastMarker : Option Sideband
  sideband : Option Sideband
  /-- marker slots in sequence whose marker was not accepted -/
  missed : Nat
  /-- markers accepted since the link reached UP, at most 2 (R373) -/
  fresh : Nat
deriving DecidableEq, Repr

/-- The latest accepted TOPO of a device (R364). -/
structure Topo where
  serial : DWord
  role : Nat
  leaving : Bool
  cfgReady : Bool
  ver : Word
  peers : List Nat
deriving DecidableEq, Repr

/-- TLP frames that wait for a path change to settle (R370). -/
structure TlpHold where
  until_ : Nat
  frames : List LinkFrame
deriving DecidableEq, Repr

/-- The cascade controller. -/
structure Cas where
  ready : Bool
  links : Map Link
  /-- accepted TOPO by Cascade ID -/
  topo : Map Topo
  /-- TOPO_VER last sent (R364) -/
  topoVer : Word
  /-- hops to each reachable device, and the path set in force to it (R366) -/
  reach : Map Nat
  paths : Map (List (List Nat))
  /-- route epochs by destination, and the last epoch delivered from each source (R368) -/
  epochs : Map Nat
  lastEpoch : Map Nat
  /-- bits that left the view and are held, with the device time each hold ends (R372) -/
  mapHold : Map Nat
  /-- the view as last computed -/
  view : Nat
  /-- CAS_HELD -/
  heldMap : Nat
  drillGen : Nat
  stopGen : Nat
  tlpHold : Map TlpHold
  /-- indicators and POWER_OFF from the head (R375) -/
  attnInd : Nat
  pwrInd : Nat
  fnHeld : Bool
  /-- non-posted requests of the host under way to a member, by tag: the member -/
  hostReqs : Map Nat
deriving DecidableEq, Repr

end Sys2Proof.Machine
end

