-- ==== Sys2Proof/Machine/State/Cph.lean ====
section
/-! DEFINITION. State of the cipher complex (06_cipher_complex.md). -/

namespace Sys2Proof.Machine

/-- State of a key slot (R160), its key material, mark and receive window. -/
structure KeySlot where
  proto : Nat
  key256 : Bool
  tx : Bool
  ls : Bool
  near : Bool
  stopped : Bool
  pinned : Bool
  integrity : Bool
  limitLog2 : Nat
  generation : BitVec 16
  invocations : Nat
  pn : Nat
  param : Word
  replayWin : Nat
  /-- numbers accepted in the window: bit k stands for pn − k -/
  seen : Nat
  /-- a receive slot has accepted a number -/
  anySeen : Bool
  /-- high-water mark as committed (R167), a CKPT request is outstanding -/
  high : Nat
  ckpt : Bool
  /-- the working copy in HBM is damaged (R172) -/
  damaged : Bool
  key : Bytes
  salt : Bytes
  passes : DWord
  authFail : DWord
  replayDrop : DWord
  limitDrop : DWord
deriving DecidableEq, Repr

/-- Where the frame of a pass goes when it is released. -/
inductive PassThen where
  /-- second ingress lookup in the pipeline that dispatched it (R114) -/
  | recirculate
  /-- the point that follows the egress pass of an output (R115) -/
  | egress (sp : Nat)
  /-- admission at the input of a host port (R20) -/
  | toSwitch (sp : Nat)
deriving DecidableEq, Repr

/-- How far a pass has come. -/
inductive PassState where
  /-- in the miss queue (R164) -/
  | parked
  /-- queued on an engine, running, suspended -/
  | queued (e : Nat)
  | running (e : Nat)
  | suspended (e : Nat)
  /-- verified, in the hold buffer of its engine or in the release buffer (R150) -/
  | held (e : Nat)
  | buffered
deriving DecidableEq, Repr

/-- A cipher pass of a frame, bound to its key (R163). -/
structure Pass where
  slot : Nat
  generation : BitVec 16
  /-- dispatched once: the key and number are fixed (R163) -/
  bound : Bool
  proto : Nat
  enc : Bool
  ls : Bool
  key : Bytes
  salt : Bytes
  integrity : Bool
  param : Word
  /-- the number the pass carries: PN, ESN, SRTP index -/
  number : Nat
  frame : Frame
  /-- payload bytes that the pass runs over (R146) -/
  payload : Nat
  /-- descriptor of the encapsulation or decapsulation -/
  desc : Bytes
  next : PassThen
  state : PassState
  /-- device time the pass started -/
  started : Nat
  suspensions : Nat
deriving DecidableEq, Repr

/-- A frame that waits for a cipher pass. -/
structure CipherWork where
  frame : Frame
  desc : Bytes
  enc : Bool
  next : PassThen
deriving DecidableEq, Repr

/-- An entry of CPH_NEAR_FIFO. -/
structure NearEntry where
  slot : Nat
  limit : Bool
deriving DecidableEq, Repr

/-- The cipher complex. -/
structure Cph where
  ready : Bool
  keysReady : Bool
  slots : Map KeySlot
  /-- cached slots that are not pinned, most recently used first (R164) -/
  cached : List Nat
  /-- engines that are fenced (R154) -/
  fenced : Map Bool
  /-- engines that have lost power since their known-answer test; one that regains it is tested before it is dispatched (R154) -/
  untested : BitVec 256
  /-- passes in dispatch order: the number is the place in the order of its domain (R149) -/
  passes : Map Pass
  nextPass : Nat
  /-- decrypt frames from SP25, those of its LS queue apart; hand-over queues of FP2 and FP3; the LS dispatch queue -/
  decryptIn : List CipherWork
  decryptLs : List CipherWork
  handover : Map (List CipherWork)
  lsDispatch : List CipherWork
  nearFifo : List NearEntry
  /-- slots whose pinned entry has been lost from the cache, until it is loaded again (R172) -/
  lostEntries : List Nat
  /-- slots for which a job waits in the miss queue (R164) -/
  jobMisses : List Nat
  /-- device time EMERGENCY or DRILL was driven, for R153 -/
  entryAt : Option Nat
deriving DecidableEq, Repr

end Sys2Proof.Machine
end

