-- ==== Sys2Proof/Machine/State/Crt.lean ====
section
/-! DEFINITION. State of the Crater trusted island and its key store (17_crater.md), of the mailboxes (18_mailboxes.md)
and of the SMBus management port. -/

namespace Sys2Proof.Machine

/-- The security state (R403). -/
inductive SecState where
  | operational | degraded | zeroised
deriving DecidableEq, Repr

/-- One copy of a slot in the key store (R405). -/
structure KeyCopy where
  slot : BitVec 16
  generation : BitVec 16
  proto : BitVec 8
  flags : BitVec 8
  limitLog2 : BitVec 8
  startPn : DWord
  param : Word
  replayWin : Word
  iv : Bytes
  /-- key and salt under KSK -/
  cipher : Bytes
  mac : Bytes
deriving DecidableEq, Repr

/-- One commit line of a slot (R406). -/
structure CommitLine where
  slot : BitVec 16
  cseq : DWord
  generation : BitVec 16
  /-- 0 empty, 1 copy A, 2 copy B -/
  current : BitVec 8
  /-- high-water mark H -/
  high : BitVec 48
  iv : Bytes
  mac : Bytes
deriving DecidableEq, Repr

/-- A slot of the key store; a line or copy cut off by a power failure is absent (R404, R411). -/
structure StoreSlot where
  copyA : Option KeyCopy
  copyB : Option KeyCopy
  c0 : Option CommitLine
  c1 : Option CommitLine
deriving DecidableEq, Repr

/-- A key operation recorded in Crater retention (R409). -/
structure KeyOp where
  slot : BitVec 16
  /-- false install, true retire -/
  retire : Bool
  expectGen : BitVec 16
deriving DecidableEq, Repr

/-- Last accepted sequence number of an originator (R52). -/
structure LastSeq where
  origin : DWord
  seq : Word
deriving DecidableEq, Repr

/-- Crater retention: 16 KiB of the retained SRAM (R399). -/
structure Retention where
  /-- the CRC32C over it is good -/
  valid : Bool
  emsgSeq : List LastSeq
  mgmtSeq : List LastSeq
  active : List ActiveOrigin
  holdover : Bool
  loopEpochs : Map Word
  topoVer : Word
  wakeMsgs : List HeldMessage
  keyOp : Option KeyOp
  zeroisePending : Bool
  /-- CRT_TAMPER_STATUS.TRIPPED and VALID -/
  tripped : BitVec 5
  trippedValid : Bool
deriving DecidableEq, Repr

/-- The signed patch area of NVM (R398, R400 step 2). -/
structure PatchArea where
  body : Bytes
  signature : Bytes
  svn : Nat
deriving DecidableEq, Repr

/-- An install blob or retire blob that an admin command handed to Crater and that waits or runs (R409, R410). -/
structure KeyJob where
  /-- true retire, false install -/
  retire : Bool
  blob : Bytes
  /-- taken up by Crater, and past the checks of R162 -/
  taken : Bool
  /-- its admin ring has been reset: nothing is reported -/
  orphan : Bool
deriving DecidableEq, Repr

/-- Slot numbers that the image gives Crater's services (R435 0x0504, R543). -/
structure SlotRoles where
  emergency : Nat
  management : Nat
  cascade : Nat
  attestation : Nat
  recorder : Nat
  chain : Nat
  transport : Nat
deriving DecidableEq, Repr

/-- Crater. -/
structure Crt where
  sec : SecState
  /-- CRT_DEG_CAUSE -/
  degCause : BitVec 4
  fallback : Bool
  patchOk : Bool
  lsKeysReady : Bool
  nonApproved : Bool
  cryptoOff : Bool
  /-- a CRATER restart is under way (R453) -/
  restarting : Bool
  /-- device time at which the latest restart began (R453) -/
  restartAt : Nat
  /-- CRT_RESTART.CAUSE -/
  restartCause : BitVec 2
  /-- BOOT_COUNT as committed, and the sequence of its two lines (R404, R407) -/
  bootCount : Word
  bootCseq : DWord
  /-- WRITE_COUNT (R407) -/
  writeCount : DWord
  /-- the SEED of the key store header, absent when zeroised or never provisioned (R439) -/
  seed : Option Bytes
  /-- the ZEROISED marker of the key store header -/
  zeroMarker : Bool
  /-- key store slots (R404) -/
  store : Map StoreSlot
  /-- Crater retention, and the NVM mirror of its SEQ values -/
  ret : Retention
  mirrorEmsg : List LastSeq
  mirrorMgmt : List LastSeq
  /-- CRT_KEYOP and CRT_KEYOP_GEN (R412) -/
  keyop : Option KeyOp
  keyopCommitted : Bool
  keyopFound : BitVec 16
  /-- key commands of the admin rings, oldest first (R410) -/
  keyJobs : List KeyJob
  /-- tamper sources in their trip condition, and since when (R415) -/
  live : BitVec 5
  liveSince : Map Nat
  tamperNEn : Bool
  coldEn : Bool
  /-- SVN of the active image, SHA-384 of its signed body, IMAGE_VER -/
  svnImage : BitVec 16
  bodyHash : Bytes
  imageVer : DWord
  patch : Option PatchArea
  /-- OTP: SHA-384 hashes of the owner keys that are programmed and not revoked, at most four (R398) -/
  ownerKeys : List Bytes
  patchHash : Bytes
  roles : SlotRoles
  /-- image: management originators with their authority bits (R339) -/
  mgmtOriginators : Map Nat
deriving DecidableEq, Repr

/-- One mailbox channel (R420–R424). -/
structure MbxChan where
  word : DWord
  /-- LO halves written and not committed: by the party and by the far end -/
  loNear : Word
  loFar : Word
  full : Bool
  /-- secure channels: Crater's turn -/
  turn : Bool
  empty : Bool
  err : Bool
  /-- PEER_RESET at the PF or management end, and at the service end -/
  peerResetHost : Bool
  peerResetSvc : Bool
  emptyEn : Bool
  db : Word
  dbMask : Word
  thread : BitVec 8
  vector : BitVec 11
deriving DecidableEq, Repr

/-- Mailboxes and the SMBus port. -/
structure Mbx where
  /-- MBNn is channel n, MBSn is channel 32 + n -/
  chans : Map MbxChan
  /-- secure channels whose request waits for Crater, in commit order (R422) -/
  requests : List Nat
  /-- request words that Crater has read and not answered, by channel -/
  taken : Map DWord
  /-- secure channels whose answer is to be discarded (R426) -/
  discard : List Nat
  /-- MCTP response not yet delivered and the arbitration losses it met (R532) -/
  smbResponse : Option Bytes
  smbRetries : Nat
  /-- SMB_ERRSRC (R532) -/
  smbErrsrc : BitVec 8
deriving DecidableEq, Repr

end Sys2Proof.Machine
end

