-- ==== Sys2Proof/Machine/State/Wqm.lean ====
section
/-! DEFINITION. State of the virtual function manager (09_virtual_functions.md) and of the work queue manager
(10_work_queues.md). -/

namespace Sys2Proof.Machine

/-- A resource record (R236). -/
structure ResRecord where
  queueBase : Nat
  queueCount : Nat
  storqBase : Nat
  storqCount : Nat
  spreadBase : Nat
  spreadLog2 : Nat
  txsEn : Bool
  rxsEn : Bool
  svcDma : Bool
  txShaper : Nat
  rxShaper : Nat
  /-- WEIGHT0–WEIGHT6 -/
  weights : List Nat
  shed : Nat
  maxReads : Nat
  dmaWeight : Nat
  maxTokens : Nat
  storCmds : Nat
deriving DecidableEq, Repr

/-- Function state (R240). -/
inductive FnState where
  | run | quiesce | stopped | error
deriving DecidableEq, Repr

/-- State machine of one instance. -/
structure Fn where
  state : FnState
  /-- device time of the QUIESCE -/
  since : Nat
  /-- admin rings whose VF_STATE QUIESCE waits for the drain -/
  waiters : List Bool
deriving DecidableEq, Repr

/-- A DTU segment (R243). -/
structure DtuSegment where
  dva : Nat
  len : Nat
  host : Nat
  read : Bool
  write : Bool
  valid : Bool
  /-- engines that may use it: storage, recorder, service, key -/
  engines : BitVec 4
  /-- an uncorrectable error has made it invalid (R249) -/
  damaged : Bool
deriving DecidableEq, Repr

/-- The virtual function manager. -/
structure Vfm where
  /-- committed records and the records in force after the latest sweep (R238), by instance; unlisted: the VF defaults -/
  records : Map ResRecord
  inForce : Map ResRecord
  /-- PF record of the image (R241) -/
  pfImage : ResRecord
  fns : Map Fn
  /-- segments by 64 × instance + segment -/
  segments : Map DtuSegment
  /-- cached translations, oldest first, at most 1,024 (R244) -/
  cache : List Nat
  /-- DTU_UNMAP commands whose accesses have not finished: instance, admin ring (R245) -/
  unmaps : List (Nat × Bool)
deriving DecidableEq, Repr

/-- Type of a queue pair (R250). -/
inductive QueueType where
  | tx | rx | stor | admin
deriving DecidableEq, Repr

/-- State of a queue pair (R265). -/
inductive QueueState where
  | disabled | run | error
deriving DecidableEq, Repr

/-- What a finished job puts into its completion entry (R258). -/
structure JobResult where
  status : BitVec 8
  count : Word
  value : DWord
  tstamp : Bool
  qerr : Bool
  first : Bool
  last : Bool
deriving DecidableEq, Repr

/-- How far a job has come. -/
inductive JobPhase where
  /-- fetched, not begun -/
  | waiting
  /-- the device has begun to act on it (R265 step 2) -/
  | executing
  /-- finished: its entry is to be written in order -/
  | done (r : JobResult)
deriving DecidableEq, Repr

/-- One job of a queue: its descriptors, its indices and its progress. -/
structure Job where
  /-- posted count of its last descriptor, its SQ index modulo the ring size -/
  lastPos : Nat
  descs : List Bytes
  phase : JobPhase
  /-- bytes placed or gathered so far -/
  data : Bytes
  /-- device time a BARRIER read is outstanding -/
  barrier : Bool
deriving DecidableEq, Repr

/-- A QUEUE_RESET under way or waiting (R265): its mode and the admin ring that issued it, none for WQM_QCTL. -/
structure QueueResetReq where
  disable : Bool
  ring : Option Bool
  /-- tail held at its commit, in posted descriptors -/
  tail : Nat
  /-- the jobs in execution have finished, and the rest has been returned FLUSHED -/
  started : Bool
  /-- jobs returned FLUSHED -/
  flushed : Nat
deriving DecidableEq, Repr

/-- Context of a queue pair. Positions count descriptors and entries since the queue was configured. -/
structure Queue where
  state : QueueState
  kind : QueueType
  inst : Nat
  sqLog2 : Nat
  cqLog2 : Nat
  sqBase : Nat
  cqBase : Nat
  /-- descriptors posted, fetched and freed -/
  tail : Nat
  fetched : Nat
  freed : Nat
  /-- entries written and consumed -/
  written : Nat
  cqHead : Nat
  vector : Nat
  modCount : Nat
  modUs : Nat
  tstamp : Bool
  storq : Nat
  /-- set up from the image (R542) -/
  ls : Bool
  armed : Bool
  unsignalled : Nat
  firstUnsig : Option Nat
  /-- pushed descriptors not yet started, by position (R257) -/
  pushed : Map Bytes
  jobs : List Job
  /-- descriptors of the open chain -/
  chain : List Bytes
  /-- WQM_QERR -/
  qerr : Option (Nat × BitVec 8)
  /-- resets, the first one under way -/
  resets : List QueueResetReq
deriving DecidableEq, Repr

/-- A deficit round robin among instances whose operations all cost the same: the instance whose turn it is, and the operations that it
may still begin in this turn (R239). -/
structure Turn where
  cur : Nat
  left : Nat
deriving DecidableEq, Repr

/-- The work queue manager. Queue pair 65,536 is the service admin ring (R266). -/
structure Wqm where
  queues : Map Queue
  /-- image records 0x0406 (R542) -/
  lsImage : Map Queue
  /-- ENABLE of an admin ring has been cleared while a command runs: PF ring, service ring -/
  closing : List Bool
  /-- DWRR of descriptor fetch on DMA_WEIGHT (R239, R253) -/
  turn : Turn
deriving DecidableEq, Repr

end Sys2Proof.Machine
end

