-- ==== Sys2Proof/Machine/State/Dma.lean ====
section
/-! DEFINITION. State of the DMA engine (11_dma_channel_programs.md). -/

namespace Sys2Proof.Machine

/-- State of a channel (R275). -/
inductive ChState where
  | idle | run | wait | paused | faulted
deriving DecidableEq, Repr

/-- What a channel in WAIT, or an instruction that has not retired, waits for. -/
inductive ChWait where
  /-- one request of a line, for a WAIT REQ -/
  | req (line : Nat)
  /-- the device time at which a WAIT TIME of `ns` ends -/
  | time (ns until_ : Nat)
  /-- one request of a line, for the next burst of a paced MOVE -/
  | burst (line : Nat)
  /-- earlier writes, then the flushing read of a FENCE -/
  | fence (flush : Bool)
  /-- the data of a LOAD -/
  | load
  /-- the last write of a halting program -/
  | halt
deriving DecidableEq, Repr

/-- A MOVE or FILL under way (R280). -/
structure Transfer where
  fill : Bool
  bsz : Nat
  /-- line that paces the bursts -/
  pace : Option Nat
  sfix : Bool
  dfix : Bool
  ro : Bool
  /-- a request has been taken for the next burst -/
  granted : Bool
  /-- the read of the next burst is outstanding -/
  issued : Bool
  /-- data of the next burst, read and not written -/
  data : Option Bytes
deriving DecidableEq, Repr

/-- One level of the loop stack (R283). -/
structure LoopLevel where
  first : Nat
  last : Nat
  reg : Nat
deriving DecidableEq, Repr

/-- A recorded fault (R286). -/
structure ChFault where
  status : BitVec 8
  /-- 0 instruction, 1 read, 2 write -/
  kind : BitVec 2
  depth : Nat
  addr : DWord
deriving DecidableEq, Repr

/-- A DMA channel. -/
structure Channel where
  state : ChState
  base : Nat
  last : Nat
  pc : Nat
  /-- mode in force: instance, source and destination space (R278) -/
  inst : Nat
  src : BitVec 2
  dst : BitVec 2
  /-- mode that START takes: the value written to DMA_CH_MODE, or the initial mode of R272 -/
  modeWritten : Bool
  /-- C0–C7 -/
  c : List DWord
  /-- words of program memory that the channel fetched before they were rewritten, by word number (R274) -/
  ahead : Map DWord
  /-- loop stack, innermost level first -/
  loops : List LoopLevel
  /-- PAUSE -/
  pauseReq : Bool
  aborting : Bool
  waiting : Option ChWait
  xfer : Option Transfer
  fault : Option ChFault
  /-- DMA_CH_END: 0 none, 1 HALT, 2 ABORT -/
  endCode : BitVec 2
  sigcode : BitVec 16
  err : Bool
  /-- stalled by Bus Master Enable (R289) -/
  held : Bool
  /-- function and host address of the last write, for FENCE FLUSH; none where it did not go to the host -/
  lastWrite : Option (Nat × Nat)
  /-- the thread that wrote START; none for the PF -/
  thread : Option Nat
  /-- the owner thread was reset: no notification (R289) -/
  orphan : Bool
deriving DecidableEq, Repr

/-- The DMA engine. -/
structure Dma where
  chans : Map Channel
  /-- program memory, 8,192 words -/
  pmem : Map DWord
  /-- pending counts of the request lines, and the channel each served last (R282) -/
  reqs : Map Nat
  served : Map Nat
  /-- device time of the next assertion of a running timer -/
  timers : Map Nat
  /-- DWRR of read issue on DMA_WEIGHT among instances, and the channel of each instance that issued last (R273) -/
  turn : Turn
  lastIssue : Map Nat
deriving DecidableEq, Repr

end Sys2Proof.Machine
end

