-- ==== Sys2Proof/Machine/State/Eth.lean ====
section
/-! DEFINITION. State of the Ethernet ports (13_ethernet_ports.md). -/

namespace Sys2Proof.Machine

/-- Lane-group mode (R304, ETH_GRP_STATUS.MODE). -/
inductive GroupMode where
  | one400 | two200 | four100 | down
deriving DecidableEq, Repr

/-- State of a transmit synthesiser (R311). -/
inductive Synth where
  | notReady | ready | calibrating | fault
deriving DecidableEq, Repr

/-- A station entry (R308). -/
structure Station where
  mac : BitVec 48
  valid : Bool
deriving DecidableEq, Repr

/-- A transmit timestamp capture (R319). -/
structure TsCapture where
  seqId : BitVec 16
  msgType : BitVec 4
  domain : BitVec 8
  sec : BitVec 48
  ns : Word
deriving DecidableEq, Repr

/-- A rate limit: tokens left, in frames × 10^9, and the device time they were counted at (R309). -/
structure RateBucket where
  tokens : Nat
  at_ : Nat
deriving DecidableEq, Repr

/-- One logical port. -/
structure EthPort where
  /-- the mode in force uses the port, or a power state has powered it down and it is held (R17, R305, R462) -/
  inUse : Bool
  link : Bool
  /-- device time the transmit hold began (R312) -/
  holdFrom : Option Nat
  overLimit : Bool
  redirecting : Bool
  /-- device time at which the received PFC pause ends (R316) -/
  pausedUntil : Option Nat
  xoff : Bool
  /-- device time of the next XOFF repeat -/
  xoffNext : Nat
  /-- LS alternate port of the image -/
  alt : Option Nat
  /-- station entries 0–15 -/
  stations : Map Station
  craterRate : RateBucket
  ptpRate : RateBucket
  /-- transmit timestamp FIFO, at most 64, oldest first -/
  captures : List TsCapture
  /-- its lane group has power -/
  powered : Bool
  /-- an LS frame has been moved in the present hold (R313) -/
  lsMoved : Bool
deriving DecidableEq, Repr

/-- One lane group. -/
structure EthGroup where
  imageMode : GroupMode
  mode : GroupMode
  synth : Synth
  /-- device time the present state was entered -/
  since : Nat
  /-- device time a recalibration became due (R314) -/
  dueFrom : Option Nat
  /-- device time the last calibration ended and junction temperature then -/
  calAt : Nat
  calTemp : Int
  /-- device time from which the due recalibration could start: when it became due, or when NORMAL ended its deferral (R314, R315) -/
  startFrom : Nat
deriving DecidableEq, Repr

/-- The Ethernet block. -/
structure Eth where
  ready : Bool
  ports : Map EthPort
  groups : Map EthGroup
deriving DecidableEq, Repr

end Sys2Proof.Machine
end

