-- ==== Sys2Proof/Machine/State/Hep.lean ====
section
/-! DEFINITION. State of the host endpoint (08_host_endpoint.md). -/

namespace Sys2Proof.Machine

/-- A posted write or MSI-X message held by a clear Bus Master Enable (R218). -/
inductive HeldOut where
  /-- `segs` are the DTU segments that translated it, `old` says that one of them has been made invalid since (R245) -/
  | write (addr : Nat) (bytes : Bytes) (ro : Bool) (segs : List Nat) (old : Bool)
  | msix (vec : Nat)
  /-- a read of `len` bytes whose tag is taken: a flushing read behind the writes it flushes (R220), or the next request of a longer read -/
  | read (addr len tag : Nat)
deriving DecidableEq, Repr

/-- One PCI Express function: its enables, power state, FLR, configuration registers, MSI-X structures and held writes. -/
structure Func where
  /-- Bus Master Enable (R218) -/
  bme : Bool
  /-- Memory Space Enable (R217) -/
  mse : Bool
  /-- D3hot (R206) -/
  d3hot : Bool
  /-- an FLR is under way since this device time (R225) -/
  flrFrom : Option Nat
  /-- device time at which the FLR was written, or its latest tag came back, timed out or was quarantined (R228) -/
  flrTagAt : Nat
  /-- a tag of the FLR timed out or was quarantined -/
  flrTimedOut : Bool
  /-- MSI-X Enable and Function Mask -/
  msixEnable : Bool
  msixFnMask : Bool
  /-- MSI-X table, register 4 v + i of vector v; an unlisted Vector Control reads masked -/
  msix : Map Word
  /-- Pending Bit Array -/
  pba : Map Bool
  /-- writable configuration registers, by register number -/
  cfg : Map Word
  /-- held writes and messages, oldest first (R218) -/
  held : List HeldOut
deriving DecidableEq, Repr

/-- What a read that the device sent to host memory is for. -/
inductive ReadFor where
  /-- one descriptor of queue pair qp at SQ index idx (R253) -/
  | descriptor (qp idx : Nat)
  /-- data of the job of queue pair qp at SQ index idx -/
  | jobData (qp idx : Nat)
  /-- the flushing read of a BARRIER job (R220) -/
  | barrier (qp idx : Nat)
  /-- a burst of DMA channel ch (R280) -/
  | burst (ch : Nat)
  /-- a LOAD of DMA channel ch -/
  | load (ch : Nat)
  /-- the flushing read of a FENCE of DMA channel ch -/
  | fence (ch : Nat)
  /-- the nonce of an ATTEST request on secure channel ch (R413) -/
  | attest (ch : Nat)
deriving DecidableEq, Repr

/-- One non-posted request of the device that has not been answered (R222–R226). -/
structure TagEntry where
  fn : Nat
  purpose : ReadFor
  /-- bytes of the whole read, bytes that the requests sent so far ask for, and bytes received -/
  len : Nat
  upTo : Nat
  got : Bytes
  /-- the requests still to be sent, each once the one before it has been answered: none asks for more than Max Read Request Size
  (R204) -/
  rest : List (Nat × Nat)
  /-- device time of issue -/
  issued : Nat
  /-- completion timeout in ns, none when disabled (R224) -/
  timeout : Option Nat
  /-- the operation that asked is gone: its completion is discarded -/
  abandoned : Bool
  /-- counted in HEP_TAGS.QUARANTINED -/
  quarantined : Bool
  /-- DTU segments that translated it, and whether one of them has been made invalid since (R245) -/
  segs : List Nat
  old : Bool
deriving DecidableEq, Repr

/-- A flushing read that waits for a tag (R220, R232, R239). -/
structure FlushWait where
  fn : Nat
  addr : Nat
  purpose : ReadFor
  segs : List Nat
deriving DecidableEq, Repr

/-- One downstream port of the virtual switch of a head (R229–R231). -/
structure VswPort where
  present : Bool
  dllActive : Bool
  /-- Power Controller Control -/
  powerOff : Bool
  attnInd : BitVec 2
  pwrInd : BitVec 2
  /-- Slot Status: attention button, presence changed, command completed, link state changed -/
  attnPressed : Bool
  presenceChanged : Bool
  cmdCompleted : Bool
  dllChanged : Bool
  /-- Slot Control as last written -/
  slotCtl : BitVec 16
deriving DecidableEq, Repr

/-- One member table entry of the DDT (R213). -/
structure DdtMember where
  /-- 0 absent, 1 joining, 2 present, 3 lost -/
  state : Nat
  hops : Nat
  buses : Nat
  serial : DWord
deriving DecidableEq, Repr

/-- The endpoint. -/
structure Hep where
  linkUp : Bool
  /-- HEP_STATUS.SPEED code and WIDTH -/
  speed : Nat
  width : Nat
  flit : Bool
  /-- level of PERST_N: true is deasserted -/
  perstHigh : Bool
  /-- configuration ready reached for this link (R216) -/
  cfgReady : Bool
  /-- configuration ready has been reached since the link was last down: the ports of a head answer, also while its own functions are
  held or reset by a port (R216, R231, R450) -/
  portsReady : Bool
  /-- a HOST reset has acted and configuration ready has not been reached since (R452) -/
  inReset : Bool
  /-- device time from which the bounds of R215 for PERST_N deasserted, or a hot reset ended, run -/
  readyFrom : Nat
  /-- HEP_STATUS.OPERATIONAL -/
  operational : Bool
  /-- functions by instance: VF n is n, the PF is 4,096 (R234); downstream port k is 8,192 + k, the upstream port 8,191 -/
  fns : Map Func
  /-- NumVFs as stored, and VF Enable (R209) -/
  numVfs : BitVec 16
  vfEnable : Bool
  /-- outstanding non-posted requests by tag -/
  tags : Map TagEntry
  /-- flushing reads that wait for a limit of R204, R232 or R239 to allow them, oldest first -/
  flushWait : List FlushWait
  /-- downstream ports by Cascade ID -/
  vsw : Map VswPort
  /-- DDT as built, member table and DDT_GEN apart (R212) -/
  ddt : Bytes
  members : Map DdtMember
  ddtGen : Word
  /-- head: reads of members that the host has not answered, by 2^20 × (member + 1) + tag: bytes still owed (R232, R233) -/
  memberReads : Map Nat
deriving DecidableEq, Repr

end Sys2Proof.Machine
end

