-- ==== Sys2Proof/Machine/State/Ident.lean ====
section
/-! DEFINITION. The identity that the image gives the device (record 0x0101 of R435). -/

namespace Sys2Proof.Machine

/-- Role of the device (R36 on, HEP_STATUS.ROLE). -/
inductive Role where
  | standalone | head | member
deriving DecidableEq, Repr

/-- Identity in the Cascade. -/
structure Ident where
  role : Role
  cid : Nat
  /-- devices of the Cascade as configured -/
  devices : Nat
  /-- 0 none, 1 fan-out-3 tree, 2 dual-homed ladder -/
  topology : Nat
  /-- Cascade IDs expected behind G0–G3 -/
  peers : Map Nat
  /-- CASCADE_TAG (R363) -/
  tag : DWord
deriving DecidableEq, Repr

end Sys2Proof.Machine
end

