-- ==== Sys2Proof/Machine/State/Str.lean ====
section
/-! DEFINITION. State of the storage engine, the Sinter recorder and the message player (07_storage_recorder.md). -/

namespace Sys2Proof.Machine

/-- State of a connection (R176). -/
inductive ConnState where
  | idle | opening | ready | closing | failed
deriving DecidableEq, Repr

/-- How far an open has come (R176). -/
inductive OpenPhase where
  | syn | icReq | connect | done
deriving DecidableEq, Repr

/-- The TCP state of a connection (R174, R175). Sequence numbers are modulo 2^32. -/
structure Tcp where
  established : Bool
  una : Nat
  nxt : Nat
  rcvNxt : Nat
  sndWnd : Nat
  sndScale : Nat
  rcvScale : Nat
  mss : Nat
  cwnd : Nat
  ssthresh : Nat
  dupAcks : Nat
  recover : Option Nat
  /-- end of what has been retransmitted in the recovery -/
  highRxt : Nat
  /-- bytes from `una` on: sent and unacknowledged, then unsent -/
  sendBuf : Bytes
  /-- peer permits SACK; sequence ranges above `una` that the peer holds -/
  sackOk : Bool
  sacked : List (Nat × Nat)
  /-- peer uses timestamps; TS.Recent -/
  tsOk : Bool
  tsRecent : Nat
  /-- peer agreed to ECN, a CE mark is to be echoed, a reduction is to be reported -/
  ecnOk : Bool
  ecnEcho : Bool
  cwr : Bool
  /-- end of the window in which the congestion window has been reduced for a mark (RFC 3168) -/
  ecnPoint : Option Nat
  /-- retransmission: deadline, timeout in force, smoothed round trip and its variation, timed segment -/
  rtoAt : Option Nat
  rto : Nat
  srtt : Option Nat
  rttvar : Nat
  timed : Option (Nat × Nat)
  retries : Nat
  /-- how often each unacknowledged segment has been sent again, by its sequence number (R175) -/
  resent : Map Nat
  /-- delayed ACK: deadline, segments since the last ACK -/
  ackAt : Option Nat
  ackSegs : Nat
  /-- received bytes in order and not yet taken, and blocks out of order by sequence number -/
  rxBuf : Bytes
  ooo : Map Bytes
  /-- latest activity, unanswered keepalive probes -/
  aliveAt : Nat
  probes : Nat
deriving DecidableEq, Repr

/-- What a CID of a connection stands for. -/
inductive CidUse where
  /-- sub-command `sub` of command `cmd` -/
  | sub (cmd sub : Nat)
  /-- held until its response arrives (R185): the command that it belonged to holds its work token so long (R34, R246) -/
  | held (cmd : Nat)
  /-- the Fabrics Connect command of the open -/
  | connect
  /-- a raw capsule of an admin ring (R267): ring, data address, data length, write data -/
  | raw (ring : Bool) (addr len : Nat)
deriving DecidableEq, Repr

/-- A connection. -/
structure Conn where
  state : ConnState
  phase : OpenPhase
  /-- opened from the image for the recorder -/
  recorder : Bool
  port : Nat
  v6 : Bool
  hdgst : Bool
  ddgst : Bool
  ecn : Bool
  cls : Nat
  qsize : Nat
  lport : Nat
  rport : Nat
  qid : Nat
  laddr : Bytes
  raddr : Bytes
  mac : Bytes
  vlan : Nat
  connectData : Bytes
  maxH2c : Nat
  openedAt : Nat
  tcp : Tcp
  cids : Map CidUse
  nextCid : Nat
  /-- write data of a raw capsule, and read data received -/
  rawData : Bytes
  /-- a data digest of the raw capsule's data has not matched (R179) -/
  rawBad : Bool
  /-- admin rings whose STOR_CONNECT or STOR_DISCONNECT waits -/
  opener : Option Bool
  closer : Option Bool
deriving DecidableEq, Repr

/-- Progress of a sub-command. -/
inductive SubState where
  | unsent
  /-- sent under a CID; a data digest mismatch has met it (R179) -/
  | sent (cid : Nat) (bad : Bool)
  /-- ended with an NVMe status -/
  | ended (nvme : Nat) (bad : Bool)
  /-- its connection failed (R175) -/
  | lost
deriving DecidableEq, Repr

/-- A sub-command (R182). -/
structure SubCmd where
  conn : Nat
  nsid : Nat
  lba : Nat
  blocks : Nat
  /-- its place in the command's data, and in the bytes of the remote format -/
  off : Nat
  len : Nat
  woff : Nat
  wlen : Nat
  /-- its extent is encrypted -/
  enc : Bool
  state : SubState
deriving DecidableEq, Repr

/-- Who issued a storage command. -/
inductive CmdOwner where
  /-- job of a storage queue, by the position of its descriptor -/
  | queue (qp pos : Nat)
  /-- the recorder: bytes up to this offset of the log -/
  | journal (upTo : Nat)
  /-- JNL_READ, by the position of its descriptor in the PF admin ring: the region byte at which its range begins -/
  | jnl (pos off : Nat)
  /-- the job that issued it is gone -/
  | gone
deriving DecidableEq, Repr

/-- A storage command whose sub-commands have been issued. -/
structure StorCmd where
  owner : CmdOwner
  inst : Nat
  write : Bool
  nsid : Nat
  slba : Nat
  keySlot : Nat
  dva : Nat
  len : Nat
  ro : Bool
  subs : List SubCmd
  /-- bytes on the wire of the remote format: to be written, or as read so far -/
  wire : Bytes
  /-- the data to be written are there: sub-commands may be sent -/
  ready : Bool
  /-- data to be written that have been read and wait for their cipher passes (R148) -/
  plain : Option Bytes
  /-- device time the first sub-command was sent -/
  startedAt : Option Nat
  /-- host address of the last byte that has been written for it (R220) -/
  lastByte : Option Nat
deriving DecidableEq, Repr

/-- What a record says beside its payload (R189). -/
structure RecordForm where
  type : Nat
  stream : Nat
  flags : Nat
  count : Nat
  arg : Nat
  payload : Bytes
  /-- it may use the reserve of the staging buffer (R191) -/
  reserve : Bool
deriving DecidableEq, Repr

/-- A record that is not durable yet: SEQ, the log offset behind it, its CHAIN. -/
structure RecordMark where
  seq : Nat
  stop : Nat
  chain : Bytes
deriving DecidableEq, Repr

/-- The anchor in NVM (R193), and the bytes of the anchored record's last 4 KiB block, as the target holds them. -/
structure Anchor where
  seq : Nat
  off : Nat
  chain : Bytes
  part : Bytes
deriving DecidableEq, Repr

/-- The capture that is open (R194). -/
inductive Capture where
  | none | emergency | drill
deriving DecidableEq, Repr

/-- The recorder. Offsets count bytes of the log from the region's first byte and do not wrap. -/
structure Recorder where
  on : Bool
  nextSeq : Nat
  durable : Nat
  /-- bytes appended, bytes flushed, bytes durable -/
  head : Nat
  flushed : Nat
  written : Nat
  prevChain : Bytes
  capture : Capture
  stopped : Bool
  /-- the second of device time that is counted, its records and payload bytes (R190) -/
  second : Nat
  secRecords : Nat
  secBytes : Nat
  /-- lost since the last GAP record -/
  lost : Nat
  /-- records that wait for their passes or for the high-water mark of SEQ (R167, R193) -/
  waiting : List RecordForm
  /-- the staged bytes from the 4 KiB block that holds the end of the last durable record -/
  staged : Bytes
  stagedFrom : Nat
  marks : List RecordMark
  /-- anchor and SEQ high-water mark as committed in NVM -/
  anchor : Option Anchor
  high : Nat
  anchorAt : Option Nat
  /-- CAPTURE records whose anchor is owed, by SEQ -/
  owed : List Nat
  lastDurable : Option RecordMark
  flushAt : Nat
  /-- a journal write has been completed by the target and not taken in: bytes up to this offset -/
  doneTo : Option Nat
deriving DecidableEq, Repr

/-- Samples for the recorder, with the media-clock count of the first (R189). -/
structure AudioChunk where
  at_ : Nat
  bytes : Bytes
deriving DecidableEq, Repr

/-- State of a play channel. -/
inductive PlayState where
  | idle | playing | fading
deriving DecidableEq, Repr

/-- A play channel (R197–R199). -/
structure PlayChannel where
  /-- 0 none, 1 loop, 2 AES67 -/
  output : Nat
  loopMask : Nat
  loopCh : Nat
  autoMsg : Nat
  autoDelay : Nat
  template : Nat
  short : Bool
  l16 : Bool
  state : PlayState
  msg : Nat
  pos : Nat
  repeats : Nat
  /-- samples of silence left before the next repeat -/
  gapLeft : Nat
  /-- message that an entry calls for, and the time its auto-play starts once the entry is done (R198, R201) -/
  autoDue : Option Nat
  autoAt : Option Nat
  /-- that message is called for by an entry to DRILL, and so are the message that waits and the current play -/
  autoDrill : Bool
  nextDrill : Bool
  drill : Bool
  /-- samples output of the millisecond that is running; the play is to be cut at its end (R198) -/
  phase : Nat
  cut : Bool
  /-- message that replaces the current one at the next 1 ms boundary -/
  next : Option Nat
  fadeEnd : Nat
  /-- samples of the fade output so far -/
  faded : Nat
  /-- samples of a packet not yet sent, RTP sequence number, first packet of the play -/
  packet : Bytes
  rtpSeq : Nat
  rtpTime : Nat
  marker : Bool
  /-- admin rings whose PLAY waits for the first sample -/
  waiter : Option Bool
  /-- samples for the recorder (SOURCE 2) -/
  recAudio : List AudioChunk
deriving DecidableEq, Repr

/-- A template of AES67 headers (record 0x040B). -/
structure PlayTemplate where
  header : Bytes
  tunnel : Nat
deriving DecidableEq, Repr

/-- The storage engine. -/
structure Str where
  ready : Bool
  /-- map, namespace, binding and stream entries as bytes; extents, bindings and connections of the recorder -/
  map : Map Bytes
  namespaces : Map Bytes
  bindings : Map Bytes
  streams : Map Bytes
  protExtents : List (Nat × Nat)
  protBindings : List Nat
  conns : Map Conn
  cmds : Map StorCmd
  nextCmd : Nat
  rec_ : Recorder
  /-- NVM address of the LIBRARY section of the running image, and its directory entries (R196) -/
  libAt : Option Nat
  directory : Map Bytes
  chans : Map PlayChannel
  templates : Map PlayTemplate
deriving DecidableEq, Repr

end Sys2Proof.Machine
end

