-- ==== Sys2Proof/Machine/State/Loop.lean ====
section
/-! DEFINITION. State of the Drevin loop ports (14_drevin_loops.md). -/

namespace Sys2Proof.Machine

/-- The tuple that decides between masters (R345). -/
structure LoopTuple where
  epoch : Nat
  prio : Nat
  serial : Nat
deriving DecidableEq, Repr

/-- One side of a loop port: its receive lane, and the wrap on it. -/
structure LoopSide where
  lock : Bool
  lockSince : Nat
  /-- the side is lost: BREAK or WAKE is sent there, and the node wraps (R346) -/
  lost : Bool
  /-- device time of the latest BREAK from it -/
  breakAt : Option Nat
  /-- measured link delay, in units of 2^-16 ns (R340) -/
  delay : Nat
  pdSeq : Nat
  pdSentAt : Option Nat
  pdNext : Nat
  /-- the sweep sent on this lane in the cycle: device time, and once it is back whether it was WRAPPED -/
  sentAt : Option Nat
  returned : Option Bool
  /-- greatest or least address that answered on this lane in the cycle -/
  lastAnswer : Option Nat
  /-- device time until which a frame of the node's own occupies the transmit lane (R345) -/
  ownUntil : Nat
deriving DecidableEq, Repr

/-- What the master knows of a node (R334). -/
structure LoopNode where
  /-- 0 absent, 1 present, 2 fault -/
  state : Nat
  misses : Nat
  seq : Nat
  opcode : Nat
  data : Bytes
  answer : Bytes
  /-- requests queued, at most 4: opcode and data -/
  queue : List (Nat × Bytes)
  /-- answered in the cycle -/
  answered : Bool
deriving DecidableEq, Repr

/-- A management frame that waits for the token phase, with its order in the share: 0 EMSG, 1 MGMT, 2 relayed, 3 DATA (R335). -/
structure LoopTx where
  /-- the one lane it leaves on, east 0 or west 1, when it is relayed -/
  side : Option Nat
  kind : Nat
  cls : Nat
  bytes : Bytes
deriving DecidableEq, Repr

/-- A loop port. -/
structure LoopPort where
  /-- configured from the image, and not disabled -/
  on : Bool
  slot : Nat
  /-- sources sweeps -/
  sourcing : Bool
  broken : Bool
  /-- a sweep or lane of the running cycle calls for BROKEN -/
  breakSeen : Bool
  east : LoopSide
  west : LoopSide
  /-- device time from which the listen time of R344 runs -/
  listenFrom : Nat
  /-- valid sweeps have been received since the port started or lost a conflict -/
  heard : Bool
  /-- greatest tuple seen, and when it was seen last (R345) -/
  best : Option LoopTuple
  bestAt : Nat
  accepted : Option Nat
  /-- audio of the accepted cycle: due, and verified -/
  audioDue : Bool
  audioGot : Bool
  /-- AUDIO_MAP and cycle code of the accepted cycle -/
  audioMap : Nat × Nat
  masterAlarm : Nat
  /-- start of the current cycle in device time, and its number -/
  cycleAt : Option Nat
  cycleNo : Nat
  /-- tokens sent and not yet back -/
  tokenOut : Nat
  nodes : Map LoopNode
  /-- staged answer data, last request answered with the answer given (R333) -/
  staged : Bytes
  lastReq : Option (Nat × Bytes)
  reqs : List Bytes
  /-- loop address table: 8-byte entries -/
  addrs : Map Bytes
  txQueue : List LoopTx
  /-- samples waiting for a sweep, and samples received, by downstream channel -/
  playAudio : Map Bytes
  rxAudio : Map (List AudioChunk)
  rate : RateBucket
  /-- WAKE is sent on lost sides until then, with the reason (R349) -/
  wakeUntil : Option Nat
  wakeReason : Nat
deriving DecidableEq, Repr

/-- The loop ports LP0–LP3. -/
structure LoopBlock where
  ports : Map LoopPort
deriving DecidableEq, Repr

end Sys2Proof.Machine
end

