-- ==== Sys2Proof/Machine/State/Mem.lean ====
section
/-! DEFINITION. State of image update (19_maevo_image.md), of the memories, the time base, the event log and telemetry
(21_memory_time_telemetry.md). -/

namespace Sys2Proof.Machine

/-- One line of the bank selector (R430). -/
structure SelectorLine where
  activeB : Bool
  trial : Bool
  trialUsed : Bool
  sseq : DWord
  svnMin : BitVec 16
deriving DecidableEq, Repr

/-- PCR_IMG_STATUS.OTHER. -/
inductive OtherBank where
  | unchecked | verified | failed | writing | checking
deriving DecidableEq, Repr

/-- What image update is doing (R444). -/
inductive ImgJob where
  /-- Crater checks the staged copy -/
  | checkStaged (src len : Nat)
  /-- pages are written; `done` bytes are in the bank -/
  | pages (src len done : Nat)
  /-- the other bank is read back; `len` 0 means a VERIFY command -/
  | readBack (src len : Nat)
deriving DecidableEq, Repr

/-- A recovery write over MCTP (R447). -/
structure RecWrite where
  bankB : Bool
  len : Nat
  got : Nat
deriving DecidableEq, Repr

/-- Banks, selector and image update. -/
structure Img where
  s0 : Option SelectorLine
  s1 : Option SelectorLine
  runB : Bool
  other : OtherBank
  otherVer : DWord
  job : Option ImgJob
  /-- device time the present phase of the job began (R446) -/
  jobFrom : Nat
  abort : Bool
  paused : Bool
  done : Nat
  /-- PCR_IMG_FAIL -/
  failSection : BitVec 8
  failReason : BitVec 8
  failRecord : BitVec 16
  rec_ : Option RecWrite
  /-- Subsystem IDs and image header fields of the running image -/
  subsysVid : BitVec 16
  subsysId : BitVec 16
  svnFloor : BitVec 16
deriving DecidableEq, Repr

/-- HBM regions, scrub, wear levelling (R468–R475) and the byte memories of the device. -/
structure Mem where
  ready : Bool
  /-- size of service memory in MiB, from the image (R468) -/
  svcMib : Nat
  /-- scrub segment, whether it is raised, lines read in the pass, device time the pass began, time excluded since then (R470, R475) -/
  segment : Nat
  raised : Bool
  linesRead : Nat
  passStart : Nat
  pausedFrom : Option Nat
  /-- spare lines left and retired lines (R473) -/
  spare : Nat
  retired : Map Nat
  /-- writes since the last move, gap position, owed moves, writes per line, by partition number (R472) -/
  sinceMove : Map Nat
  gap : Map Nat
  owed : Map Nat
  /-- device time before which no further owed move is made (R472) -/
  owedNext : Nat
  lineWrites : Map Nat
  /-- NVM bytes of the image banks, by NVM address; unlisted bytes read 0 -/
  banks : Map Byte
  /-- service memory and DEVBUF bytes; unlisted bytes read 0 -/
  svc : Map Byte
  devbuf : Map Byte
  /-- service retention: retained SRAM bytes 32,768–65,535 as words by PCR offset -/
  svcRet : Map Word
deriving DecidableEq, Repr

/-- PTP time source (R477). -/
inductive PtpSource where
  | free | ptp | loop
deriving DecidableEq, Repr

/-- Time base, event log and telemetry. -/
structure Tim where
  src : PtpSource
  locked : Bool
  freewheel : Bool
  wrErr : Bool
  /-- PTP time at device time ptpAt, in units of 2^-32 ns (R477) -/
  ptpNs : Int
  ptpAt : Nat
  /-- rate in force, in 1/4,096 ppb -/
  rate : Int
  /-- rest of the slew in units of 2^-32 ns, and the device time at which it ends (R479) -/
  slew : Int
  slewEnd : Option Nat
  /-- LOOP mode: device time since which the time has held, of the last valid sweep, and the cycle length -/
  heldFrom : Option Nat
  lastSweep : Nat
  /-- entries formed and not yet durable, oldest first, at most 256 (R482) -/
  queue : List Bytes
  /-- the next entry formed carries GAP -/
  gapNext : Bool
  /-- the log in NVM, by entry number (R480) -/
  log : Map Bytes
  nextGeneral : Nat
  pinnedUsed : Nat
  nextSeq : DWord
  /-- reset entries owed to the next emergency-path ready (R451) -/
  deferred : List Bytes
  /-- latest telemetry reading and number of snapshots -/
  reading : TelemetryReading
  snapshots : Nat
  /-- device time the next snapshot is due -/
  snapDue : Nat
  /-- whole seconds of device time for which REQ36 has been asserted (R281) -/
  seconds : Nat
deriving DecidableEq, Repr

end Sys2Proof.Machine
end

