-- ==== Sys2Proof/Machine/State/Out.lean ====
section
/-! DEFINITION. What the device sends out, in order. The trace is the model's own record of effects that land outside the
device: in host memory, on a wire, or with the party that asked. -/

namespace Sys2Proof.Machine

/-- Status of a completion that the device returns (R210, R217). -/
inductive CplStatus where
  | success
  | unsupported
  | abort
  /-- Configuration Request Retry Status (R216) -/
  | retry
deriving DecidableEq, Repr

/-- Messages that the device sends to the host. -/
inductive HostMsg where
  /-- Function Readiness Status of a function with its reason (R216, R225) -/
  | frs (fn reason : Nat)
  /-- Device Readiness Status -/
  | drs
  /-- error message: 0 correctable, 1 non-fatal, 2 fatal -/
  | err (fn severity : Nat)
deriving DecidableEq, Repr

/-- One thing sent. -/
inductive Out where
  /-- value of a register read, returned to the party that read -/
  | readValue (p : Party) (off : Nat) (v : Word)
  /-- completion of a request that the host sent -/
  | completion (tag : Nat) (status : CplStatus) (bytes : Bytes)
  /-- posted write to host memory by a function -/
  | hostWrite (fn addr : Nat) (bytes : Bytes) (ro : Bool)
  /-- read request to host memory -/
  | hostRead (fn addr len tag : Nat)
  /-- MSI-X message -/
  | msix (fn vec : Nat) (addr : DWord) (data : Word)
  | hostMsg (m : HostMsg)
  /-- a TLP of a member that the head passes to the host (R370) -/
  | tlpUp (member : Nat) (tlp : Bytes)
  /-- frame on the wire of an Ethernet port, without FCS -/
  | ethTx (port : Nat) (bytes : Bytes)
  /-- PFC frame (R316) -/
  | pfcTx (port enables time : Nat)
  /-- frame or ordered set on a loop lane: port, side (0 east, 1 west) -/
  | loopTx (lp side : Nat) (bytes : Bytes)
  | loopSet (lp side code arg : Nat)
  /-- link frame on a Gondola link, or a marker -/
  | gondolaTx (g type : Nat) (bytes : Bytes)
  | gondolaMarker (g : Nat) (fields : List Nat)
  /-- frame delivered to the service cluster with its metadata -/
  | svcFrame (reason : Nat) (bytes : Bytes) (stamp : Option (Nat × Nat))
  /-- samples released to a downstream channel or play output -/
  | audio (channel : Nat) (bytes : Bytes)
  /-- SMBus response bytes -/
  | smbus (bytes : Bytes)
  /-- a pin of the always-on island: 0 WAKE_OUT_N, 1 RESET_OUT_N, level -/
  | pin (n : Nat) (high : Bool)
deriving DecidableEq, Repr

end Sys2Proof.Machine
end

