-- ==== Sys2Proof/Machine/State/Pcr.lean ====
section
/-! DEFINITION. State of the power, clock and reset manager (20_reset_power_clocks.md) and of image update (19_maevo_image.md). -/

namespace Sys2Proof.Machine

/-- What the device is doing with respect to a FULL reset. -/
inductive Phase where
  /-- VAUX33 absent -/
  | off
  /-- the VIN12 islands are held in reset -/
  | held
  /-- reset released: the start sequence runs or has run -/
  | running
deriving DecidableEq, Repr

/-- Power states of R460. -/
inductive PowerState where
  | p0 | p1 | p2 | p3
deriving DecidableEq, Repr

/-- The always-on island, the PCR record and the start milestones. -/
structure Pcr where
  phase : Phase
  /-- supplies good -/
  vin12 : Bool
  vaux33 : Bool
  /-- PCR_RESET_CAUSE (R450) -/
  cause : BitVec 5
  prevCause : BitVec 5
  /-- device time before which a held reset is not released (R454); none: release waits for another event -/
  releaseAt : Option Nat
  /-- device time of the latest reset release (R457) -/
  startAt : Nat
  /-- steps 1–3 of R400 have been done in this start -/
  begun : Bool
  /-- the start has failed, or the recovery hold has begun (R401, R442, R457) -/
  failed : Bool
  /-- milestones of the start (R441, R418) -/
  imageVerified : Bool
  pathReady : Bool
  cfgReady : Bool
  storeReady : Bool
  fullOp : Bool
  /-- boot mode REFUGE (R458) and the recovery hold of R401 -/
  refuge : Bool
  recoveryHold : Bool
  /-- failed-start count, kept in NVM (R457) -/
  startFails : Nat
  /-- power state, target of the transition under way, request kept for later (R461) -/
  power : PowerState
  target : Option PowerState
  /-- device time the transition began -/
  targetFrom : Nat
  queued : Option PowerState
  /-- thermal monitor (R464) -/
  thermHold : Bool
  thermCrit : Bool
  tempC : Int
  maxC : Option Int
  /-- device time since which the junction has stayed below 100 °C -/
  coolFrom : Option Nat
  /-- islands that caused the latest cause-15 reset (R465) -/
  clkFault : List Nat
  /-- the open-drain output WAKE_OUT_N is driven low (R463) -/
  wakeOutLow : Bool
  /-- cause of the wake -/
  wakeFrom : Option WakeSource
  /-- image: board power cap in W; 165 means none (R64, record 0x0506) -/
  powerCap : Nat
deriving DecidableEq, Repr

end Sys2Proof.Machine
end

