-- ==== Sys2Proof/Machine/State/Pool.lean ====
section
/-! DEFINITION. State of the buffer pool manager (12_buffer_pools.md). -/

namespace Sys2Proof.Machine

/-- Image settings and free list of one pool. Buffers `fresh .. count - 1` follow the listed ones on the free list. -/
structure Pool where
  /-- POOL_CFG: size code, HBM placement, fallback, use mask NET STOR SVC CORE (R292) -/
  size : Nat
  hbm : Bool
  fallback : Nat
  noFallback : Bool
  use : BitVec 4
  count : Nat
  lsMin : Nat
  coreMin : Nat
  svcMin : Nat
  /-- freed buffers, last freed first (R295) -/
  stack : List Nat
  fresh : Nat
  /-- POOL_LOSTn (R296) -/
  lost : Nat
deriving DecidableEq, Repr

/-- A buffer in use. -/
structure HeldBuffer where
  inst : Nat
  purpose : PoolPurpose
  ls : Bool
deriving DecidableEq, Repr

/-- A request that waits on its first-choice pool (R299 step 3). -/
structure PoolWait where
  req : PoolReq
  pool : Nat
  since : Nat
deriving DecidableEq, Repr

/-- What a request comes to: a buffer of a pool, or a refusal with POOL_EMPTY (R299, R300) or MALFORMED (R294). -/
inductive PoolAnswer where
  | granted (pool buffer : Nat)
  | poolEmpty
  | malformed
deriving DecidableEq, Repr

/-- The answer to a request. -/
structure PoolReply where
  id : Nat
  answer : PoolAnswer
deriving DecidableEq, Repr

/-- Quotas of an instance in units of 256 bytes (R297). -/
structure PoolQuota where
  netRx : Nat
  netTx : Nat
  stor : Nat
deriving DecidableEq, Repr

/-- The buffer pool manager. -/
structure PoolMgr where
  pools : Map Pool
  /-- buffers in use, by 2^24 × pool + buffer -/
  held : Map HeldBuffer
  quotas : Map PoolQuota
  waits : List PoolWait
  /-- answers given, oldest first -/
  replies : List PoolReply
  /-- POOL_STATUS.MODE: service mode (R297) -/
  service : Bool
  ready : Bool
  /-- pool under REBUILD, and the device time at which it began (R296, R302) -/
  rebuilding : Option Nat
  rebuildAt : Nat
  /-- instances whose transmit jobs are held after a refusal, with the device time at which they ask again (R300) -/
  txHeld : Map Nat
  /-- instances whose storage work is deferred after a refusal (R300) -/
  deferred : List Nat
  /-- instance that a pool's round robin served last (R301) -/
  lastInst : Map Nat
deriving DecidableEq, Repr

end Sys2Proof.Machine
end

