-- ==== Sys2Proof/Machine/State/Svc.lean ====
section
/-! DEFINITION. State of the service cluster (16_service_cluster.md). -/

namespace Sys2Proof.Machine

/-- State of a thread (R388, SVC_THREAD_CTL.STATE). -/
inductive ThreadState where
  | off | held | run | evwait | faulted | faultedUnsaved
deriving DecidableEq, Repr

/-- A hardware thread. -/
structure Thread where
  state : ThreadState
  pc : DWord
  /-- x1–x31; an unlisted register holds 0 -/
  x : Map DWord
  /-- control and status registers by number; an unlisted one holds 0 -/
  csr : Map DWord
  /-- user mode -/
  user : Bool
  /-- reservation of LR (R382): address and bytes -/
  reserved : Option (Nat × Nat)
  /-- wake counter (R384) -/
  wake : Nat
  /-- EVWAIT: register that receives the reason, and the deadline (R385) -/
  waitRd : Nat
  waitUntil : Option DWord
  busy : Bool
  master : Bool
  /-- SVC_TSBBASE, SVC_REGION_BASE, SVC_REGION_LIMIT -/
  tsb : DWord
  regionBase : DWord
  regionLimit : DWord
  /-- shadow registers (R390) -/
  shadowCause : DWord
  shadowPc : DWord
  shadowTval : DWord
  /-- traps since the last RESET (R389) -/
  traps : DWord
  /-- a HALT has been accepted and the thread is not HELD yet (R392) -/
  halting : Bool
  /-- bytes of the code region as this thread still fetches them, where a store has changed them since its last FENCE.I (R382) -/
  stale : Map Byte
deriving DecidableEq, Repr

/-- An entry of SVC_FAULT_FIFO. -/
structure FaultEntry where
  thread : Nat
  unsaved : Bool
deriving DecidableEq, Repr

/-- The service cluster. -/
structure Svc where
  /-- SC0.T0 has been released -/
  ready : Bool
  threads : Map Thread
  faults : List FaultEntry
  /-- device time of the latest kick (R393) -/
  kickAt : Nat
  /-- image records 0x0701 and 0x0702: start state of SC0.T0, and the code region -/
  entry : DWord
  supBase : DWord
  supLimit : DWord
  supTsb : DWord
  codeBase : Nat
  codeEnd : Nat
  /-- the 8 MiB of on-die scratch memory -/
  scratch : Map Byte
deriving DecidableEq, Repr

end Sys2Proof.Machine
end

