-- ==== Sys2Proof/Machine/State/Swc.lean ====
section
/-! DEFINITION. State of the switch core (03_switch_core.md). -/

namespace Sys2Proof.Machine

/-- Where a frame of a VOQ is stored (R75, R78, R79). -/
inductive Place where
  | die
  | hbm
  /-- selected by the reader -/
  | reading
deriving DecidableEq, Repr

/-- A frame in a VOQ. -/
structure Stored where
  frame : Frame
  cells : Nat
  /-- cells that have crossed -/
  sent : Nat
  place : Place
  /-- a cell met a double-bit tag error (R74) -/
  bad : Bool
  /-- it has been read back from HBM (R73); device time the reader selected it (R79) -/
  spilled : Bool
  since : Nat
  /-- arrival number -/
  arr : Nat
deriving DecidableEq, Repr

/-- A virtual output queue (R75). -/
structure Voq where
  spill : Bool
  frames : List Stored
deriving DecidableEq, Repr

/-- A frame in a multicast queue: whole cells that have left, and the residue set of the head cell (R83). -/
structure McStored where
  frame : Frame
  cells : Nat
  sent : Nat
  /-- port set as admitted, the residue set of the head cell, outputs where a cell met a double-bit tag error -/
  ports : Nat
  residue : Nat
  bad : Nat
  arr : Nat
deriving DecidableEq, Repr

/-- A class-7 frame in the staging of an input, with the outputs that have not taken it (R86, R89). -/
structure Staged where
  frame : Frame
  cells : Nat
  outs : Nat
deriving DecidableEq, Repr

/-- The admission meter of an output: credit in bytes at device time `at_` (R88). -/
structure Meter where
  credit : Nat
  at_ : Nat
deriving DecidableEq, Repr

/-- An instance quota (R75, table 1 of SWC_IND). -/
structure Quota where
  ondie : Nat
  spill : Nat
deriving DecidableEq, Repr

/-- The switch core. Inputs and outputs are SP0–SP25. -/
structure Swc where
  ready : Bool
  /-- frames at an input that have not reached the switch core -/
  arrivals : Map (List Frame)
  /-- by 182 × input + 7 × output + class -/
  voqs : Map Voq
  /-- by 7 × input + class -/
  mcqs : Map (List McStored)
  /-- frames of classes 0–6 reassembled at an output and not past its egress pass, by output -/
  egressIn : Map (List Frame)
  /-- egress queues, by 65,536 × (16 × output + class) + instance -/
  egress : Map (List Frame)
  /-- egress cells by 16 × output + class -/
  egressCells : Map Nat
  /-- on-die and spilled cells of an instance; on-die cells of an input -/
  instDie : Map Nat
  instSpill : Map Nat
  inputDie : Map Nat
  /-- cells held on die in ingress queues, cells of the region, cells of the spill write queue -/
  ingressCells : Nat
  spillUsed : Nat
  writeQueue : Nat
  nextArr : Nat
  admitPtr : Nat
  /-- Slalom pointers (R81) -/
  gptr6 : Map Nat
  gptr : Map Nat
  aptr : Map Nat
  mcTurn : Map Nat
  /-- LS staging by input, round-robin pointers of the plane arbiters by output -/
  staging : Map (List Staged)
  lsPtr : Map Nat
  /-- LS frames of an output before and after the egress pass; cells of its LS queue in use -/
  lsIn : Map (List Frame)
  lsQueue : Map (List Frame)
  lsCells : Map Nat
  meters : Map Meter
  /-- port sets of the groups, instance quotas -/
  portSets : Map Nat
  quotas : Map Quota
  /-- mirror copies that reached SP20 (R93), SEQ of the next entry -/
  tephra : List Frame
  tephraSeq : DWord
deriving DecidableEq, Repr

end Sys2Proof.Machine
end

