-- ==== Sys2Proof/Machine/State/Tmg.lean ====
section
/-! DEFINITION. State of the traffic manager (05_traffic_manager.md). -/

namespace Sys2Proof.Machine

/-- A shaper or policer entry (R130, R136). -/
structure Bucket where
  /-- kb/s and bytes -/
  rate : Nat
  burst : Nat
  en : Bool
  /-- credit in units of 1/8,000,000 byte, as it stood at device time `at_` -/
  credit : Nat
  at_ : Nat
deriving DecidableEq, Repr

/-- Counters of a shaper (FRAMES, BYTES). -/
structure ShaperCounts where
  frames : DWord
  bytes : DWord
deriving DecidableEq, Repr

/-- Counters of a policer. -/
structure PolicerCounts where
  passFrames : DWord
  passBytes : DWord
  dropFrames : DWord
  dropBytes : DWord
deriving DecidableEq, Repr

/-- The traffic manager. A DWRR set is numbered 16 × output + class, the class level of an output 16 × output + 15 (R139). -/
structure Tmg where
  ready : Bool
  shapers : Map Bucket
  policers : Map Bucket
  shaperCounts : Map ShaperCounts
  policerCounts : Map PolicerCounts
  /-- instances whose level-1 scaling is in force (R140) -/
  scaled : Map Bool
  /-- set.cur, by set -/
  cur : Map Nat
  /-- deficits, by 65,536 × set + class or instance -/
  deficit : Map Nat
deriving DecidableEq, Repr

end Sys2Proof.Machine
end

