-- ==== Sys2Proof/Machine/Store.lean ====
section
/-! DEFINITION. The one set of operations over the sparse tables of the state.
Two kinds of table share them. A table of optional entries is read by `mfind`. A table with a value at every key
(registers, counters, byte memories) is read by `mget` with its default, and `mset` keeps it canonical: an entry equal to the
default is not listed, so equal tables are equal lists. -/

namespace Sys2Proof.Machine

/-- The entry at key `k`, if one is listed. -/
def mfind {α : Type} : Map α → Nat → Option α
  | [], _ => none
  | (j, a) :: m, k => if j = k then some a else mfind m k

/-- The table with the entry of key `k` taken out. -/
def merase {α : Type} : Map α → Nat → Map α
  | [], _ => []
  | (j, a) :: m, k => if j = k then m else (j, a) :: merase m k

/-- The table with `a` listed at key `k`, in key order. -/
def minsert {α : Type} : Map α → Nat → α → Map α
  | [], k, a => [(k, a)]
  | (j, b) :: m, k, a => if k < j then (k, a) :: (j, b) :: m else if k = j then (k, a) :: m else (j, b) :: minsert m k a

/-- The value at key `k` of a table whose unlisted keys read as `d`. -/
def mget {α : Type} (d : Nat → α) (m : Map α) (k : Nat) : α := (mfind m k).getD (d k)

/-- The table with value `a` at key `k`: the entry is listed exactly when it differs from the default. -/
def mset {α : Type} [DecidableEq α] (d : Nat → α) (m : Map α) (k : Nat) (a : α) : Map α :=
  if a = d k then merase m k else minsert m k a

/-- The table with the entry at `k` changed by `f`, when one is listed. -/
def mmodify {α : Type} : Map α → Nat → (α → α) → Map α
  | [], _, _ => []
  | (j, a) :: m, k, f => if j = k then (j, f a) :: m else (j, a) :: mmodify m k f

/-- The entries whose key and value satisfy `p`. -/
def mfilter {α : Type} (p : Nat → α → Bool) : Map α → Map α
  | [] => []
  | (k, a) :: m => if p k a then (k, a) :: mfilter p m else mfilter p m

/-- Every value changed by `f`, the keys kept. -/
def mmap {α : Type} (f : Nat → α → α) : Map α → Map α
  | [] => []
  | (k, a) :: m => (k, f k a) :: mmap f m

/-- The smallest number from `k` on that is no key of `m`, searched for at most `fuel` numbers. -/
def mfree {α : Type} (m : Map α) : Nat → Nat → Nat
  | 0, k => k
  | fuel + 1, k => if (mfind m k).isNone then k else mfree m fuel (k + 1)

/-- Every key of the table is at least `lo`, and the keys strictly rise. -/
def mrising {α : Type} : Nat → Map α → Bool
  | _, [] => true
  | lo, (k, _) :: m => decide (lo ≤ k) && mrising (k + 1) m

/-- The canonical form of a table of optional entries. -/
def msorted {α : Type} (m : Map α) : Bool := mrising 0 m

/-- No entry equals its default. -/
def mproper {α : Type} [DecidableEq α] (d : Nat → α) : Map α → Bool
  | [] => true
  | (k, a) :: m => decide (a ≠ d k) && mproper d m

/-- The canonical form of a table with defaults: keys strictly rising, no entry equal to its default. -/
def mwf {α : Type} [DecidableEq α] (d : Nat → α) (m : Map α) : Bool := msorted m && mproper d m

end Sys2Proof.Machine
end

