-- ==== Sys2Proof/Machine/State.lean ====
section
/-! DEFINITION. The state of the VRK-6400 model, its reset value, and the reasons for which a step can stop. -/

namespace Sys2Proof.Machine

/-- The reasons for a fault. No command of this model raises one: the spec gives every command of the table an effect. -/
inductive Fault where
  /-- An access outside the register windows of R498. Raised by nobody: R211 gives such an access its effect, and every other address
  that the model uses has one (safe: the machine would stop where the hardware goes on). -/
  | noSuchAddress
deriving DecidableEq, Repr

/-- The reasons for a refusal. -/
inductive Refusal where
  /-- The command of this mnemonic has no meaning yet. Raised by an arm of `exec` (safe: the machine stops where the hardware goes
  on). -/
  | notModelled (mnemonic : String)
deriving DecidableEq, Repr

/-- The device: its registers and counters, its subsystems, what it has sent, and the commands that wait. -/
structure State where
  /-- device time in ns (R476) -/
  now : Nat
  /-- stored bits of the registers; an unlisted register holds its reset value -/
  regs : Map Word
  /-- 64-bit counters by the offset of their low half (R11) -/
  ctr : Map DWord
  /-- high halves latched by a read of the low half (R10, R502) -/
  latch : Map Word
  /-- values the spec leaves open that have been taken so far -/
  freeUsed : Nat
  /-- what the device has sent, oldest first -/
  out : List Out
  ident : Ident
  alp : Alp
  hep : Hep
  vfm : Vfm
  wqm : Wqm
  dma : Dma
  pool : PoolMgr
  eth : Eth
  flp : Flp
  tmg : Tmg
  swc : Swc
  cph : Cph
  str : Str
  loops : LoopBlock
  cas : Cas
  svc : Svc
  crt : Crt
  mbx : Mbx
  pcr : Pcr
  img : Img
  mem : Mem
  tim : Tim
  /-- frames that have left SP20–SP23 and wait for the block behind the port -/
  sinks : Map (List Frame)
  /-- the commands that wait, first in, first out -/
  pending : List Instr
deriving DecidableEq, Repr

/-- Identity before an image is applied: a standalone device. -/
def Ident.reset : Ident := { role := .standalone, cid := 0, devices := 1, topology := 0, peers := [], tag := 0 }

/-- ALP after reset (ALP_STATUS; R48, R53, R69). -/
def Alp.reset : Alp :=
  { state := .normal, entryDone := false, entryOwed := false, inA := false, inB := true, inSince := 0, inFault := false, srcInput := false, srcFault := false,
    active := [], holdEnd := none, drillEnd := none, entryFrom := 0, levels := [], pathReady := false, faultDeclares := false,
    clearFallback := false, drillShed := 0, originators := [], emsgSlot := 0, etype := 0, udpPort := 0, heldMsgs := [] }

/-- HEP after reset. -/
def Hep.reset : Hep :=
  { linkUp := false, speed := 0, width := 0, flit := false, perstHigh := true, cfgReady := false, portsReady := false, inReset := false,
    readyFrom := 0,
    operational := false, fns := [], numVfs := 0, vfEnable := false, tags := [], flushWait := [], vsw := [], ddt := [], members := [], ddtGen := 0, memberReads := [] }

/-- Default resource record of a VF (R236). -/
def ResRecord.vfDefault : ResRecord :=
  { queueBase := 0, queueCount := 0, storqBase := 0, storqCount := 0, spreadBase := 0, spreadLog2 := 0, txsEn := false,
    rxsEn := false, svcDma := false, txShaper := 0, rxShaper := 0, weights := [16, 16, 16, 16, 16, 16, 16], shed := 0,
    maxReads := 512, dmaWeight := 16, maxTokens := 1024, storCmds := 256 }

/-- VFM after reset. -/
def Vfm.reset : Vfm :=
  { records := [], inForce := [], pfImage := ResRecord.vfDefault, fns := [], segments := [], cache := [], unmaps := [] }

/-- WQM after reset. -/
def Wqm.reset : Wqm := { queues := [], lsImage := [], closing := [], turn := { cur := 0, left := 0 } }

/-- DMA after reset. -/
def Dma.reset : Dma :=
  { chans := [], pmem := [], reqs := [], served := [], timers := [], turn := { cur := 0, left := 0 }, lastIssue := [] }

/-- POOL after reset: no pool before the image is applied. -/
def PoolMgr.reset : PoolMgr :=
  { pools := [], held := [], quotas := [], waits := [], replies := [], service := false, ready := false, rebuilding := none,
    rebuildAt := 0, txHeld := [], deferred := [], lastInst := [] }

/-- ETH after reset. -/
def Eth.reset : Eth := { ready := false, ports := [], groups := [] }

/-- FLP after reset (R118 gives the member block pool). -/
def Flp.reset : Flp :=
  { ready := false, lsLoaded := false, nodes := [], starts := [], profiles := [], defaults := [], profState := [], exact := [],
    ternary := [], exactFrames := [], exactBytes := [], ternFrames := [], ternBytes := [], tunnels := [], l2 := [], groups := [], mcLists := [],
    blocksFree := 262144, blocksRetired := 0, shedDrops := [], cache := [], ingress := [], hostTx := [], waiting := [],
    samples := [], ageNext := 0, ageScanning := false, ageFifo := [] }

/-- TMG after reset (R139). -/
def Tmg.reset : Tmg :=
  { ready := false, shapers := [], policers := [], shaperCounts := [], policerCounts := [], scaled := [], cur := [], deficit := [] }

/-- SWC after reset (R81, R88). -/
def Swc.reset : Swc :=
  { ready := false, arrivals := [], voqs := [], mcqs := [], egressIn := [], egress := [], egressCells := [], instDie := [],
    instSpill := [], inputDie := [], ingressCells := 0, spillUsed := 0, writeQueue := 0, nextArr := 0, admitPtr := 0, gptr6 := [],
    gptr := [], aptr := [], mcTurn := [], staging := [], lsPtr := [], lsIn := [], lsQueue := [], lsCells := [], meters := [],
    portSets := [], quotas := [], tephra := [], tephraSeq := 0 }

/-- CPH after reset. -/
def Cph.reset : Cph :=
  { ready := false, keysReady := false, slots := [], cached := [], fenced := [], untested := 0, passes := [], nextPass := 0,
    decryptIn := [], decryptLs := [], handover := [], lsDispatch := [], nearFifo := [], lostEntries := [], jobMisses := [], entryAt := none }

/-- CAS after reset (CAS_CTL). -/
def Cas.reset : Cas :=
  { ready := false, links := [], topo := [], topoVer := 0, reach := [], paths := [], epochs := [], lastEpoch := [], mapHold := [],
    view := 0, heldMap := 0, drillGen := 0, stopGen := 0, tlpHold := [], attnInd := 3, pwrInd := 3, fnHeld := false,
    hostReqs := [] }

/-- The recorder after reset: off, the journal empty. -/
def Recorder.reset : Recorder :=
  { on := false, nextSeq := 0, durable := 0, head := 0, flushed := 0, written := 0, prevChain := List.replicate 16 0, capture := .none,
    stopped := false, second := 0, secRecords := 0, secBytes := 0, lost := 0, waiting := [], staged := [], stagedFrom := 0, marks := [], anchor := none, high := 0,
    anchorAt := none, owed := [], lastDurable := none, flushAt := 0, doneTo := none }

/-- STR after reset: every connection IDLE. -/
def Str.reset : Str :=
  { ready := false, map := [], namespaces := [], bindings := [], streams := [], protExtents := [], protBindings := [], conns := [],
    cmds := [], nextCmd := 0, rec_ := Recorder.reset, libAt := none, directory := [], chans := [], templates := [] }

/-- LOOP after reset: every port off (LOOP_STATUS). -/
def LoopBlock.reset : LoopBlock := { ports := [] }

/-- SVC after reset: every thread OFF (R388). -/
def Svc.reset : Svc :=
  { ready := false, threads := [], faults := [], kickAt := 0, entry := 0, supBase := 0, supLimit := 0, supTsb := 0, codeBase := 0,
    codeEnd := 0, scratch := [] }

/-- Crater retention when nothing is kept in it (R399). -/
def Retention.empty : Retention :=
  { valid := true, emsgSeq := [], mgmtSeq := [], active := [], holdover := false, loopEpochs := [], topoVer := 0, wakeMsgs := [],
    keyOp := none, zeroisePending := false, tripped := 0, trippedValid := true }

/-- CRT after reset of a device that holds no SEED (R403, R439). -/
def Crt.reset : Crt :=
  { sec := .zeroised, degCause := 0, fallback := false, patchOk := false, lsKeysReady := false, nonApproved := false,
    cryptoOff := false, restarting := false, restartAt := 0, restartCause := 0, bootCount := 0, bootCseq := 0, writeCount := 0, seed := none,
    zeroMarker := true, store := [], ret := Retention.empty, mirrorEmsg := [], mirrorMgmt := [], keyop := none,
    keyopCommitted := false, keyopFound := 0, keyJobs := [], live := 0, liveSince := [], tamperNEn := false,
    coldEn := false, svnImage := 0, bodyHash := [], imageVer := 0, patch := none, ownerKeys := [], patchHash := [],
    roles := { emergency := 0, management := 0, cascade := 0, attestation := 0, recorder := 0, chain := 0, transport := 0 },
    mgmtOriginators := [] }

/-- MBX after reset. -/
def Mbx.reset : Mbx :=
  { chans := [], requests := [], taken := [], discard := [], smbResponse := none, smbRetries := 0, smbErrsrc := 0 }

/-- PCR right after the release of a FULL reset whose cause is VAUX33 good after absence (R449, R450). -/
def Pcr.reset : Pcr :=
  { phase := .running, vin12 := true, vaux33 := true, cause := 2, prevCause := 0, releaseAt := none, startAt := 0, begun := false,
    failed := false,
    imageVerified := false, pathReady := false, cfgReady := false, storeReady := false, fullOp := false, refuge := false,
    recoveryHold := false, startFails := 0, power := .p0, target := none, targetFrom := 0, queued := none, thermHold := false, thermCrit := false,
    tempC := 0, maxC := none, coolFrom := none, clkFault := [], wakeOutLow := false, wakeFrom := none, powerCap := 165 }

/-- Image update after reset, with no valid bank selector line (R430). -/
def Img.reset : Img :=
  { s0 := none, s1 := none, runB := false, other := .unchecked, otherVer := 0, job := none, jobFrom := 0, abort := false, paused := false,
    done := 0, failSection := 0, failReason := 0, failRecord := 0, rec_ := none, subsysVid := 0, subsysId := 0, svnFloor := 0 }

/-- The memories after reset (R468, R472). -/
def Mem.reset : Mem :=
  { ready := false, svcMib := 0, segment := 0, raised := false, linesRead := 0, passStart := 0, pausedFrom := none, spare := 507904,
    retired := [], sinceMove := [], gap := [], owed := [], owedNext := 0, lineWrites := [], banks := [], svc := [], devbuf := [], svcRet := [] }

/-- A telemetry reading of zeros. -/
def TelemetryReading.zero : TelemetryReading :=
  { junctions := [], vin12mV := 0, vin12cA := 0, vaux33mV := 0, vaux33mA := 0, powerMw := 0 }

/-- The time base, log and telemetry after reset (R477, R480). -/
def Tim.reset : Tim :=
  { src := .free, locked := false, freewheel := false, wrErr := false, ptpNs := 0, ptpAt := 0, rate := 0, slew := 0,
    slewEnd := none, heldFrom := none, lastSweep := 0, queue := [], gapNext := false, log := [], nextGeneral := 4096,
    pinnedUsed := 0, nextSeq := 0, deferred := [], reading := TelemetryReading.zero, snapshots := 0, snapDue := 0, seconds := 0 }

/-- The log entry that the reset of cause 2 owes to the first start (R451, R480): MAGIC 0x4C45, TYPE 0x01, FLAGS 0x08 for a deferred entry,
every stamp 0, the states of a ZEROISED device, and PCR_RESET_CAUSE. -/
def resetLogEntry : Bytes := [0x45, 0x4C, 1, 8] ++ List.replicate 26 0 ++ [8, 0, 2, 0, 0, 0] ++ List.replicate 24 0

/-- The machine right after reset: VAUX33 and VIN12 have become good, retention and the PCR record held nothing (R399, R450, R451), NVM is
empty, and no command waits. -/
def State.reset : State :=
  { now := 0, regs := [], ctr := [(0xF00200, 1)], latch := [], freeUsed := 0, out := [], ident := Ident.reset, alp := Alp.reset,
    hep := Hep.reset, vfm := Vfm.reset,
    wqm := Wqm.reset, dma := Dma.reset, pool := PoolMgr.reset, eth := Eth.reset, flp := Flp.reset, tmg := Tmg.reset,
    swc := Swc.reset, cph := Cph.reset, str := Str.reset, loops := LoopBlock.reset,
    cas := Cas.reset, svc := Svc.reset, crt := { Crt.reset with ret := { Retention.empty with valid := false } }, mbx := Mbx.reset,
    pcr := Pcr.reset, img := Img.reset, mem := Mem.reset,
    tim := { Tim.reset with deferred := [resetLogEntry] }, sinks := [], pending := [] }

end Sys2Proof.Machine
end

