-- ==== Sys2Proof/Machine/Base.lean ====
section
/-! DEFINITION. The operations over registers, counters, the trace and device time that every meaning shares. -/

namespace Sys2Proof.Machine

/-- The answer of a meaning: the next state. -/
abbrev Result := Host.Outcome State Fault Refusal

/-- Number of the view a party uses (R499). -/
def partyView : Party → Nat
  | .host => 0
  | .service _ => 1
  | .crater => 2

/-- Whether the party is Crater. -/
def isCrater : Party → Bool
  | .crater => true
  | _ => false

/-- Key of a register of which each view has a copy (R500). -/
def viewKey (p : Party) (off : Nat) : Nat := partyView p * 2 ^ 32 + off

/-- Stored bits of a register. -/
def getReg (s : State) (off : Nat) : Word := mget regReset s.regs off

/-- The state with the stored bits of a register replaced. -/
def setReg (off : Nat) (v : Word) (s : State) : State := { s with regs := mset regReset s.regs off v }

/-- Stored bits of the copy that a view holds. -/
def getView (s : State) (p : Party) (off : Nat) : Word := getReg s (viewKey p off)

/-- The state with a view's copy replaced. -/
def setView (p : Party) (off : Nat) (v : Word) (s : State) : State := setReg (viewKey p off) v s

/-- A field of a register. -/
def regFld (s : State) (off lo w : Nat) : Nat := fld (getReg s off) lo w

/-- The state with a field of a register replaced. -/
def setRegFld (off lo w x : Nat) (s : State) : State := setReg off (setFld (getReg s off) lo w x) s

/-- A 64-bit register (R10). -/
def getReg64 (s : State) (off : Nat) : DWord := join64 (getReg s (off + 4)) (getReg s off)

/-- The state with a 64-bit register replaced. -/
def setReg64 (off : Nat) (v : DWord) (s : State) : State := setReg (off + 4) (hi32 v) (setReg off (lo32 v) s)

/-- `n` consecutive registers as bytes, from a view's copies. -/
def viewBytes (s : State) (p : Party) (off : Nat) : Nat → Bytes
  | 0 => []
  | n + 1 => toLe 4 (getView s p off).toNat ++ viewBytes s p (off + 4) n

/-- A view's registers from `off` on set to the words given. -/
def setViewWords (p : Party) (off : Nat) : List Word → State → State
  | [], s => s
  | w :: ws, s => setViewWords p (off + 4) ws (setView p off w s)

/-- Zero, the reset value of every counter (R11). -/
def zero64 : Nat → DWord := fun _ => 0

/-- Value of a 64-bit counter. -/
def getCtr (s : State) (off : Nat) : DWord := mget zero64 s.ctr off

/-- The state with `n` added to a counter; counters do not saturate (R11). -/
def addCtr (off n : Nat) (s : State) : State := { s with ctr := mset zero64 s.ctr off (getCtr s off + BitVec.ofNat 64 n) }

/-- One more on a counter. -/
def incr (off : Nat) (s : State) : State := addCtr off 1 s

/-- The state with one more thing sent. -/
def emit (o : Out) (s : State) : State := { s with out := s.out ++ [o] }

/-- Milliseconds in ns. -/
def ms (n : Nat) : Nat := n * 1000000

/-- Microseconds in ns. -/
def us (n : Nat) : Nat := n * 1000

/-- Instance number of the PF (R234). -/
def pf : Nat := 4096

/-- The next value that the spec leaves open: its number, and the state that has taken it. -/
def takeFree (s : State) : Nat × State := (s.freeUsed, { s with freeUsed := s.freeUsed + 1 })

/-- The latches of the registers picked by `p`, those of every party, read 0 again: a reset has cleared the block (R10). -/
def clearLatches (p : Nat → Bool) (s : State) : State := { s with latch := mfilter (fun k _ => !p (k % 2 ^ 32)) s.latch }

/-- The value of a register returned to a party that reads it. -/
def returnValue (p : Party) (off : Nat) (v : Word) (s : State) : State := emit (.readValue p off v) s

/-- `f` applied for each element, first to last. -/
def forEach {α : Type} (f : α → State → State) : List α → State → State
  | [], s => s
  | a :: as, s => forEach f as (f a s)

/-- The numbers `lo .. lo + n - 1`. -/
def span (lo n : Nat) : List Nat := (List.range n).map (· + lo)

/-- The column of R460 that is in force: thermal hold applies that of P2 (R464, R488). -/
def powerSchedule (s : State) : PowerState := if s.pcr.thermHold && s.pcr.power ≠ .p3 then .p2 else s.pcr.power

/-- Whether reset is released: the VIN12 islands run (R449). -/
def isRunning (s : State) : Bool := decide (s.pcr.phase = .running)

end Sys2Proof.Machine
end

