-- ==== Sys2Proof/Machine/Dwrr.lean ====
section
/-! DEFINITION. Deficit weighted round robin (R139): the traffic manager and the Gondola links share by it. -/

namespace Sys2Proof.Machine

/-- One queue of a DWRR level that holds a frame: its number, whether it is eligible, the length of its head frame, its
weight (R139). -/
structure DwrrQueue where
  id : Nat
  eligible : Bool
  len : Nat
  weight : Nat
deriving DecidableEq, Repr

/-- Deficit of a queue. -/
def deficitOf (d : DwrrSet) (q : Nat) : Nat := mget (fun _ => 0) d.deficit q

/-- The level with a deficit replaced. -/
def setDeficit (d : DwrrSet) (q x : Nat) : DwrrSet := { d with deficit := mset (fun _ => 0) d.deficit q x }

/-- The queue that follows `q` among those that hold a frame, in ascending order and wrapping. -/
def dwrrNext (qs : List DwrrQueue) (q : Nat) : Nat :=
  match qs.find? (fun x => decide (q < x.id)) with
  | some x => x.id
  | none => match qs with | x :: _ => x.id | [] => q

/-- The deficits with those of the empty queues between `a` and `b` set to 0: set.cur passes over them. -/
def dwrrSkip (qs : List DwrrQueue) (a b : Nat) (d : DwrrSet) : DwrrSet :=
  { d with deficit := mfilter (fun q _ => qs.any (fun x => x.id = q) ||
      !(if a < b then decide (a ≤ q) && decide (q < b) else decide (a ≤ q) || decide (q < b))) d.deficit }

/-- dwrr_pick of R139 over the queues that hold a frame, in ascending order. -/
def dwrrPick (quantum : Nat) (qs : List DwrrQueue) : Nat → DwrrSet → Option Nat × DwrrSet
  | 0, d => (none, d)
  | fuel + 1, d =>
    if !qs.any DwrrQueue.eligible then (none, d)
    else
      match qs.find? (fun x => x.id = d.cur && x.eligible && decide (x.len ≤ deficitOf d x.id)) with
      | some x => (some x.id, setDeficit d x.id (deficitOf d x.id - x.len))
      | none =>
        let nxt := dwrrNext qs d.cur
        let d1 := dwrrSkip qs d.cur nxt { d with cur := nxt }
        let d2 := match qs.find? (fun x => x.id = nxt && x.eligible) with
          | some x => setDeficit d1 nxt (deficitOf d1 nxt + x.weight * quantum)
          | none => d1
        dwrrPick quantum qs fuel d2

/-- Enough turns for a pick: a frame of at most 16,388 bytes takes at most 65 rounds of the smallest quantum. -/
def dwrrFuel (qs : List DwrrQueue) : Nat := 70 * (qs.length + 1)

end Sys2Proof.Machine
end

