-- ==== Sys2Proof/Machine/Route.lean ====
section
/-! DEFINITION. Routes across the Cascade (R366, R368). -/

namespace Sys2Proof.Machine

/-- A channel with its sequence state reset (R362). -/
def LinkChannel.fresh : LinkChannel :=
  { nextSeq := 0, expected := 0, heard := false, replay := [], queue := [], share := { cur := 0, deficit := [] }, nak := false, nakSeen := false, replays := 0,
    progressAt := 0 }

/-- A link that is DOWN. -/
def Link.down : Link :=
  { state := .down, since := 0, peer := 0, peerValid := false, ch0 := LinkChannel.fresh, ch1 := LinkChannel.fresh,
    lastMarker := none, sideband := none, missed := 0, fresh := 0 }

/-- A Gondola link. -/
def getLink (s : State) (g : Nat) : Link := mget (fun _ => Link.down) s.cas.links g

/-- The state with a link replaced. -/
def setLink (g : Nat) (l : Link) (s : State) : State :=
  { s with cas := { s.cas with links := mset (fun _ => Link.down) s.cas.links g l } }

/-- This device's own PEERS: the peer of each link that is UP (R364). -/
def ownPeers (s : State) : List Nat :=
  (List.range 4).map (fun g => let l := getLink s g; if l.state = .up || l.state = .retrain then l.peer else 0xFF)

/-- PEERS of a device: its own, or those of the latest accepted TOPO; a leaving device has none. -/
def peersOf (s : State) (id : Nat) : List Nat :=
  if id = s.ident.cid then ownPeers s
  else match mfind s.cas.topo id with
    | some t => if t.leaving then [] else t.peers
    | none => []

/-- The device behind link `k` of `a`, when both ends list each other (R366). -/
def edgeFrom (s : State) (a k : Nat) : Option Nat :=
  match (peersOf s a)[k]? with
  | some b => if b < 64 && (peersOf s b).contains a then some b else none
  | none => none

/-- The paths of `n` hops from `a` to `d` as link numbers, in lexicographic order. -/
def pathsOfLength (s : State) (d : Nat) : Nat → Nat → List (List Nat)
  | 0, a => if a = d then [[]] else []
  | n + 1, a => (List.range 4).flatMap (fun k =>
      match edgeFrom s a k with
      | some b => (pathsOfLength s d n b).map (k :: ·)
      | none => [])

/-- The shortest paths from `a` to `d` of at most 6 hops (R366). -/
def shortestPaths (s : State) (a d : Nat) : List (List Nat) :=
  ((List.range 7).map (fun n => pathsOfLength s d n a)).find? (fun ps => !ps.isEmpty) |>.getD []

/-- Whether a device is reachable, as the routes in force have it. -/
def isReachable (s : State) (id : Nat) : Bool := (mfind s.cas.reach id).isSome

/-- The path that a frame takes: path number FLOW_HASH mod the number of paths (R366). -/
def routePath (s : State) (d hash : Nat) : Option (List Nat) :=
  let ps := (mfind s.cas.paths d).getD []
  ps[hash % ps.length]?

/-- The fabric header that the entry device writes (R367, R368). -/
def fabricTo (s : State) (d : Nat) (f : Frame) : Option Fabric :=
  (routePath s d f.hash.toNat).map (fun p =>
    { dst := d, src := s.ident.cid, epoch := mget (fun _ => 0) s.cas.epochs d, route := p, hop := 0 })

/-- Remote devices that hold a member of a group (R369). -/
def remoteMembers (s : State) (g : Nat) : List Nat :=
  let ms := ((mfind s.flp.groups g).map Group.active).getD []
  (List.range 64).filter (fun d => d ≠ s.ident.cid && ms.any (fun m => (m.toNat / 32) % 64 = d))

end Sys2Proof.Machine
end

