-- ==== Sys2Proof/Machine/Tokens.lean ====
section
/-! DEFINITION. Work tokens (R33, R34): which operation holds one, and whether one is free. -/

namespace Sys2Proof.Machine

/-- A queue pair that is not configured. -/
def Queue.init : Queue :=
  { state := .disabled, kind := .tx, inst := 0, sqLog2 := 4, cqLog2 := 4, sqBase := 0, cqBase := 0, tail := 0, fetched := 0, freed := 0,
    written := 0, cqHead := 0, vector := 0, modCount := 1, modUs := 0, tstamp := false, storq := 0, ls := false, armed := false,
    unsignalled := 0, firstUnsig := none, pushed := [], jobs := [], chain := [], qerr := none, resets := [] }

/-- A queue pair. -/
def getQueue (s : State) (qp : Nat) : Queue := mget (fun _ => Queue.init) s.wqm.queues qp

/-- Work tokens that a queue's jobs and its open chain hold: operations begun and not finished. A receive buffer holds none before a frame
has started in it. -/
def Queue.tokens (q : Queue) : Nat :=
  (q.jobs.filter (fun j => j.phase ≠ .waiting || q.kind ≠ .rx)).length + (if q.chain.isEmpty then 0 else 1)

/-- Whether an instance owns an LS queue pair (R542): its DMA channels are LS channels (DESIGN CHOICE: the spec does not say which
channels these are; log entry 25). -/
def lsInstance (s : State) (inst : Nat) : Bool := s.wqm.lsImage.any (fun e => e.2.inst = inst)

/-- Whether a read is part of an LS operation (R33). -/
def lsRead (s : State) (fn : Nat) (p : ReadFor) : Bool :=
  match p with
  | .descriptor qp _ => (getQueue s qp).ls
  | .jobData qp _ => (getQueue s qp).ls
  | .barrier qp _ => (getQueue s qp).ls
  | .burst _ => lsInstance s fn
  | .load _ => lsInstance s fn
  | .fence _ => lsInstance s fn
  | .attest _ => false

/-- Whether a read is an operation of its own, with its own token: one for a job is part of the job, whose token it uses, and the next
descriptor of an open chain is part of the chain (DEDUCED; log entry 59). -/
def ownOperation (s : State) (p : ReadFor) : Bool :=
  match p with
  | .descriptor qp _ => (getQueue s qp).chain.isEmpty
  | .jobData _ _ => false
  | .barrier _ _ => false
  | _ => true

/-- Whether an outstanding read holds a token: an operation of its own, or one whose operation is gone while its completion can still
arrive (R34). -/
def tagToken (s : State) (e : TagEntry) : Bool := e.abandoned || e.quarantined || ownOperation s e.purpose

/-- Storage commands that have ended or been abandoned, or have lost their owner, while a CID of theirs can still be answered (R34,
R185, R246), and those of the recorder (`journal`). -/
def storTokens (s : State) (journal : Bool) : Nat :=
  let cmds := (s.str.cmds.filter (fun e => match e.2.owner with | .queue _ _ => false | .journal _ => journal | .jnl _ _ => false | .gone => !journal)).length
  let held := s.str.conns.flatMap (fun c => c.2.cids.filterMap (fun u => match u.2 with | .held k => some k | _ => none))
  if journal then cmds else cmds + held.eraseDups.length

/-- Frames of a channel of the Gondola links that wait for an acknowledgement. -/
def linkTokens (s : State) (ch : Nat) : Nat :=
  s.cas.links.foldl (fun n l => n + (if ch = 0 then l.2.ch0 else l.2.ch1).replay.length) 0

/-- Tokens that LS operations hold (`ls`), or the others (R33): jobs, host reads, cipher passes, storage commands of the engine's own and
Gondola frames, channel 0 being that of LS frames. -/
def tokensBy (s : State) (ls : Bool) : Nat :=
  (s.wqm.queues.filter (fun e => e.2.ls = ls)).foldl (fun n e => n + e.2.tokens) 0
    + (s.hep.tags.filter (fun e => tagToken s e.2 && decide (lsRead s e.2.fn e.2.purpose = ls))).length
    + (s.cph.passes.filter (fun e => e.2.ls = ls)).length + storTokens s ls + linkTokens s (if ls then 0 else 1)

/-- Work tokens of the device (R33). -/
def tokensHeld (s : State) : Nat := tokensBy s true + tokensBy s false

/-- No token is free for one more operation (R33): LS operations draw first from the 8,192 reserved tokens, then with the others from the
122,880 general ones. -/
def noToken (s : State) (ls : Bool) : Bool :=
  let used := tokensBy s true
  !(ls && decide (used < 8192)) && decide (122880 ≤ tokensBy s false + (used - 8192))

end Sys2Proof.Machine
end

