-- ==== Sys2Proof/Machine/LinkSend.lean ====
section
/-! DEFINITION. Sending on Gondola links: link frames, windows and replay buffers (R356, R358, R359), and TLP frames (R370). -/

namespace Sys2Proof.Machine

/-- A TLP or SLOT frame (R358). -/
def LinkFrame.isTunnel (f : LinkFrame) : Bool := f.type = 2 || f.type = 5

/-- The link carries frames: UP or RETRAIN (R362). -/
def linkCarries (l : Link) : Bool := l.state = .up || l.state = .retrain

/-- A channel of a link. -/
def getChan (l : Link) (ch : Nat) : LinkChannel := if ch = 0 then l.ch0 else l.ch1

/-- The link with a channel replaced. -/
def setChan (l : Link) (ch : Nat) (c : LinkChannel) : Link := if ch = 0 then { l with ch0 := c } else { l with ch1 := c }

/-- The bytes of a link frame: header, payload, CRC32C, padding to a beat of 32 bytes (R356). -/
def linkBytes (ch seq : Nat) (f : LinkFrame) : Bytes :=
  let h := toLe 1 f.type ++ toLe 1 ch ++ toLe 2 seq ++ toLe 2 f.payload.length ++ toLe 1 (f.dst + (if f.local_ then 128 else 0))
    ++ toLe 1 f.src ++ List.replicate 8 0 ++ f.payload
  let c := h ++ toLe 4 (crc32c h).toNat
  c ++ List.replicate ((32 - c.length % 32) % 32) 0

/-- Length of a link frame on the wire. -/
def wireLen (payload : Nat) : Nat := ceilDiv (payload + 20) 32 * 32

/-- Bytes of a channel's replay buffer in use. -/
def replayBytes (c : LinkChannel) : Nat := (c.replay.map (fun f => wireLen f.frame.payload.length)).sum

/-- Size of a replay buffer (R359). -/
def replaySize (ch : Nat) : Nat := if ch = 0 then 131072 else 524288

/-- Whether the window of a channel admits a frame (R359). -/
def windowAdmits (ch : Nat) (c : LinkChannel) (f : LinkFrame) : Bool :=
  decide (c.replay.length < 2047) && decide (replayBytes c + wireLen f.payload.length ≤ replaySize ch)

/-- Whether a link in its state carries a frame: VERIFY carries TOPO only (R362). -/
def stateCarries (l : Link) (f : LinkFrame) : Bool := l.state = .up || (l.state = .verify && f.type = 4)

/-- The two kinds of frame that share channel 1, each by its first frame: fabric frames as queue 0, TLP and SLOT frames as queue 1 with TLP_W
eighths of the link (R358). -/
def shareQueues (s : State) (c : LinkChannel) : List DwrrQueue :=
  let w := regFld s rCAS_LINK_CFG 16 3
  let kind := fun (k : Bool) (id weight : Nat) => ((c.queue.find? (fun f => f.isTunnel = k)).map (fun f =>
    ({ id := id, eligible := true, len := wireLen f.payload.length, weight := weight } : DwrrQueue))).toList
  kind false 0 (8 - w) ++ kind true 1 w

/-- The frame that a channel sends next, with its DWRR after it: the first one on channel 0, byte DWRR between the two kinds on channel 1 (R358).
The DWRR is that of R139; an eighth is worth 512 bytes a round (DESIGN CHOICE: R358 names no quantum; log entry 36). -/
def nextFrame (s : State) (ch : Nat) (c : LinkChannel) : Option (LinkFrame × DwrrSet) :=
  if ch = 0 then c.queue.head?.map (fun f => (f, c.share))
  else
    let qs := shareQueues s c
    let pick := dwrrPick 512 qs (dwrrFuel qs) c.share
    pick.1.bind (fun k => (c.queue.find? (fun f => f.isTunnel = decide (k = 1))).map (fun f => (f, pick.2)))

/-- Whether the next frame of a channel waits for its window or its replay buffer (R359). -/
def windowHolds (s : State) (l : Link) (ch : Nat) : Bool :=
  match nextFrame s ch (getChan l ch) with
  | none => false
  | some (f, _) => !windowAdmits ch (getChan l ch) f

/-- A frame leaves on a link. -/
def wireFrame (g ch seq : Nat) (f : LinkFrame) (s : State) : State :=
  addCtr (cCAS_G_BYTES_TX g) (wireLen f.payload.length) (incr (cCAS_G_FRAMES_TX g) (emit (.gondolaTx g f.type (linkBytes ch seq f)) s))

/-- A frame of a channel may leave now: the link carries it, the window admits it, and it finds a work token: a frame holds one until
it is acknowledged (R33, R359). -/
def mayLeave (s : State) (l : Link) (ch : Nat) (f : LinkFrame) : Bool :=
  stateCarries l f && windowAdmits ch (getChan l ch) f && !noToken s (ch = 0)

/-- Frames of a channel that may leave do so in the order of R358, at most `n` of them (R359). -/
def pumpChannel (g ch : Nat) : Nat → State → State
  | 0, s => s
  | n + 1, s =>
    let l := getLink s g
    let c := getChan l ch
    match nextFrame s ch c with
    | none => s
    | some (f, share) =>
      if !mayLeave s l ch f then s
      else
        let progress := if c.replay.isEmpty then s.now else c.progressAt
        let c1 := { c with nextSeq := (c.nextSeq + 1) % 4096, queue := c.queue.erase f, share := share, replay := c.replay ++ [{ seq := c.nextSeq, frame := f }], progressAt := progress }
        pumpChannel g ch n (wireFrame g ch c.nextSeq f (setLink g (setChan l ch c1) s))

/-- Everything that a channel may send leaves. -/
def pump (g ch : Nat) (s : State) : State := pumpChannel g ch ((getChan (getLink s g) ch).queue.length) s

/-- A frame joins the queue of a channel and leaves when it may. -/
def sendLink (g ch : Nat) (f : LinkFrame) (s : State) : State :=
  let l := getLink s g
  let c := getChan l ch
  pump g ch (setLink g (setChan l ch { c with queue := c.queue ++ [f] }) s)

/-- FLOW_HASH of the TLP path between this device and another: the member's Cascade ID (R370). -/
def tlpHash (s : State) (d : Nat) : Nat := if s.ident.role = .head then d else s.ident.cid

/-- The link on which a TLP or SLOT frame for `d` leaves; a device on the way uses the member at either end. -/
def linkToward (s : State) (d hash : Nat) : Option Nat := (routePath s d hash).bind List.head?

/-- Bytes of TLP frames queued on a link (R370). -/
def tlpQueued (s : State) (g : Nat) : Nat :=
  (((getLink s g).ch1.queue.filter (fun f => f.type = 2)).map (fun f => f.payload.length)).sum

/-- A TLP frame leaves toward its destination, or is lost (R370). -/
def forwardTlp (f : LinkFrame) (hash : Nat) (s : State) : State :=
  match linkToward s f.dst hash with
  | none => incr cCAS_LOST_DEST_DROP (incr cCAS_TLP_LOST s)
  | some g => if 65536 < tlpQueued s g + f.payload.length then incr cCAS_TLP_LOST s else sendLink g 1 f s

/-- This device sends a TLP to another (R370): held while the path change settles. -/
def sendTlp (d : Nat) (payload : Bytes) (s : State) : State :=
  let f : LinkFrame := { type := 2, dst := d, src := s.ident.cid, local_ := false, payload := payload }
  match mfind s.cas.tlpHold d with
  | some h => { s with cas := { s.cas with tlpHold := minsert s.cas.tlpHold d { h with frames := h.frames ++ [f] } } }
  | none => forwardTlp f (tlpHash s d) s

/-- The reachable head, as the latest TOPO has it. -/
def headCid (s : State) : Option Nat := (s.cas.topo.find? (fun e => e.2.role = 1 && isReachable s e.1)).map Prod.fst

end Sys2Proof.Machine
end

