-- ==== Sys2Proof/Machine/Tlp.lean ====
section
/-! DEFINITION. PCI Express transactions between the head and a member (R370), and what a function sends to the host: on the device's own
link, or from a member as a TLP frame to the head. The layout of the header inside a TLP frame is the model's: the spec leaves it to
the base specification (log entry). -/

namespace Sys2Proof.Machine

/-- A transaction inside a TLP frame. `fn` is the function of the member that asks or is asked. -/
inductive Tlp where
  | memRead (fn addr len tag : Nat)
  | memWrite (fn addr : Nat) (bytes : Bytes) (ro poisoned : Bool) (tag : Nat)
  | cfg (fn reg : Nat) (write : Bool) (be : Nat) (data : Nat) (tag : Nat)
  | cpl (fn tag : Nat) (status : CplStatus) (poisoned : Bool) (bytes : Bytes)
  | msg (fn code arg : Nat)
  /-- an I/O, locked, AtomicOp or Deferrable Memory Write request -/
  | other (fn tag : Nat)
deriving DecidableEq, Repr

/-- Number of a completion status. -/
def cplCode : CplStatus → Nat
  | .success => 0
  | .unsupported => 1
  | .retry => 2
  | .abort => 4

/-- The completion status of a number. -/
def cplOf : Nat → CplStatus
  | 0 => .success
  | 1 => .unsupported
  | 2 => .retry
  | _ => .abort

/-- The 24 bytes of the model's TLP header: kind, flags, function, tag, length and address. -/
def tlpHeader (kind flags fn tag len addr : Nat) : Bytes :=
  toLe 1 kind ++ toLe 1 flags ++ toLe 2 fn ++ toLe 2 tag ++ toLe 2 0 ++ toLe 8 len ++ toLe 8 addr

/-- A transaction as the payload of a TLP frame. -/
def tlpBytes : Tlp → Bytes
  | .memRead fn addr len tag => tlpHeader 0x20 0 fn tag len addr
  | .memWrite fn addr bs ro ep tag => tlpHeader 0x60 ((if ro then 1 else 0) + (if ep then 2 else 0)) fn tag bs.length addr ++ bs
  | .cfg fn reg w be data tag => tlpHeader (if w then 0x44 else 0x04) (16 * be) fn tag data reg
  | .cpl fn tag st ep bs => tlpHeader 0x4A ((if ep then 2 else 0) + 16 * cplCode st) fn tag bs.length 0 ++ bs
  | .msg fn code arg => tlpHeader 0x30 0 fn 0 arg code
  | .other fn tag => tlpHeader 0x02 0 fn tag 0 0

/-- The transaction in the payload of a TLP frame. -/
def parseTlp (p : Bytes) : Option Tlp :=
  let flags := byteAt p 1
  let fn := leAt p 2 2
  let tag := leAt p 4 2
  let len := leAt p 8 8
  let addr := leAt p 16 8
  if p.length < 24 then none
  else match byteAt p 0 with
    | 0x20 => some (.memRead fn addr len tag)
    | 0x60 => some (.memWrite fn addr (slice p 24 len) (nbit flags 0) (nbit flags 1) tag)
    | 0x04 => some (.cfg fn addr false (flags / 16) len tag)
    | 0x44 => some (.cfg fn addr true (flags / 16) len tag)
    | 0x4A => some (.cpl fn tag (cplOf (flags / 16)) (nbit flags 1) (slice p 24 len))
    | 0x30 => some (.msg fn addr len)
    | 0x02 => some (.other fn tag)
    | _ => none

/-- Code and argument of a message. -/
def msgCode : HostMsg → Nat × Nat × Nat
  | .frs fn reason => (fn, 1, reason)
  | .drs => (pf, 2, 0)
  | .err fn sev => (fn, 3, sev)

/-- Data of at most 4,096 bytes a piece. -/
def chunks : Nat → Bytes → List Bytes
  | 0, _ => []
  | n + 1, bs => if bs.length ≤ 4096 then [bs] else bs.take 4096 :: chunks n (bs.drop 4096)

/-- The transactions of a member that carry what it sends to the host. -/
def tlpsOf : Out → List Tlp
  | .hostWrite fn addr bs ro =>
    let cs := chunks (bs.length / 4096 + 1) bs
    (cs.zip (List.range cs.length)).map (fun c => .memWrite fn (addr + 4096 * c.2) c.1 ro false 0)
  | .hostRead fn addr len tag => [.memRead fn addr len tag]
  | .msix fn _ addr data => [.memWrite fn addr.toNat (toLe 4 data.toNat) false false 0]
  | .completion tag st bs => [.cpl pf tag st false bs]
  | .hostMsg m => let (fn, code, arg) := msgCode m; [.msg fn code arg]
  | _ => []

/-- Something leaves for the host (R370): on the device's own link, or as TLP frames of a member to the head. -/
def hostOut (o : Out) (s : State) : State :=
  if s.ident.role = .member then
    match headCid s with
    | some h => forEach (fun t s => sendTlp h (tlpBytes t) s) (tlpsOf o) s
    | none => addCtr cCAS_TLP_LOST (tlpsOf o).length s
  else emit o s

end Sys2Proof.Machine
end

