-- ==== Sys2Proof/Machine/Ops.lean ====
section
/-! DEFINITION. What the PCI Express functions of the device send to the host: MSI-X messages and posted writes, sent or held. -/

namespace Sys2Proof.Machine

/-- The value at reset of a register of an MSI-X table: every Vector Control reads masked. -/
def msixDefault (k : Nat) : Word := if k % 4 = 3 then 1 else 0

/-- A function with everything clear. -/
def Func.init : Func :=
  { bme := false, mse := false, d3hot := false, flrFrom := none, flrTagAt := 0, flrTimedOut := false, msixEnable := false, msixFnMask := false,
    msix := [], pba := [], cfg := [], held := [] }

/-- A PCI Express function by instance. -/
def getFn (s : State) (fn : Nat) : Func := mget (fun _ => Func.init) s.hep.fns fn

/-- The state with a function replaced. -/
def setFn (fn : Nat) (f : Func) (s : State) : State :=
  { s with hep := { s.hep with fns := mset (fun _ => Func.init) s.hep.fns fn f } }

/-- Whether a function may issue requests (R206, R218). -/
def Func.mayIssue (f : Func) : Bool := f.bme && !f.d3hot

/-- Whether requests through the downstream port of Cascade ID `k` of a head are blocked: it or the upstream port is in D3hot, as if its
enables were clear (R206). -/
def portAsleep (s : State) (k : Nat) : Bool :=
  decide (s.ident.role = .head) && ((getFn s 8191).d3hot || (getFn s (8192 + k)).d3hot)

/-- Whether a function may issue requests now: its own enables allow it, and no port above it is in D3hot (R206, R218). -/
def maySend (s : State) (fn : Nat) : Bool :=
  (getFn s fn).mayIssue && !portAsleep s (if fn < 8191 then s.ident.cid else fn - 8192)

/-- Whether a vector is masked by its own mask or the function's. -/
def Func.vectorMasked (f : Func) (vec : Nat) : Bool := f.msixFnMask || bit (mget msixDefault f.msix (4 * vec + 3)) 0

/-- The message of a vector. -/
def msixOut (fn : Nat) (f : Func) (vec : Nat) : Out :=
  .msix fn vec (join64 (mget msixDefault f.msix (4 * vec + 1)) (mget msixDefault f.msix (4 * vec))) (mget msixDefault f.msix (4 * vec + 2))

/-- One more thing held by a function; BME_HELD counts writes and messages (R218). -/
def holdOut (fn : Nat) (h : HeldOut) (s : State) : State :=
  let f := getFn s fn
  setFn fn { f with held := f.held ++ [h] } (incr cHEP_BME_HELD s)

/-- A function asks for the message of a vector (R218, R539). With MSI-X Enable clear no message is formed. A masked vector sets its
Pending Bit. A function that may not issue requests holds the message and sets its Pending Bit. -/
def sendMsix (fn vec : Nat) (s : State) : State :=
  let f := getFn s fn
  if !f.msixEnable then s
  else if f.vectorMasked vec then setFn fn { f with pba := mset (fun _ => false) f.pba vec true } s
  else if maySend s fn then hostOut (msixOut fn f vec) s
  else holdOut fn (.msix vec) (setFn fn { f with pba := mset (fun _ => false) f.pba vec true } s)

/-- A function writes host memory (R218): the write leaves, or is held in order while the function may not issue requests. Under an
FLR data not yet issued is squashed (R225). `segs` are the DTU segments that translated it. -/
def dtuWrite (fn addr : Nat) (bytes : Bytes) (ro : Bool) (segs : List Nat) (s : State) : State :=
  let f := getFn s fn
  if f.flrFrom.isSome then s
  else if maySend s fn then hostOut (.hostWrite fn addr bytes ro) s
  else holdOut fn (.write addr bytes ro segs false) s

/-- A write that the DTU has not translated. -/
def hostWrite (fn addr : Nat) (bytes : Bytes) (ro : Bool) (s : State) : State := dtuWrite fn addr bytes ro [] s

/-- The held writes, flushing reads and messages of a function leave in order (R206, R218); a message whose vector is masked by now
stays pending. The time-out of a flushing read runs from here. -/
def releaseHeld (fn : Nat) : List HeldOut → State → State
  | [], s => s
  | .write a b ro _ _ :: hs, s => releaseHeld fn hs (hostOut (.hostWrite fn a b ro) s)
  | .read a n tag :: hs, s =>
    let tags := mmodify s.hep.tags tag (fun e => { e with issued := s.now })
    releaseHeld fn hs (hostOut (.hostRead fn a n tag) { s with hep := { s.hep with tags := tags } })
  | .msix vec :: hs, s =>
    let f := getFn s fn
    if f.vectorMasked vec then releaseHeld fn hs s
    else releaseHeld fn hs (hostOut (msixOut fn f vec) (setFn fn { f with pba := mset (fun _ => false) f.pba vec false } s))

end Sys2Proof.Machine
end

