-- ==== Sys2Proof/Machine/Flags.lean ====
section
/-! DEFINITION. The event flags of the blocks: how the hardware sets a bit of an event register and signals it (R8, R539). -/

namespace Sys2Proof.Machine

/-- The hardware sets the bits of `set` in an event register (R539). A bit that goes from 0 to 1 with its ENABLE bit set sends the
VECTOR of the mask register, once for all bits set together. -/
def raiseBits (ev mask : Nat) (set : Word) (s : State) : State :=
  let old := getReg s ev
  let s1 := setReg ev (old ||| set) s
  let m := getReg s mask
  if set &&& ~~~ old &&& setFld m 16 16 0 = 0 then s1 else sendMsix pf (fld m 16 11) s1

/-- One event bit. -/
def raise (ev mask n : Nat) (s : State) : State := raiseBits ev mask (putBit n true) s

/-- Software has written `new` to an event mask register (R539): each ENABLE bit written as 1 whose event bit reads 1, also one that was
already set, sends the vector at once. -/
def enableBits (ev mask : Nat) (new : Word) (s : State) : State :=
  if setFld new 16 16 0 &&& getReg s ev = 0 then s else sendMsix pf (fld (getReg s mask) 16 11) s

/-- `f` with the bits that it sets in one event register signalled together (R539): bits that are set in the same clock send one message,
behind what else `f` sends. The register's ENABLE bits read 0 for `f` itself. -/
def signalOnce (ev mask : Nat) (f : State → State) (s : State) : State :=
  let m := getReg s mask
  let s1 := f (setReg mask 0 s)
  let s2 := setReg mask m s1
  if getReg s1 ev &&& ~~~ getReg s ev &&& setFld m 16 16 0 = 0 then s2 else sendMsix pf (fld m 16 11) s2

/-- HEP_EVENT. -/
def evHep (n : Nat) (s : State) : State := raise rHEP_EVENT rHEP_EVENT_MASK n s
/-- VFM_EVENT. -/
def evVfm (n : Nat) (s : State) : State := raise rVFM_EVENT rVFM_EVENT_MASK n s
/-- WQM_EVENT. -/
def evWqm (n : Nat) (s : State) : State := raise rWQM_EVENT rWQM_EVENT_MASK n s
/-- DMA_EVENT. -/
def evDma (n : Nat) (s : State) : State := raise rDMA_EVENT rDMA_EVENT_MASK n s
/-- POOL_EVENT. -/
def evPool (n : Nat) (s : State) : State := raise rPOOL_EVENT rPOOL_EVENT_MASK n s
/-- SWC_EVENT. -/
def evSwc (n : Nat) (s : State) : State := raise rSWC_EVENT rSWC_EVENT_MASK n s
/-- FLP_EVENT. -/
def evFlp (n : Nat) (s : State) : State := raise rFLP_EVENT rFLP_EVENT_MASK n s
/-- TMG_EVENT. -/
def evTmg (n : Nat) (s : State) : State := raise rTMG_EVENT rTMG_EVENT_MASK n s
/-- CPH_EVENT. -/
def evCph (n : Nat) (s : State) : State := raise rCPH_EVENT rCPH_EVENT_MASK n s
/-- STR_EVENT. -/
def evStr (n : Nat) (s : State) : State := raise rSTR_EVENT rSTR_EVENT_MASK n s
/-- ETH_EVENT. -/
def evEth (n : Nat) (s : State) : State := raise rETH_EVENT rETH_EVENT_MASK n s
/-- LOOP_EVENT of loop port k. -/
def evLoop (k n : Nat) (s : State) : State := raise (rLOOP_EVENT k) (rLOOP_EVENT_MASK k) n s
/-- CAS_EVENT. -/
def evCas (n : Nat) (s : State) : State := raise rCAS_EVENT rCAS_EVENT_MASK n s
/-- SVC_EVENT. -/
def evSvc (n : Nat) (s : State) : State := raise rSVC_EVENT rSVC_EVENT_MASK n s
/-- PCR_EVENT. -/
def evPcr (n : Nat) (s : State) : State := raise rPCR_EVENT rPCR_EVENT_MASK n s
/-- PCR_IMG_EVENT. -/
def evImg (n : Nat) (s : State) : State := raise rPCR_IMG_EVENT rPCR_IMG_EVENT_MASK n s
/-- MEM_EVENT. -/
def evMem (n : Nat) (s : State) : State := raise rMEM_EVENT rMEM_EVENT_MASK n s
/-- TIM_EVENT. -/
def evTim (n : Nat) (s : State) : State := raise rTIM_EVENT rTIM_EVENT_MASK n s
/-- ALP_EVENT. -/
def evAlp (n : Nat) (s : State) : State := raise rALP_EVENT rALP_EVENT_MASK n s
/-- CRT_EVENT. -/
def evCrt (n : Nat) (s : State) : State := raise rCRT_EVENT rCRT_EVENT_MASK n s

end Sys2Proof.Machine
end

