-- ==== Sys2Proof/Machine/Levels.lean ====
section
/-! DEFINITION. Resource records, and the alarm levels and shed levels as each subsystem sees them (R60, R61, R236). -/

namespace Sys2Proof.Machine

/-- Numbers of the subsystems in `Alp.levels`. -/
def subsystemNumber : Subsystem → Nat
  | .hep => 0 | .vfm => 1 | .wqm => 2 | .dma => 3 | .pool => 4 | .swc => 5 | .flp => 6 | .tmg => 7
  | .cph => 8 | .str => 9 | .eth => 10 | .loop => 11 | .cas => 12 | .svc => 13 | .crt => 14 | .pcr => 15

/-- All subsystems that the wire set reaches. -/
def allSubsystems : List Subsystem :=
  [.hep, .vfm, .wqm, .dma, .pool, .swc, .flp, .tmg, .cph, .str, .eth, .loop, .cas, .svc, .crt, .pcr]

/-- The level that has reached a subsystem (R14, R60). -/
def levelAt (s : State) (b : Subsystem) : AlarmState := mget (fun _ => AlarmState.normal) s.alp.levels (subsystemNumber b)

/-- EMERGENCY or HOLDOVER. -/
def AlarmState.emergent : AlarmState → Bool
  | .emergency => true
  | .holdover => true
  | _ => false

/-- EMERGENCY, HOLDOVER or DRILL. -/
def AlarmState.active : AlarmState → Bool
  | .normal => false
  | _ => true

/-- Default record of an instance: the VF defaults, or the PF record of the image (R236, R241). -/
def defaultRecord (s : State) (inst : Nat) : ResRecord := if inst = pf then s.vfm.pfImage else ResRecord.vfDefault

/-- The record of an instance as committed (R238). -/
def getRecord (s : State) (inst : Nat) : ResRecord := (mfind s.vfm.records inst).getD (defaultRecord s inst)

/-- The record of an instance as the latest parameter sweep left it, for the fields that R238 defers to it. -/
def sweptRecord (s : State) (inst : Nat) : ResRecord := (mfind s.vfm.inForce inst).getD (defaultRecord s inst)

/-- The level at which an instance is shed, as a subsystem sees it; 0 when it is not shed (R61). -/
def shedAt (s : State) (b : Subsystem) (inst : Nat) : Nat :=
  if inst ≥ pf then 0
  else
    let lv := (sweptRecord s inst).shed
    match levelAt s b with
    | .normal => 0
    | .drill => if s.alp.drillShed ≠ 0 && s.alp.drillShed ≤ lv then lv else 0
    | .emergency => lv
    | .holdover => lv

/-- Factor of L1_SCALE applied to a rate or weight (R140, ALP_SHED_CFG). -/
def l1Scaled (s : State) (x : Nat) : Nat := max 1 (x / 2 ^ (regFld s rALP_SHED_CFG 0 2 + 1))

/-- Whether a node is this device. -/
def isOwnCid (s : State) (cid : Nat) : Bool := cid = s.ident.cid

end Sys2Proof.Machine
end

