-- ==== Sys2Proof/Machine/Limits.lean ====
section
/-! DEFINITION. What an instance may start (R33, R236, R239, R240, R253, R261): its queues, tokens and host reads, and the nanoseconds in
which its limits hold it. -/

namespace Sys2Proof.Machine

/-- Number of the service admin ring among the queues (R266). -/
def svcRingQp : Nat := 65536

/-- Entries in the CQ. -/
def Queue.cqSize (q : Queue) : Nat := 2 ^ q.cqLog2

/-- Whether the CQ is full (R261). -/
def Queue.cqFull (q : Queue) : Bool := decide (q.cqHead + q.cqSize ≤ q.written)

/-- Whether a job has finished: its result is there, and its flushing read has come back (R260). -/
def Job.finished (j : Job) : Bool := (match j.phase with | .done _ => true | _ => false) && !j.barrier

/-- The first job that has not finished. -/
def Queue.current (q : Queue) : Option Job := q.jobs.find? (fun j => !j.finished)

/-- The first job that has not been begun, when nothing before it keeps it from beginning: the commands of an admin ring and the frames of a
queue go one at a time, storage commands side by side (R184, R264, R266). -/
def Queue.toBegin (q : Queue) : Option Job :=
  if q.kind = .stor then q.jobs.find? (fun j => decide (j.phase = .waiting)) else q.current.filter (fun j => decide (j.phase = .waiting))

/-- Whether a job of the queue has failed: nothing later is executed (R264). -/
def Queue.failed (q : Queue) : Bool := q.jobs.any (fun j => match j.phase with | .done r => r.qerr | _ => false)

/-- The last descriptor of a job. -/
def Job.lastDesc (j : Job) : Bytes := (j.descs.getLast?).getD []

/-- The state machine of an instance that nothing has commanded. -/
def Fn.init : Fn := { state := .run, since := 0, waiters := [] }

/-- Function state of an instance (R240). -/
def getFnS (s : State) (inst : Nat) : Fn := mget (fun _ => Fn.init) s.vfm.fns inst

/-- Byte 0 of a descriptor. -/
def descOp (d : Bytes) : Nat := byteAt d 0

/-- INLINE. -/
def descInline (d : Bytes) : Bool := nbit (byteAt d 1) 5

/-- LEN. -/
def descLen (d : Bytes) : Nat := leAt d 4 4

/-- ADDR. -/
def descAddr (d : Bytes) : Nat := leAt d 8 8

/-- The segments of a chain that lie in host memory. -/
def hostSegments (ds : List Bytes) : List (Nat × Nat) :=
  (ds.filter (fun d => !descInline d)).map (fun d => (descAddr d, descLen d))

/-- Host reads that a function has outstanding: a quarantined tag is none any more. -/
def tagsOf (s : State) (fn : Nat) : Nat := (s.hep.tags.filter (fun e => decide (e.2.fn = fn) && !e.2.quarantined)).length

/-- Whether a queue is shed (R60–R62): transmit at levels 2 and 3, storage at level 3; LS queues never. -/
def queueShed (s : State) (q : Queue) : Bool :=
  !q.ls && ((q.kind = .tx && decide (2 ≤ shedAt s .wqm q.inst)) || (q.kind = .stor && decide (3 ≤ shedAt s .wqm q.inst)))

/-- Work tokens of an instance (R239): its jobs outside LS queues, and its host reads that are no LS operations. -/
def tokensOf (s : State) (inst : Nat) : Nat :=
  (s.wqm.queues.filter (fun e => decide (e.2.inst = inst) && !e.2.ls)).foldl (fun n e => n + e.2.tokens) 0
    + (s.hep.tags.filter (fun e => decide (e.2.fn = inst) && !e.2.quarantined && !e.2.abandoned && tagToken s e.2
        && !lsRead s inst e.2.purpose)).length

/-- An instance holds MAX_TOKENS (R239); LS operations do not count. -/
def tokensSpent (s : State) (inst : Nat) : Bool := decide ((getRecord s inst).maxTokens ≤ tokensOf s inst)

/-- No token is free for the next descriptor of a queue (R33, R239): an open chain has its token. -/
def tokenBlocked (s : State) (q : Queue) : Bool :=
  q.chain.isEmpty && (noToken s q.ls || (!q.ls && tokensSpent s q.inst))

/-- No token is free for a host read of a function (R33, R239). -/
def readTokenBlocked (s : State) (fn : Nat) (p : ReadFor) : Bool :=
  ownOperation s p && (noToken s (lsRead s fn p) || (!lsRead s fn p && tokensSpent s fn))

/-- Whether the function of a queue lets it fetch: RUN, and no FLR; the PF admin queue in every state (R240, R225). -/
def fnFetches (s : State) (qp : Nat) (q : Queue) : Bool :=
  qp = svcRingQp || ((getFn s q.inst).flrFrom.isNone && (qp = 0 || decide ((getFnS s q.inst).state = .run)))

/-- Whether the function of a queue lets fetched jobs be executed: also while it quiesces, and in ERROR (R240, R249). -/
def fnExecutes (s : State) (qp : Nat) (q : Queue) : Bool :=
  qp = svcRingQp || ((getFn s q.inst).flrFrom.isNone && (qp = 0 || decide ((getFnS s q.inst).state ≠ .stopped)))

/-- Whether a queue pair lies in the range of an instance (R236). -/
def inQueueRange (s : State) (inst qp : Nat) : Bool :=
  let r := getRecord s inst
  decide (r.queueBase ≤ qp) && decide (qp < r.queueBase + r.queueCount)

/-- Whether a queue pair belongs to the instance it was set up for (R238, R250): its range holds it, or the image gives it. -/
def stillOwned (s : State) (qp : Nat) (q : Queue) : Bool := q.ls || qp = 0 || qp = svcRingQp || inQueueRange s q.inst qp

/-- Whether a queue is an admin ring whose ENABLE has been cleared: no later command is fetched or executed (R266). -/
def ringClosing (s : State) (qp : Nat) : Bool := (qp = 0 || qp = svcRingQp) && s.wqm.closing.contains (decide (qp = svcRingQp))

/-- Whether the engine takes tenant commands: not in P2 or Refuge (R187). -/
def tenantSuspended (s : State) : Bool := s.pcr.refuge || powerSchedule s = .p2

/-- Whether a CID still counts as an outstanding target command. -/
def CidUse.counts : CidUse → Bool
  | .held _ => false
  | _ => true

/-- Target commands outstanding on a connection. -/
def Conn.outstanding (c : Conn) : Nat := (c.cids.filter (fun e => e.2.counts)).length

/-- Target commands outstanding on the device (R177). -/
def outstandingCmds (s : State) : Nat := (s.str.conns.map (fun e => e.2.outstanding)).sum

/-- Whether a connection has room for one more command (R177): held CIDs keep their places. -/
def connHasRoom (s : State) (c : Conn) : Bool :=
  c.state = .ready && decide (c.cids.length < min 1024 (c.qsize - 1)) && decide (outstandingCmds s < 65536)

/-- Whether a sub-command is outstanding at the target. -/
def SubState.isSent : SubState → Bool
  | .sent _ _ => true
  | _ => false

/-- Target commands that an instance has outstanding (R236). -/
def storCmdsOf (s : State) (inst : Nat) : Nat :=
  ((s.str.cmds.filter (fun e => decide (e.2.inst = inst) && (match e.2.owner with | .journal _ => false | .jnl _ _ => false | _ => true))).map
    (fun e => (e.2.subs.filter (fun x => x.state.isSent)).length)).sum

/-- Whether a command of a storage queue waits for room on a connection (R177). -/
def connWaits (s : State) (inst : Nat) : Bool :=
  s.str.cmds.any (fun e => decide (e.2.inst = inst) && e.2.ready && e.2.subs.any (fun x => decide (x.state = .unsent)
    && (mfind s.str.conns x.conn).any (fun c => decide (c.state = .ready) && !connHasRoom s c)))

/-- A storage queue that is not fetched: tenant storage is suspended, or a limit of target commands is reached: that of the device, of a
connection that a command of its instance waits for, or STOR_CMDS of the instance (R177, R187, R239). -/
def storHeld (s : State) (q : Queue) : Bool :=
  q.kind = .stor && (tenantSuspended s || decide (65536 ≤ (s.str.conns.map (fun e => e.2.cids.length)).sum)
    || decide ((getRecord s q.inst).storCmds ≤ storCmdsOf s q.inst) || connWaits s q.inst)

/-- Whether the transmit jobs of an instance are held after a refusal of a pool buffer: until it frees one or POOL_CTL.WAIT_NS has passed
(R300). LS jobs are not. -/
def txHeld (s : State) (q : Queue) : Bool := !q.ls && (match mfind s.pool.txHeld q.inst with | some t => decide (s.now < t) | none => false)

/-- Whether the storage work of an instance is deferred until a pool buffer is granted to it (R300). -/
def storDeferred (s : State) (q : Queue) : Bool := !q.ls && decide (q.kind = .stor) && s.pool.deferred.contains q.inst

/-- Whether the read of the next descriptor of a queue is on its way. -/
def fetchOut (s : State) (qp : Nat) (q : Queue) : Bool :=
  s.hep.tags.any (fun e => !e.2.quarantined && !e.2.abandoned && decide (e.2.purpose = .descriptor qp q.fetched))

/-- Whether a queue has a descriptor to fetch, tokens apart (R216, R240, R253, R265, R266). -/
def fetchReady (s : State) (qp : Nat) (q : Queue) : Bool :=
  s.hep.operational && decide (q.state = .run) && q.resets.isEmpty && !q.failed && decide (q.fetched < q.tail) && fnFetches s qp q
    && !queueShed s q && !storHeld s q && !storDeferred s q && !ringClosing s qp && stillOwned s qp q
    && !fetchOut s qp q

/-- Whether a queue can fetch its next descriptor now. -/
def canFetch (s : State) (qp : Nat) (q : Queue) : Bool := fetchReady s qp q && !tokenBlocked s q

/-- Weight of an instance in descriptor fetch and DMA arbitration: DMA_WEIGHT, 16 for an internal instance (R236, R273). -/
def dmaWeight (s : State) (inst : Nat) : Nat := if pf < inst then 16 else (getRecord s inst).dmaWeight

/-- The instance that a turn goes to among those with work, and the operations it may begin: the one whose turn it is while it has work and
operations left, else the next one in ascending order, with as many as its weight says (R239). Every operation costs the same (DESIGN
CHOICE: the spec names no quantum; log entry 60). -/
def turnOf (s : State) (t : Turn) (work : List Nat) : Option Turn :=
  if work.contains t.cur && decide (0 < t.left) then some t
  else
    match (work.filter (fun i => decide (t.cur < i))).min?.or work.min? with
    | some i => some { cur := i, left := dmaWeight s i }
    | none => none

/-- The turn after an operation of the instance whose turn it is. -/
def Turn.spend (t : Turn) : Turn := { t with left := t.left - 1 }

/-- Queue channels in use: each job that has begun holds one until its entry is written (R272). -/
def queueChannels (s : State) : Nat :=
  ((s.wqm.queues.filter (fun e => decide (e.1 ≠ svcRingQp))).map (fun e => (e.2.jobs.filter (fun j => j.phase ≠ .waiting)).length)).sum

/-- The job that a queue executes next: the first one not begun, when nothing before it failed, the CQ has room and one of the 384 queue
channels is free (R261, R264, R272). -/
def nextJob (s : State) (qp op : Nat) : Option Job :=
  let q := getQueue s qp
  match q.toBegin with
  | some j =>
    if s.hep.operational && !ringClosing s qp && q.state = .run && q.resets.isEmpty && !q.failed && !q.cqFull && fnExecutes s qp q
      && descOp j.lastDesc = op && (qp = svcRingQp || decide (queueChannels s < 384)) then some j else none
  | none => none

/-- Key of a counter of an instance: 0 DROP_STOPPED, 1 DTU_FAULTS, 2 READ_STALL_NS, 3 TOKEN_STALL_NS (table 2 of VFM_IND). -/
def instCtr (inst k : Nat) : Nat := 2 ^ 40 + 4 * inst + k

/-- Whether the next job of a queue waits for a read of host memory: the segments of a transmit chain, or what an admin command of
queue pair 0 reads (R253, R267). -/
def jobReads (s : State) (qp : Nat) : Bool :=
  let reads := fun (op : Nat) => match nextJob s qp op with
    | some j => decide (op ≠ 1) || !(hostSegments j.descs).isEmpty
    | none => false
  qp ≠ svcRingQp && [1, 0x82, 0x86, 0x88, 0x89, 0x8A, 0x8C].any reads

/-- Whether a queue could begin a host read but for the limit of its instance. -/
def queueReads (s : State) (qp : Nat) (q : Queue) : Bool :=
  (canFetch s qp q && qp ≠ svcRingQp && (mfind q.pushed q.fetched).isNone) || jobReads s qp

/-- Whether the burst of a channel waits for its read of host memory (R280). -/
def channelReads (c : Channel) : Bool :=
  match c.xfer with
  | some x => decide (c.state = .run) && decide (c.src.toNat ≤ 1) && !x.fill && !x.issued && x.data.isNone && (x.pace.isNone || x.granted)
  | none => false

/-- Whether an instance has MAX_READS host reads outstanding (R239). -/
def readsSpent (s : State) (inst : Nat) : Bool := decide ((getRecord s inst).maxReads ≤ tagsOf s inst)

/-- The instances whose reads wait at MAX_READS: READ_STALL_NS runs for each (R239; log entry 37). -/
def readStalls (s : State) : List Nat :=
  (((s.wqm.queues.filter (fun e => queueReads s e.1 e.2)).map (fun e => e.2.inst)
    ++ (s.dma.chans.filter (fun e => channelReads e.2)).map (fun e => e.2.inst)).eraseDups).filter (readsSpent s)

/-- The instances whose fetches or channel reads wait at MAX_TOKENS: TOKEN_STALL_NS runs for each (R239; log entry 37). -/
def tokenStalls (s : State) : List Nat :=
  (((s.wqm.queues.filter (fun e => !e.2.ls && e.2.chain.isEmpty && fetchReady s e.1 e.2)).map (fun e => e.2.inst)
    ++ (s.dma.chans.filter (fun e => !lsInstance s e.2.inst && channelReads e.2)).map (fun e => e.2.inst)).eraseDups).filter (tokensSpent s)

end Sys2Proof.Machine
end

