-- ==== Sys2Proof/Machine/Packet.lean ====
section
/-! DEFINITION. Ethernet, IP and UDP headers as the actions read and edit them (R110, R113, R114). -/

namespace Sys2Proof.Machine

/-- EtherType of an 802.1Q tag. -/
def tpidC : Nat := 0x8100
/-- EtherType of an 802.1ad tag. -/
def tpidS : Nat := 0x88A8

/-- Whether the field at `o` is a VLAN tag. -/
def isTag (bs : Bytes) (o : Nat) : Bool := beAt bs o 2 = tpidC || beAt bs o 2 = tpidS

/-- Whether the frame carries an outer 802.1Q tag. -/
def hasVlan (bs : Bytes) : Bool := beAt bs 12 2 = tpidC

/-- Offset of the EtherType behind at most two tags. -/
def typeOff (bs : Bytes) : Nat := if isTag bs 12 then (if isTag bs 16 then 20 else 16) else 12

/-- EtherType of the frame behind its tags. -/
def etherType (bs : Bytes) : Nat := beAt bs (typeOff bs) 2

/-- Offset of the network header. -/
def l3Off (bs : Bytes) : Nat := typeOff bs + 2

/-- 4, 6, or 0 when the frame carries no IP packet. -/
def ipVersion (bs : Bytes) : Nat := if etherType bs = 0x0800 then 4 else if etherType bs = 0x86DD then 6 else 0

/-- Bytes of the IP header. -/
def ipHeaderLen (bs : Bytes) : Nat := if ipVersion bs = 4 then 4 * (byteAt bs (l3Off bs) % 16) else 40

/-- Protocol or next header. -/
def ipProto (bs : Bytes) : Nat := byteAt bs (l3Off bs + (if ipVersion bs = 4 then 9 else 6))

/-- Offset of the transport header. -/
def l4Off (bs : Bytes) : Nat := l3Off bs + ipHeaderLen bs

/-- Sum of big-endian 16-bit words, an odd last byte padded with 0. -/
def wordSum : Bytes → Nat
  | [] => 0
  | [a] => a.toNat * 256
  | a :: b :: bs => a.toNat * 256 + b.toNat + wordSum bs

/-- A sum folded to 16 bits with end-around carry. -/
def fold16 (x : Nat) : Nat := let y := x % 65536 + x / 65536; let z := y % 65536 + y / 65536; z % 65536 + z / 65536

/-- The Internet checksum of a byte string. -/
def inetChecksum (bs : Bytes) : Nat := 65535 - fold16 (wordSum bs)

/-- The frame with the checksum of the IPv4 header at `o` recomputed. -/
def fixIpv4 (bs : Bytes) (o : Nat) : Bytes :=
  let hl := 4 * (byteAt bs o % 16)
  let z := patch bs (o + 10) [0, 0]
  patch z (o + 10) (toBe 2 (inetChecksum (slice z o hl)))

/-- DSCP of the IP header at `o`, version `v`. -/
def dscpAt (bs : Bytes) (o v : Nat) : Nat := if v = 4 then byteAt bs (o + 1) / 4 else (beAt bs o 2 / 64) % 64

/-- ECN of the IP header at `o`, version `v`. -/
def ecnAt (bs : Bytes) (o v : Nat) : Nat := if v = 4 then byteAt bs (o + 1) % 4 else (beAt bs o 2 / 16) % 4

/-- SET_DSCP (R110). -/
def setDscp (bs : Bytes) (d : Nat) : Bytes :=
  let o := l3Off bs
  if ipVersion bs = 4 then fixIpv4 (patch bs (o + 1) (toBe 1 (d * 4 + ecnAt bs o 4))) o
  else if ipVersion bs = 6 then patch bs o (toBe 2 (beAt bs o 2 / 4096 * 4096 + (d * 4 + ecnAt bs o 6) * 16 + beAt bs o 2 % 16))
  else bs

/-- DEC_TTL (R110): none when the result is 0. A frame without an IP header is left as it is. -/
def decTtl (bs : Bytes) : Option Bytes :=
  let o := l3Off bs
  if ipVersion bs = 4 then (if byteAt bs (o + 8) ≤ 1 then none else some (fixIpv4 (patch bs (o + 8) (toBe 1 (byteAt bs (o + 8) - 1))) o))
  else if ipVersion bs = 6 then (if byteAt bs (o + 7) ≤ 1 then none else some (patch bs (o + 7) (toBe 1 (byteAt bs (o + 7) - 1))))
  else some bs

/-- PUSH_VLAN (R110). -/
def pushVlan (bs : Bytes) (tci : Nat) : Bytes := slice bs 0 12 ++ toBe 2 tpidC ++ toBe 2 tci ++ bs.drop 12

/-- POP_VLAN (R110). -/
def popVlan (bs : Bytes) : Bytes := if hasVlan bs then slice bs 0 12 ++ bs.drop 16 else bs

/-- SET_VID (R110). -/
def setVid (bs : Bytes) (vid : Nat) : Bytes :=
  if hasVlan bs then patch bs 14 (toBe 2 (beAt bs 14 2 / 4096 * 4096 + vid % 4096)) else bs

/-- SET_L2 (R110): destination and source MAC from a 12-byte rewrite entry. -/
def setL2 (bs entry : Bytes) : Bytes := patch bs 0 (slice entry 0 12)

/-- Destination port of a UDP datagram; 0 where the frame carries none. -/
def udpDport (bs : Bytes) : Nat := if ipVersion bs ≠ 0 && ipProto bs = 17 then beAt bs (l4Off bs + 2) 2 else 0

/-- Offset of the PTP message that a frame carries, over EtherType 0x88F7 or UDP port 319 or 320 (R308, R320). -/
def ptpOff (bs : Bytes) : Option Nat :=
  if etherType bs = 0x88F7 then some (l3Off bs)
  else if udpDport bs = 319 || udpDport bs = 320 then some (l4Off bs + 8)
  else none

/-- Whether a frame is a Sync with twoStepFlag 0 over EtherType 0x88F7 or UDP port 319, with at most one 802.1Q tag (R320). -/
def isOneStep (bs : Bytes) : Bool :=
  let tags := decide (typeOff bs = 12) || (decide (typeOff bs = 16) && hasVlan bs)
  match ptpOff bs with
  | some p => tags && udpDport bs ≠ 320 && byteAt bs p % 16 = 0 && !nbit (byteAt bs (p + 6)) 1
  | none => false

/-- Checksum of a UDP datagram under its pseudo-header; 0 is sent as 0xFFFF. -/
def udpChecksum (src dst dgram : Bytes) : Nat :=
  let c := inetChecksum (src ++ dst ++ toBe 2 17 ++ toBe 4 dgram.length ++ dgram)
  if c = 0 then 65535 else c

/-- An outer IPv4 header: IHL 5, DF 1, identification 0 (R113). -/
def ipv4Header (tos ttl proto len : Nat) (src dst : Bytes) : Bytes :=
  fixIpv4 (toBe 1 0x45 ++ toBe 1 tos ++ toBe 2 (20 + len) ++ toBe 2 0 ++ toBe 2 0x4000 ++ toBe 1 ttl ++ toBe 1 proto ++ toBe 2 0
    ++ src ++ dst) 0

/-- An outer IPv6 header. -/
def ipv6Header (tc flow hop proto len : Nat) (src dst : Bytes) : Bytes :=
  toBe 4 (6 * 2 ^ 28 + tc * 2 ^ 20 + flow) ++ toBe 2 len ++ toBe 1 proto ++ toBe 1 hop ++ src ++ dst

/-- The frame with the lengths of its IP packet, and of the UDP datagram in it, set to what the frame holds, and the IPv4
checksum recomputed (R113). -/
def fixLengths (bs : Bytes) : Bytes :=
  let o := l3Off bs
  let b1 :=
    if ipVersion bs = 4 then fixIpv4 (patch bs (o + 2) (toBe 2 (bs.length - o))) o
    else if ipVersion bs = 6 then patch bs (o + 4) (toBe 2 (bs.length - o - 40))
    else bs
  if ipProto bs = 17 && ipVersion bs ≠ 0 then patch b1 (l4Off bs + 4) (toBe 2 (bs.length - l4Off bs)) else b1

/-- The frame with the checksum of its UDP datagram made good again; a checksum of 0 under IPv4 stays 0. -/
def fixUdpSum (bs : Bytes) : Bytes :=
  let o := l3Off bs
  let u := l4Off bs
  if ipVersion bs = 0 || ipProto bs ≠ 17 || (ipVersion bs = 4 && beAt bs (u + 6) 2 = 0) then bs
  else
    let src := if ipVersion bs = 4 then slice bs (o + 12) 4 else slice bs (o + 8) 16
    let dst := if ipVersion bs = 4 then slice bs (o + 16) 4 else slice bs (o + 24) 16
    let z := patch bs (u + 6) [0, 0]
    patch bs (u + 6) (toBe 2 (udpChecksum src dst (z.drop u)))

end Sys2Proof.Machine
end

