-- ==== Sys2Proof/Machine/Operands.lean ====
section
/-! DEFINITION. The operand forms of the flow pipelines: action records, action words, tunnel descriptors, parse nodes and
multicast members (R99, R107, R109, R110, R117), how their fields are read and which encodings are reserved. -/

namespace Sys2Proof.Machine

/-- FLAGS of a result (R107). -/
def resFlags (r : Bytes) : Nat := leAt r 0 2
/-- VALID. -/
def resValid (r : Bytes) : Bool := nbit (resFlags r) 0
/-- LS. -/
def resLs (r : Bytes) : Bool := nbit (resFlags r) 1
/-- AGE_EN. -/
def resAge (r : Bytes) : Bool := nbit (resFlags r) 2
/-- CNT_EN. -/
def resCount (r : Bytes) : Bool := nbit (resFlags r) 3
/-- POL_EN. -/
def resPol (r : Bytes) : Bool := nbit (resFlags r) 4
/-- SHP_EN. -/
def resShp (r : Bytes) : Bool := nbit (resFlags r) 5
/-- OVERRIDE. -/
def resOverride (r : Bytes) : Bool := nbit (resFlags r) 6
/-- Class. -/
def resClass (r : Bytes) : Nat := nbits (leAt r 2 2) 0 3
/-- Instance. -/
def resInst (r : Bytes) : Nat := nbits (leAt r 2 2) 3 13
/-- POLICER. -/
def resPolicer (r : Bytes) : Nat := nbits (leAt r 4 4) 0 17
/-- SHAPER. -/
def resShaper (r : Bytes) : Nat := nbits (leAt r 8 4) 0 18
/-- LAST_HIT. -/
def resLastHit (r : Bytes) : Nat := leAt r 12 4
/-- The record with LAST_HIT written (R123, R125). -/
def setLastHit (r : Bytes) (tick : Nat) : Bytes := patch r 12 (toLe 4 tick)

/-- An action word (R110). -/
inductive Action where
  | fwdPort (sp cid : Nat)
  | fwdVf (qsel cid : Nat)
  | mcast (group : Nat)
  | drop (reason : Nat)
  | toSvc (reason : Nat)
  | setClass (c : Nat)
  | pushVlan (tci : Nat)
  | popVlan
  | setVid (vid : Nat)
  | setDscp (d : Nat)
  | decTtl
  | setL2 (index : Nat)
  | decap (desc : Nat)
  | encap (desc : Nat)
  | mirror
  | sample (n : Nat)
  | dropMirror
  | recordStream (stream : Nat)
deriving DecidableEq, Repr

/-- An action word as the device reads it: END and what R110 reserves give none. -/
def readAction (w : Nat) : Option Action :=
  match w % 256 with
  | 0x01 => some (.fwdPort (nbits w 8 5) (nbits w 13 6))
  | 0x02 => some (.fwdVf (nbits w 8 8) (nbits w 16 6))
  | 0x03 => some (.mcast (nbits w 8 16))
  | 0x04 => some (.drop (nbits w 8 8))
  | 0x05 => some (.toSvc (nbits w 8 8))
  | 0x06 => some (.setClass (nbits w 8 3))
  | 0x07 => some (.pushVlan (nbits w 8 16))
  | 0x08 => some .popVlan
  | 0x09 => some (.setVid (nbits w 8 12))
  | 0x0A => some (.setDscp (nbits w 8 6))
  | 0x0B => some .decTtl
  | 0x0C => some (.setL2 (nbits w 8 16))
  | 0x0D => some (.decap (nbits w 8 20))
  | 0x0E => some (.encap (nbits w 8 20))
  | 0x0F => some .mirror
  | 0x10 => some (.sample (nbits w 8 16 + 1))
  | 0x11 => some .dropMirror
  | 0x12 => some (.recordStream (nbits w 8 13))
  | _ => none

/-- The bits of an action word that its opcode reserves (R110); none for a reserved opcode. -/
def actionReserved (op : Nat) : Option Nat :=
  match op with
  | 0x00 => some 0xFFFFFF00
  | 0x01 => some 0xFFF80000
  | 0x02 => some 0xFFC00000
  | 0x03 => some 0xFF000000
  | 0x04 => some 0xFFFF0000
  | 0x05 => some 0xFFFF0000
  | 0x06 => some 0xFFFFF800
  | 0x07 => some 0xFF000000
  | 0x08 => some 0xFFFFFF00
  | 0x09 => some 0xFFF00000
  | 0x0A => some 0xFFFFC000
  | 0x0B => some 0xFFFFFF00
  | 0x0C => some 0xFF000000
  | 0x0D => some 0xF0000000
  | 0x0E => some 0xF0000000
  | 0x0F => some 0xFFFFFF00
  | 0x10 => some 0xFF000000
  | 0x11 => some 0xFFFFFF00
  | 0x12 => some 0xFFE00000
  | _ => none

/-- Whether an action word is no reserved encoding (R110, R111; R18 for a port of 26 and 27). -/
def actionLegal (w : Nat) : Bool :=
  match actionReserved (w % 256) with
  | none => false
  | some mask =>
    (w &&& mask) = 0 &&
      (match readAction w with
      | some (.fwdPort sp _) => decide (sp ≤ 25)
      | some (.setClass c) => decide (c ≤ 6)
      | _ => true)

/-- The four action words of a record. -/
def resWords (r : Bytes) : List Nat := [leAt r 16 4, leAt r 20 4, leAt r 24 4, leAt r 28 4]

/-- Actions of a list of words, up to the first END. -/
def actionsOf : List Nat → List Action
  | [] => []
  | w :: ws =>
    match readAction w with
    | none => []
    | some a => a :: actionsOf ws

/-- The actions of a record, in order (R107). -/
def resActions (r : Bytes) : List Action := actionsOf (resWords r)

/-- FWD_PORT, FWD_VF, MCAST, DROP or TO_SVC. -/
def Action.forwards : Action → Bool
  | .fwdPort _ _ => true
  | .fwdVf _ _ => true
  | .mcast _ => true
  | .drop _ => true
  | .toSvc _ => true
  | _ => false

/-- DECAP descriptor. -/
def Action.decapOf : Action → Option Nat
  | .decap d => some d
  | _ => none

/-- ENCAP descriptor. -/
def Action.encapOf : Action → Option Nat
  | .encap d => some d
  | _ => none

/-- Whether a result is no reserved encoding (R107, R111, R112): `tern` says that it belongs to a ternary rule, the only place of
OVERRIDE. Class 7 needs LS. -/
def resLegal (tern : Bool) (r : Bytes) : Bool :=
  let acts := resActions r
  decide (resFlags r < 128) && (tern || !resOverride r) && decide (resInst r ≤ 4127) && decide (leAt r 4 4 < 2 ^ 17)
    && decide (leAt r 8 4 < 2 ^ 18) && (resClass r ≠ 7 || resLs r) && (resWords r).all actionLegal
    && decide ((acts.filter Action.forwards).length ≤ 1) && decide ((acts.filterMap Action.decapOf).length ≤ 1)
    && decide ((acts.filterMap Action.encapOf).length ≤ 1)

/-- TYPE of a tunnel descriptor (R109). -/
def tunType (d : Bytes) : Nat := byteAt d 0
/-- FLAGS of a tunnel descriptor. -/
def tunFlag (d : Bytes) (n : Nat) : Bool := nbit (byteAt d 1) n
/-- KEY_SLOT. -/
def tunSlot (d : Bytes) : Nat := leAt d 2 2
/-- ID. -/
def tunId (d : Bytes) : Nat := leAt d 4 4
/-- Types 3–6 need a cipher pass. -/
def tunCiphers (d : Bytes) : Bool := decide (3 ≤ tunType d)

/-- Whether the bytes `lo .. lo + n - 1` are 0. -/
def zeroAt (d : Bytes) (lo n : Nat) : Bool := allZero (slice d lo n)

/-- Whether a tunnel descriptor is no reserved encoding (R109): fields that its type does not use are 0. -/
def tunLegal (d : Bytes) : Bool :=
  let t := tunType d
  let v6 := tunFlag d 0
  let outer := t = 1 || t = 2 || t = 3
  decide (t ≤ 6) && decide (byteAt d 1 < 64) && zeroAt d 14 2 && zeroAt d 60 4 && decide (byteAt d 11 < 64)
    && (t ≠ 0 || allZero d)
    && (decide (3 ≤ t) || zeroAt d 2 2)
    && (!(t = 1 || t = 2) || decide (tunId d < 2 ^ 24))
    && (t ≠ 5 || decide (tunId d < 2 ^ 16))
    && ((t = 1 || t = 2) || (zeroAt d 8 2 && !tunFlag d 1))
    && (outer || (!v6 && !tunFlag d 3 && !tunFlag d 4 && zeroAt d 10 4 && zeroAt d 16 38))
    && (v6 || (zeroAt d 20 12 && zeroAt d 36 12))
    && (t = 5 || !tunFlag d 5)
    && (outer || t = 5 || zeroAt d 54 6)

/-- A parse node field (R99). -/
def nodeLayer (n : Bytes) : Nat := byteAt n 0
/-- FLAGS. -/
def nodeFlag (n : Bytes) (k : Nat) : Bool := nbit (byteAt n 1) k
/-- PROFILE. -/
def nodeProfile (n : Bytes) : Nat := byteAt n 12
/-- PFLAGS. -/
def nodePflags (n : Bytes) : Nat := byteAt n 13

/-- `w` bits from bit offset `o` of a header that starts at byte `h`, first bit on the wire first (R99). -/
def wireBits (bs : Bytes) (h o w : Nat) : Nat := nbits (beAt bs (h + o / 8) 4) (32 - o % 8 - w) w

/-- Length of the header at `h` as a node computes it. -/
def nodeLen (n bs : Bytes) (h : Nat) : Nat :=
  if nodeFlag n 0 then byteAt n 2
  else
    let f := leAt n 4 2
    wireBits bs h (nbits f 0 9) (nbits f 9 4 + 1) * 2 ^ (byteAt n 3 % 16) + leAt n 6 2

/-- The selector of a node. -/
def nodeSelector (n bs : Bytes) (h : Nat) : Nat := let f := leAt n 8 2; wireBits bs h (nbits f 0 9) (nbits f 9 4 + 1)

/-- The transitions T0–T7. -/
def nodeTransitions (n : Bytes) : List (Nat × Nat × Nat) :=
  (List.range 8).map (fun k => (leAt n (16 + 6 * k) 2, leAt n (18 + 6 * k) 2, leAt n (20 + 6 * k) 2))

/-- The next node: the first transition that matches, else DEFAULT_NEXT (R100). -/
def nodeNext (n bs : Bytes) (h : Nat) : Nat :=
  let sel := nodeSelector n bs h
  match (nodeTransitions n).find? (fun t => (sel &&& t.2.1) = t.1) with
  | some t => t.2.2
  | none => leAt n 10 2

/-- Fields of a multicast member (R117). -/
def memSp (m : DWord) : Nat := nbits m.toNat 0 5
/-- CASCADE_ID. -/
def memCid (m : DWord) : Nat := nbits m.toNat 5 6
/-- INSTANCE. -/
def memInst (m : DWord) : Nat := nbits m.toNat 11 13
/-- QSEL. -/
def memQsel (m : DWord) : Nat := nbits m.toNat 24 8
/-- TUNNEL. -/
def memTunnel (m : DWord) : Nat := nbits m.toNat 32 20
/-- TUN_EN. -/
def memTunEn (m : DWord) : Bool := nbit m.toNat 52

/-- Whether a member entry is no reserved encoding (R18, R117). -/
def memLegal (m : DWord) : Bool := decide (m.toNat < 2 ^ 53) && decide (memSp m ≤ 25)

end Sys2Proof.Machine
end

