-- ==== Sys2Proof/Machine/Elapse.lean ====
section
/-! DEFINITION. The passing of device time, with the counters that sum nanoseconds, and the credit and eligibility of queued frames that
one of them needs (R128, R130, R131, R134). -/

namespace Sys2Proof.Machine

/-- Length that TMG charges for a frame held without its FCS (R128). -/
def chargedLen (f : Frame) : Nat := f.bytes.length + 4

/-- A shaper or policer that has not been set up. -/
def Bucket.off : Bucket := { rate := 0, burst := 0, en := false, credit := 0, at_ := 0 }

/-- Credit units in one byte: at RATE kb/s the credit rises by RATE units in each ns. -/
def creditUnit : Nat := 8000000

/-- Credit of a bucket at a device time, at the rate in force (R130). -/
def creditAt (b : Bucket) (rate now : Nat) : Nat := min (b.burst * creditUnit) (b.credit + rate * (now - b.at_))

/-- A shaper. -/
def getShaper (s : State) (n : Nat) : Bucket := mget (fun _ => Bucket.off) s.tmg.shapers n

/-- Whether the level-1 scaling of an instance is in force (R140). -/
def isScaled (s : State) (inst : Nat) : Bool := mget (fun _ => false) s.tmg.scaled inst

/-- Whether a shaper is the instance shaper of an instance whose scaling is in force. -/
def shaperScaled (s : State) (n : Nat) : Bool :=
  s.tmg.scaled.any (fun e => let r := sweptRecord s e.1; e.2 && ((r.txsEn && r.txShaper = n) || (r.rxsEn && r.rxShaper = n)))

/-- Rate of a shaper in force (R140). -/
def shaperRate (s : State) (n : Nat) : Nat :=
  if shaperScaled s n then l1Scaled s (getShaper s n).rate else (getShaper s n).rate

/-- A shaper with its credit brought up to the present. -/
def settledShaper (s : State) (n : Nat) : Bucket :=
  let b := getShaper s n
  { b with credit := creditAt b (shaperRate s n) s.now, at_ := s.now }

/-- The shapers that a frame of classes 0–6 is checked against: its flow shaper, and the instance shaper of its record's instance
for its direction (R131), named once when they are one. Instances belong to a device (R235): the receive shaper is that of the device that
delivers the frame, the transmit shaper that of the device whose host sent it. -/
def frameShapers (s : State) (f : Frame) : List Nat :=
  let rec_ := sweptRecord s f.inst
  let flow := if resShp f.record then [resShaper f.record] else []
  let toHost := match f.dest with | .unicast sp cid => (sp = 20 || sp = 21) && isOwnCid s cid | _ => false
  let inst :=
    if f.inst > pf then []
    else if toHost then (if rec_.rxsEn then [rec_.rxShaper] else [])
    else if f.host then (if rec_.txsEn then [rec_.txShaper] else [])
    else []
  (flow ++ inst).eraseDups

/-- Whether a frame of length `len` conforms to a shaper (R130, R131). -/
def conforms (s : State) (len n : Nat) : Bool :=
  !(getShaper s n).en || decide (len * creditUnit ≤ (settledShaper s n).credit)

/-- A frame conforms to all of its shapers. -/
def frameConforms (s : State) (f : Frame) : Bool := (frameShapers s f).all (conforms s (chargedLen f))

/-- Instance queues of an output and class that hold a frame, in ascending order of instance. -/
def egressQueues (s : State) (o c : Nat) : List (Nat × List Frame) :=
  (s.swc.egress.filter (fun e => e.1 / 65536 = 16 * o + c)).map (fun e => (e.1 % 65536, e.2))

/-- The head frame of each queue of a list. -/
def queueHeads (qs : List (Nat × List Frame)) : List (Nat × Frame) :=
  qs.filterMap (fun q => match q.2 with | f :: _ => some (q.1, f) | [] => none)

/-- Whether class 7 is not shaped (R134). -/
def lsBypass (s : State) : Bool := (levelAt s .tmg).active

/-- The shaper that a class-7 frame is checked against: its flow shaper, in NORMAL (R134). -/
def lsShapers (s : State) (f : Frame) : List Nat := if lsBypass s || !resShp f.record then [] else [resShaper f.record]

/-- Whether the head of an output's LS queue may leave (R134). -/
def lsConforms (s : State) (f : Frame) : Bool := (lsShapers s f).all (conforms s (chargedLen f))

/-- Time until a head frame of length `len` conforms to a shaper, none when it never does (R130). -/
def shaperWait (s : State) (len n : Nat) : Option Nat :=
  if conforms s len n then some 0
  else if (getShaper s n).burst < len || shaperRate s n = 0 then none
  else some (ceilDiv (len * creditUnit - (settledShaper s n).credit) (shaperRate s n))

/-- The longer of two waits. -/
def laterOf (a b : Option Nat) : Option Nat :=
  match a, b with
  | some x, some y => some (max x y)
  | _, _ => none

/-- Time until a head frame of classes 0–6 is eligible (R131). -/
def frameWait (s : State) (f : Frame) : Option Nat :=
  ((frameShapers s f).map (shaperWait s (chargedLen f))).foldl laterOf (some 0)

/-- Time until the head of an LS queue may leave (R134). -/
def lsWait (s : State) (f : Frame) : Option Nat :=
  if lsConforms s f then some 0 else shaperWait s (chargedLen f) (resShaper f.record)

/-- The wait of the head of each queue of an output. -/
def outputWaits (s : State) (o : Nat) : List (Option Nat) :=
  let heads := (List.range 7).flatMap (fun c => (queueHeads (egressQueues s o c)).map (fun q => frameWait s q.2))
  match mget (fun _ => []) s.swc.lsQueue o with
  | f :: _ => lsWait s f :: heads
  | [] => heads

/-- Of the next `d` ns, those in which frames are queued for an output and none is eligible (SHAPER_WAIT_NS). -/
def waitWithin (s : State) (o d : Nat) : Nat :=
  match outputWaits s o with
  | [] => 0
  | ws => ws.foldl (fun n w => match w with | some t => min n t | none => n) d

/-- Queues whose completion ring is full: CQ_FULL_NS runs for each (R262). -/
def fullCqs (s : State) : Nat :=
  (s.wqm.queues.filter (fun e => e.2.state ≠ .disabled && e.2.cqFull)).length

/-- Slots that have reached their high-water mark before the next one is committed: CKPT_STALL_NS runs for each (R167). -/
def stalledSlots (s : State) : Nat := (s.cph.slots.filter (fun e => e.2.ckpt && decide (e.2.high ≤ e.2.invocations))).length

/-- Whether frames of a link wait for window or buffer: WINDOW_STALL_NS runs (R359). -/
def linkStalled (s : State) (g : Nat) : Bool :=
  s.cas.links.any (fun e => decide (e.1 = g) && decide (e.2.state = .up) && (windowHolds s e.2 0 || windowHolds s e.2 1))

/-- Ethernet ports whose transmitter is held: TXHOLD_NS runs for each (R312). -/
def heldPorts (s : State) : List Nat := (s.eth.ports.filter (fun e => e.2.holdFrom.isSome)).map Prod.fst

/-- `d` ns of device time, when `n` waiters count them. -/
def addTime (off n d : Nat) (s : State) : State := if n * d = 0 then s else addCtr off (n * d) s

/-- Device time moves on by `d` ns, and the counters that sum nanoseconds with it. -/
def elapse (d : Nat) (s : State) : State :=
  let s1 := addTime cPCR_THERM_HOLD_NS s.pcr.thermHold.toNat d s
  let s2 := addTime cPCR_P2_NS (decide (s.pcr.phase = .running) && decide (s.pcr.power = .p2)).toNat d s1
  let s3 := addTime cWQM_CQ_FULL_NS (fullCqs s) d s2
  let s4 := addTime cCPH_CKPT_STALL_NS (stalledSlots s) d s3
  let s5 := forEach (fun g => addTime (cCAS_G_WINDOW_STALL_NS g) (linkStalled s g).toNat d) [0, 1, 2, 3] s4
  let s6 := forEach (fun o => addTime (cTMG_SHAPER_WAIT_NS o) 1 (waitWithin s o d)) (List.range 26) s5
  let s7 := forEach (fun i => addTime (instCtr i 2) 1 d) (readStalls s) s6
  let s8 := forEach (fun i => addTime (instCtr i 3) 1 d) (tokenStalls s) s7
  let s9 := forEach (fun port => addTime (cETH_TXHOLD_NS port) 1 d) (heldPorts s) s8
  { s9 with now := s.now + d }

/-- Device time set to `t`, when `t` lies ahead: an event that happens at a time does not happen before it. -/
def reachTime (t : Nat) (s : State) : State := elapse (t - s.now) s

/-- What a step does while no command waits: 1 ns of device time, which runs while VAUX33 is good (R476; DESIGN CHOICE, log entry 2). -/
def idleStep (s : State) : State := if s.pcr.vaux33 then elapse 1 s else s

end Sys2Proof.Machine
end

