-- ==== Sys2Proof/Machine/EthPorts.lean ====
section
/-! DEFINITION. The Ethernet ports and lane groups, transmit holds, and priority flow control (R304, R311–R316). -/

namespace Sys2Proof.Machine

/-- A full rate bucket: a burst of 64 frames (R309). -/
def RateBucket.full : RateBucket := { tokens := 64 * 1000000000, at_ := 0 }

/-- A port that no mode uses. -/
def EthPort.init : EthPort :=
  { inUse := false, link := false, holdFrom := none, overLimit := false, redirecting := false, pausedUntil := none, xoff := false,
    xoffNext := 0, alt := none, stations := [], craterRate := RateBucket.full, ptpRate := RateBucket.full, captures := [],
    powered := false, lsMoved := false }

/-- A lane group without power. -/
def EthGroup.init : EthGroup :=
  { imageMode := .down, mode := .down, synth := .notReady, since := 0, dueFrom := none, calAt := 0, calTemp := 0, startFrom := 0 }

/-- A port by number. -/
def getPort (s : State) (n : Nat) : EthPort := mget (fun _ => EthPort.init) s.eth.ports n

/-- The state with a port replaced. -/
def setPort (n : Nat) (p : EthPort) (s : State) : State :=
  { s with eth := { s.eth with ports := mset (fun _ => EthPort.init) s.eth.ports n p } }

/-- A lane group by number. -/
def laneGroup (s : State) (g : Nat) : EthGroup := mget (fun _ => EthGroup.init) s.eth.groups g

/-- The state with a lane group replaced. -/
def setLaneGroup (g : Nat) (x : EthGroup) (s : State) : State :=
  { s with eth := { s.eth with groups := mset (fun _ => EthGroup.init) s.eth.groups g x } }

/-- Whether a mode uses a port of its group (R17, R304). -/
def modeUses (m : GroupMode) (port : Nat) : Bool :=
  match m with
  | .one400 => decide (port % 4 = 0)
  | .two200 => decide (port % 2 = 0)
  | .four100 => true
  | .down => false

/-- Rate of the ports of a mode in Gb/s. -/
def modeRate : GroupMode → Nat
  | .one400 => 400
  | .two200 => 200
  | .four100 => 100
  | .down => 100

/-- Rate of a port in Gb/s. -/
def portRate (s : State) (port : Nat) : Nat := modeRate (laneGroup s (port / 4)).mode

/-- Whether a port must hold its transmitter (R311, R312, R462): its synthesiser is not READY, its link is down, or it has lost power. -/
def mustHold (s : State) (port : Nat) : Bool :=
  let p := getPort s port
  p.inUse && !(p.powered && p.link && (laneGroup s (port / 4)).synth = .ready)

/-- Whether a port may start a frame on the wire. -/
def portOpen (s : State) (port : Nat) : Bool := (getPort s port).inUse && !mustHold s port

/-- The hold of a port begins or ends with its cause (R312). -/
def refreshHold (port : Nat) (s : State) : State :=
  let p := getPort s port
  match mustHold s port, p.holdFrom with
  | true, none => setPort port { p with holdFrom := some s.now, overLimit := false, lsMoved := false } s
  | false, some _ => setPort port { p with holdFrom := none, overLimit := false } s
  | _, _ => s

/-- The holds of the ports of a group. -/
def refreshHolds (g : Nat) (s : State) : State := forEach refreshHold (span (4 * g) 4) s

/-- A field of ETH_PFC_CFG: EN, PRIO, CLASS, XOFF_CELLS. -/
def pfcEn (s : State) (port : Nat) : Bool := bit (getReg s (rETH_PFC_CFG port)) 0
/-- 802.1Q priority of the storage class. -/
def pfcPrio (s : State) (port : Nat) : Nat := regFld s (rETH_PFC_CFG port) 1 3
/-- The storage class. -/
def pfcClass (s : State) (port : Nat) : Nat := regFld s (rETH_PFC_CFG port) 4 3
/-- Threshold in cells. -/
def pfcXoff (s : State) (port : Nat) : Nat := regFld s (rETH_PFC_CFG port) 8 16

/-- Egress occupancy of SP23 for the storage class of a port. -/
def pfcOccupancy (s : State) (port : Nat) : Nat := mget (fun _ => 0) s.swc.egressCells (16 * 23 + pfcClass s port)

/-- A PFC frame for the storage class leaves (R316). -/
def sendPfc (port time : Nat) (s : State) : State := incr (cETH_PFC_TX port) (emit (.pfcTx port (2 ^ pfcPrio s port) time) s)

/-- The transmit side of PFC at a port (R316): XOFF above the threshold, time 0 once the occupancy falls below half of it. A held port
starts no frame. -/
def checkPfc (port : Nat) (s : State) : State :=
  let p := getPort s port
  let occ := pfcOccupancy s port
  if !pfcEn s port || !portOpen s port then s
  else if !p.xoff && decide (pfcXoff s port < occ) then sendPfc port 0xFFFF (setPort port { p with xoff := true, xoffNext := s.now + us 100 } s)
  else if p.xoff && decide (2 * occ < pfcXoff s port) then sendPfc port 0 (setPort port { p with xoff := false } s)
  else s

/-- PFC at every port, after a change of the occupancy behind SP23. -/
def settlePfc (s : State) : State := forEach checkPfc (List.range 16) s

/-- PFC_XOFF_REPEAT (R316): every 100 µs while the occupancy stays above half the threshold. -/
def execPfcXoffRepeat (port : Nat) (s : State) : Result :=
  let p := getPort s port
  if !p.xoff || !pfcEn s port then .next s
  else
    let s1 := setPort port { p with xoffNext := p.xoffNext + us 100 } (reachTime p.xoffNext s)
    .next (if portOpen s1 port && decide (pfcXoff s port < 2 * pfcOccupancy s port) then sendPfc port 0xFFFF s1 else s1)

/-- A PFC frame is received (R307, R316): `times` are the eight times in quanta of 512 bits. -/
def pfcReceived (port : Nat) (enables : BitVec 8) (times : List Nat) (s : State) : State :=
  let s1 := incr (cETH_PFC_RX port) s
  let prio := pfcPrio s port
  if !pfcEn s port || !enables.getLsbD prio then s1
  else
    let t := times.getD prio 0
    let until_ := if t = 0 then none else some (s.now + ceilDiv (512 * t) (portRate s port))
    setPort port { getPort s1 port with pausedUntil := until_ } s1

/-- PFC_FRAME_RX (R316). -/
def execPfcFrameRx (port : Nat) (enables : BitVec 8) (times : List Nat) (s : State) : Result :=
  let p := getPort s port
  .next (if port < 16 && p.inUse && p.powered && p.link then pfcReceived port enables times s else s)

/-- PFC_PAUSE_EXPIRY (R316). -/
def execPfcPauseExpiry (port : Nat) (s : State) : Result :=
  match (getPort s port).pausedUntil with
  | none => .next s
  | some t => .next (setPort port { getPort s port with pausedUntil := none } (reachTime t s))

end Sys2Proof.Machine
end

