-- ==== Sys2Proof/Config.lean ====
section
/-! DEFINITION. What an implementation fixes and the spec does not state: constants of the part, and the free values. Each is
opaque: nothing can be proved of its value, and a claim holds whatever it is. -/

namespace Sys2Proof.Config

/-- FLOW_HASH of a frame: the spec names the hash and its width (R73, R113) and no function. -/
opaque flowHash : Bytes → BitVec 16

/-- ECC of a cell tag over its bits [119:0]: R73 names a SEC-DED code and no polynomial. -/
opaque tagCheck : BitVec 120 → BitVec 8

/-- ACTION_PTR of a frame's cells by its arrival number: R73 says how wide the index is and not how it is chosen. -/
opaque actionPtr : Nat → BitVec 24

/-- Association number that the device writes into a SecTAG for a key slot (R113 gives no rule). -/
opaque macsecAn : Nat → BitVec 2

/-- RULE of a Tephra copy made by a profile's default result (R92 names an index of an entry or rule only). -/
opaque tephraDefaultRule : Nat → BitVec 32

/-- Serial of this device (DSN and DDT SERIAL): each part has its own. -/
opaque serial : DWord

/-- A 64-bit value that the spec does not state, by the number of such values taken before. -/
opaque freeDWord : Nat → DWord

/-- The 256-bit hardware-unique key in OTP (R398). -/
opaque huk : Bytes

/-- Kiend root public key in Crater ROM, x ‖ y (R398). -/
opaque rootKey : Bytes

/-- Minimum patch security version in OTP (R398). -/
opaque minPatchSvn : Nat

/-- Version of Crater's ROM (R414). -/
opaque romVersion : BitVec 32

/-- Measured clock of an island in MHz where the spec gives none in whole megahertz (R29): lane and link clocks, 390.625 MHz, 'Various', and
the islands of the switch core whose clock in P2 is not stated. -/
opaque islandMhz : Nat → Nat

/-- Dword `i` of the Header Log of a function for error `n` at a device time: the commands carry no TLP header. -/
opaque loggedHeader (fn n now i : Nat) : BitVec 32

/-- HBM stack of an address: how addresses spread over the two stacks is not stated (MEM_ERR). -/
opaque hbmStack : Nat → BitVec 1

/-- Forward delay of each loop port in units of 2^-16 ns, before the bounds of R332 are applied. -/
opaque loopDelay : Nat → Nat

/-- In-capsule data limit of the storage targets (R178): no command or register of the device gives it. -/
opaque inCapsuleLimit : Nat

/-- Whether the magnitude of a sample attenuated by a number of 0.5 dB steps is rounded up (R196): how it is rounded is not stated. -/
opaque attenUp : Nat → BitVec 24 → Bool

/-- Whether the magnitude of a sample at place `k` of the linear fade of 480 samples is rounded up (R199): how it is rounded is not stated. -/
opaque fadeUp : Nat → BitVec 24 → Bool

/-- Whether a trap of a cause writes mtval, where the RISC-V specification allows 0 in its place (illegal instruction, breakpoint). -/
opaque tvalGiven : Nat → Bool

/-- mvendorid, marchid and mimpid of the service cores, by CSR number: R381 states no value. -/
opaque coreIdent : Nat → DWord

end Sys2Proof.Config
end

