-- ==== Sys2Proof/Machine/Clock.lean ====
section
/-! DEFINITION. PTP time (R477–R479) and the formation of event-log entries (R480–R482). -/

namespace Sys2Proof.Machine

/-- Units of PTP time in one ns: the fraction has 32 bits (R477). -/
def ptpUnit : Int := 4294967296

/-- The part of a slew, in units of 2^-32 ns, that `dt` ns of device time have applied at 1,000 ppm (R479). -/
def slewDone (slew : Int) (dt : Nat) : Int :=
  let step := (dt : Int) * ptpUnit / 1000
  if 0 ≤ slew then min slew step else max slew (-step)

/-- PTP time at the present, in units of 2^-32 ns: device time with the rate correction of 1/4,096 ppb and the slew (R477, R479).
With no rate in force (FREE) `rate` is 0. -/
def ptpNow (s : State) : Int :=
  let dt := s.now - s.tim.ptpAt
  let t := (dt : Int) * ptpUnit
  s.tim.ptpNs + t + t * s.tim.rate / 4096000000000 + slewDone s.tim.slew dt

/-- PTP time in whole ns, modulo 2^48 s (R477). -/
def ptpNs (s : State) : Nat := (ptpNow s / ptpUnit % (2 ^ 48 * 1000000000)).toNat

/-- Seconds of PTP time: 48 bits. -/
def ptpSeconds (s : State) : Nat := ptpNs s / 1000000000 % 2 ^ 48

/-- Nanoseconds of PTP time. -/
def ptpNanos (s : State) : Nat := ptpNs s % 1000000000

/-- The clock brought up to the present, what a slew has done so far taken from its rest. -/
def settlePtp (s : State) : State :=
  let d := slewDone s.tim.slew (s.now - s.tim.ptpAt)
  { s with tim := { s.tim with ptpNs := ptpNow s, ptpAt := s.now, slew := s.tim.slew - d } }

/-- Encoding of an alarm state (R41). -/
def AlarmState.code : AlarmState → Nat
  | .normal => 0
  | .drill => 1
  | .emergency => 2
  | .holdover => 3

/-- Encoding of a security state (CRT_STATUS). -/
def SecState.code : SecState → Nat
  | .operational => 0
  | .degraded => 1
  | .zeroised => 2

/-- Encoding of a power state (R460). -/
def PowerState.code : PowerState → Nat
  | .p0 => 0
  | .p1 => 1
  | .p2 => 2
  | .p3 => 3

/-- STATES of an entry or snapshot (R481). -/
def statesByte (s : State) : Nat :=
  s.alp.state.code + 4 * s.crt.sec.code + 16 * s.pcr.power.code + (if s.pcr.refuge then 64 else 0)

/-- Types of event-log entries (R481). -/
inductive LogType where
  | reset | alarm | emsg | tamper | secState | image | slotDamaged | thermal | power | memberLost | hbmUncorr | watchdog
deriving DecidableEq, Repr

/-- Number of a type. -/
def LogType.code : LogType → Nat
  | .reset => 1
  | .alarm => 2
  | .emsg => 3
  | .tamper => 4
  | .secState => 5
  | .image => 6
  | .slotDamaged => 7
  | .thermal => 8
  | .power => 9
  | .memberLost => 10
  | .hbmUncorr => 11
  | .watchdog => 12

/-- Whether entries of a type are emergency entries (R481). -/
def LogType.emergency : LogType → Bool
  | .alarm => true
  | .emsg => true
  | .tamper => true
  | _ => false

/-- An entry as formed, without SEQ, PINNED, GAP and CRC, which formation order and the write give (R481). -/
def logBytes (s : State) (t : LogType) (deferred : Bool) (seq : Nat) (gap : Bool) (data : Bytes) : Bytes :=
  toLe 2 0x4C45 ++ toLe 1 t.code ++ toLe 1 ((if t.emergency then 2 else 0) + (if gap then 4 else 0) + (if deferred then 8 else 0))
    ++ toLe 8 seq ++ toLe 8 s.now ++ toLe 6 (ptpSeconds s) ++ toLe 4 (ptpNanos s) ++ toLe 1 (statesByte s) ++ [0] ++ slice data 0 28

/-- An event forms an entry (R482): it waits in the queue of 256, or is lost and the next one carries GAP. -/
def logEvent (t : LogType) (data : Bytes) (s : State) : State :=
  if 256 ≤ s.tim.queue.length then evTim 2 (incr cTIM_LOG_LOST { s with tim := { s.tim with gapNext := true } })
  else
    let e := logBytes s t false s.tim.nextSeq.toNat s.tim.gapNext data
    { s with tim := { s.tim with queue := s.tim.queue ++ [e], nextSeq := s.tim.nextSeq + 1, gapNext := false } }

end Sys2Proof.Machine
end

