-- ==== Sys2Proof/Machine/Hbm.lean ====
section
/-! DEFINITION. HBM errors, the scrubber, NVM line writes and wear levelling (R469–R475). -/

namespace Sys2Proof.Machine

/-- HBM is powered: not in P3 or Refuge mode (R475). -/
def hbmPowered (s : State) : Bool := s.mem.ready && decide (s.pcr.power ≠ .p3) && !s.pcr.refuge

/-- Background work on the memories may run: not in EMERGENCY or HOLDOVER (R63, R475). -/
def backgroundRuns (s : State) : Bool := !(levelAt s .pcr).emergent

/-- An error is recorded in MEM_ERR (R469): kind 1 corrected, 2 uncorrectable. -/
def recordHbm (kind : Nat) (scrub : Bool) (addr : Nat) (s : State) : State :=
  let v := putFld 0 2 kind ||| putBit 2 scrub ||| putFld 3 1 (Config.hbmStack addr).toNat
  setReg64 rMEM_ERR_ADDR (BitVec.ofNat 64 addr) (setReg rMEM_ERR v s)

/-- What MEM does about the ECC result of a read (R469). -/
def hbmRead (ecc : EccResult) (scrub : Bool) (addr : Nat) (s : State) : State :=
  match ecc with
  | .clean => s
  | .corrected => incr cMEM_HBM_CORR (recordHbm 1 scrub addr s)
  | .uncorrectable =>
    let s1 := evMem 0 (incr cMEM_HBM_UNCORR (recordHbm 2 scrub addr s))
    if scrub then logEvent .hbmUncorr (toLe 4 (getReg s1 rMEM_ERR).toNat ++ toLe 8 addr) s1 else s1

/-- An HBM read of a block whose address the spec does not lay out: MEM_ERR_ADDR takes a free value. -/
def hbmBlockRead (ecc : EccResult) (s : State) : State :=
  match ecc with
  | .clean => s
  | _ =>
    let (n, s1) := takeFree s
    hbmRead ecc false (Config.freeDWord n).toNat s1

/-- Lines that a scrub pass reads (R470). -/
def scrubLines : Nat := 805306368

/-- Lines that have been read when segment k is done. -/
def segmentEnd (k : Nat) : Nat := ceilDiv ((k + 1) * scrubLines) 1440

/-- The scrubber has read one more line (R470). -/
def scrubAdvance (s : State) : State :=
  let n := s.mem.linesRead + 1
  if scrubLines ≤ n then
    incr cMEM_SCRUB_PASSES { s with mem := { s.mem with linesRead := 0, segment := 0, raised := false, passStart := s.now } }
  else if segmentEnd s.mem.segment ≤ n then
    { s with mem := { s.mem with linesRead := n, segment := s.mem.segment + 1, raised := false } }
  else { s with mem := { s.mem with linesRead := n } }

/-- SCRUB_LINE_READ (R469): a line is read; a corrected one is written back unless a foreground write cancels that. -/
def execScrubLineRead (addr : Nat) (ecc : EccResult) (cancelled : Bool) (s : State) : Result :=
  if !hbmPowered s || !backgroundRuns s then .next s
  else
    let e := if cancelled && ecc = .corrected then .corrected else ecc
    .next (scrubAdvance (hbmRead e true addr s))

/-- SCRUB_SEGMENT_DUE (R470): segment k is due k + 1 minutes after the pass began; unfinished, it is raised. -/
def execScrubSegmentDue (s : State) : Result :=
  if !hbmPowered s || !backgroundRuns s || s.mem.raised then .next s
  else
    let s1 := reachTime (s.mem.passStart + ms 60000 * (s.mem.segment + 1)) s
    .next { s1 with mem := { s1.mem with raised := true } }

/-- Time in which the scrubber may not run is excluded from its deadlines (R475): called whenever that changes. -/
def settleScrub (s : State) : State :=
  match s.mem.pausedFrom, hbmPowered s && backgroundRuns s with
  | none, false => { s with mem := { s.mem with pausedFrom := some s.now } }
  | some t, true => { s with mem := { s.mem with pausedFrom := none, passStart := s.mem.passStart + (s.now - t) } }
  | _, _ => s

/-- Number of a partition. -/
def partitionNumber : NvmPartition → Nat
  | .bankA => 0
  | .bankB => 1
  | .keyStore => 2
  | .eventLog => 3
  | .system => 4

/-- Lines of a partition (R471). -/
def partitionLines : NvmPartition → Nat
  | .bankA => 1572864
  | .bankB => 1572864
  | .keyStore => 458752
  | .eventLog => 65536
  | .system => 16384

/-- A levelled partition (R471). -/
def partitionLevelled : NvmPartition → Bool
  | .bankA => false
  | .bankB => false
  | _ => true

/-- A value of a count by number. -/
def zeroCount : Nat → Nat := fun _ => 0

/-- The line beside the gap moves into it, and the gap advances (R472). -/
def wearMove (p : NvmPartition) (s : State) : State :=
  let k := partitionNumber p
  let g := (mget zeroCount s.mem.gap k + 1) % (partitionLines p + 1)
  incr cMEM_NVM_MOVES { s with mem := { s.mem with gap := mset zeroCount s.mem.gap k g } }

/-- One more write counts towards the next move of a levelled partition; the move is owed in EMERGENCY and HOLDOVER, and while earlier ones
are owed, which are made first (R472). -/
def countWear (p : NvmPartition) (s : State) : State :=
  let k := partitionNumber p
  let n := mget zeroCount s.mem.sinceMove k + 1
  if !partitionLevelled p then s
  else if n < 1000 then { s with mem := { s.mem with sinceMove := mset zeroCount s.mem.sinceMove k n } }
  else
    let s1 := { s with mem := { s.mem with sinceMove := mset zeroCount s.mem.sinceMove k 0 } }
    if backgroundRuns s && s.mem.owed.isEmpty then wearMove p s1
    else { s1 with mem := { s1.mem with owed := mset zeroCount s1.mem.owed k (mget zeroCount s1.mem.owed k + 1) } }

/-- Writes of a line that are counted towards WEAR_HIGH. -/
def wearLimit : Nat := 800000000

/-- NVM_LINE_WRITE (R472, R473): a line is written; `failures` counts the tries that did not verify. After three the line is retired and
a spare one takes its place. -/
def execNvmLineWrite (part : NvmPartition) (line failures : Nat) (s : State) : Result :=
  let key := partitionNumber part * 2 ^ 32 + line
  if partitionLines part ≤ line then .next s
  else
    let n := mget zeroCount s.mem.lineWrites key + 1
    let s1 := incr cMEM_NVM_WRITES s
    if failures < 3 then
      let s2 := { s1 with mem := { s1.mem with lineWrites := mset zeroCount s1.mem.lineWrites key n } }
      .next (countWear part (if partitionLevelled part && n = wearLimit + 1 then evMem 3 s2 else s2))
    else
      let spare := s1.mem.spare - 1
      let mem := { s1.mem with spare := spare, retired := mset zeroCount s1.mem.retired key (mget zeroCount s1.mem.retired key + 1),
                               lineWrites := mset zeroCount s1.mem.lineWrites key 0 }
      let s2 := evMem 1 (incr cMEM_NVM_RETIRED { s1 with mem := mem })
      .next (countWear part (if spare < 1024 then evMem 2 s2 else s2))

/-- Partitions whose moves can be owed, by number. -/
def partitionOf : Nat → NvmPartition
  | 0 => .bankA
  | 1 => .bankB
  | 2 => .keyStore
  | 3 => .eventLog
  | _ => .system

/-- OWED_MOVE_TICK (R472): once NORMAL is driven, one owed move a millisecond. -/
def execOwedMoveTick (s : State) : Result :=
  match s.mem.owed with
  | [] => .next s
  | (k, n) :: _ =>
    if !backgroundRuns s then .next s
    else
      let s1 := reachTime s.mem.owedNext s
      .next (wearMove (partitionOf k) { s1 with mem := { s1.mem with owed := mset zeroCount s1.mem.owed k (n - 1), owedNext := s1.now + ms 1 } })

end Sys2Proof.Machine
end

