-- ==== Sys2Proof/Machine/Traffic.lean ====
section
/-! DEFINITION. The traffic manager: credit of shapers and policers, eligibility, deficit round robin, and its tables
(05_traffic_manager.md). -/

namespace Sys2Proof.Machine

/-- What an operation on a table of a block answers: ERR_CODE (0 when it succeeds), the index written, the entry read (R268). -/
structure TableReply where
  code : Nat
  index : Nat
  data : Bytes
deriving DecidableEq, Repr

/-- A table operation of an indirect control register or of TABLE_WRITE and TABLE_READ (R267). -/
inductive TableOp where
  | read | write | insert | delete
deriving DecidableEq, Repr

/-- A refusal with its ERR_CODE. -/
def refuse (code : Nat) : TableReply := { code := code, index := 0, data := [] }

/-- Success of a write at an index. -/
def wrote (index : Nat) : TableReply := { code := 0, index := index, data := [] }

/-- Success of a read. -/
def readBack (index : Nat) (data : Bytes) : TableReply := { code := 0, index := index, data := data }

/-- ERR and ERR_CODE of an indirect control register after an operation (R541). -/
def setErr (p : Party) (ctl code : Nat) (s : State) : State :=
  setView p ctl (putFld 26 3 code ||| putBit 30 (decide (code ≠ 0))) s

/-- The outcome of an indirect operation shown in a view's registers: ERR and ERR_CODE afresh, and after a read the entry in
`n` data registers (R541). -/
def showReply (p : Party) (ctl data n : Nat) (op : TableOp) (r : TableReply) (s : State) : State :=
  let s1 := setErr p ctl r.code s
  if r.code = 0 && op = .read then setViewWords p data (bytesToWords n r.data) s1 else s1

/-- The state with a shaper replaced. -/
def setShaper (n : Nat) (b : Bucket) (s : State) : State :=
  { s with tmg := { s.tmg with shapers := mset (fun _ => Bucket.off) s.tmg.shapers n b } }

/-- A policer. -/
def getPolicer (s : State) (n : Nat) : Bucket := mget (fun _ => Bucket.off) s.tmg.policers n

/-- The state with a policer replaced. -/
def setPolicer (n : Nat) (b : Bucket) (s : State) : State :=
  { s with tmg := { s.tmg with policers := mset (fun _ => Bucket.off) s.tmg.policers n b } }

/-- A policer with its credit brought up to the present. -/
def settledPolicer (s : State) (n : Nat) : Bucket :=
  let b := getPolicer s n
  { b with credit := creditAt b b.rate s.now, at_ := s.now }

/-- Every shaper brought up to date at the rate in force: done before a rate in force changes (R140). -/
def settleShapers (s : State) : State := forEach (fun n s => setShaper n (settledShaper s n) s) (s.tmg.shapers.map Prod.fst) s

/-- Counters of a shaper. -/
def ShaperCounts.zero : ShaperCounts := { frames := 0, bytes := 0 }

/-- One shaper is charged (R130): an enabled shaper loses the length. -/
def chargeShaper (len n : Nat) (s : State) : State :=
  let b := settledShaper s n
  if !b.en then s
  else
    let c := mget (fun _ => ShaperCounts.zero) s.tmg.shaperCounts n
    let s1 := setShaper n { b with credit := b.credit - len * creditUnit } s
    let c1 : ShaperCounts := { frames := c.frames + 1, bytes := c.bytes + BitVec.ofNat 64 len }
    { s1 with tmg := { s1.tmg with shaperCounts := mset (fun _ => ShaperCounts.zero) s1.tmg.shaperCounts n c1 } }

/-- Both shapers of a frame are charged (R131). -/
def chargeFrame (f : Frame) (s : State) : State := forEach (chargeShaper (chargedLen f)) (frameShapers s f) s

/-- An uncorrectable error in a shaper's credit word: the credit becomes BURST (R144). -/
def reloadShaper (n : Nat) (s : State) : State :=
  let b := getShaper s n
  evTmg 0 (setShaper n { b with credit := b.burst * creditUnit, at_ := s.now } s)

/-- Credit words are read, those of enabled shapers among the ones named; `bad` have an uncorrectable error (R144). -/
def readCredits (bad shapers : List Nat) (s : State) : State :=
  forEach reloadShaper ((bad.filter (fun n => shapers.contains n && (getShaper s n).en)).eraseDups) s

/-- Counters of a policer. -/
def PolicerCounts.zero : PolicerCounts := { passFrames := 0, passBytes := 0, dropFrames := 0, dropBytes := 0 }

/-- Counters of a policer after a frame. -/
def countPolicer (n len : Nat) (pass : Bool) (s : State) : State :=
  let c := mget (fun _ => PolicerCounts.zero) s.tmg.policerCounts n
  let l := BitVec.ofNat 64 len
  let c1 : PolicerCounts :=
    if pass then { c with passFrames := c.passFrames + 1, passBytes := c.passBytes + l }
    else { c with dropFrames := c.dropFrames + 1, dropBytes := c.dropBytes + l }
  { s with tmg := { s.tmg with policerCounts := mset (fun _ => PolicerCounts.zero) s.tmg.policerCounts n c1 } }

/-- The policing decision for a frame (R136, R137): true when the frame continues. An LS result and a record without POL_EN are not
policed; a disabled policer always conforms. -/
def police (ecc : EccResult) (f : Frame) (s : State) : Bool × State :=
  if !resPol f.record || resLs f.record then (true, s)
  else
    let n := resPolicer f.record
    let len := chargedLen f
    let s0 := if ecc = .uncorrectable then
        evTmg 0 (setPolicer n { getPolicer s n with credit := (getPolicer s n).burst * creditUnit, at_ := s.now } s) else s
    let b := settledPolicer s0 n
    if !b.en then (true, countPolicer n len true s0)
    else if len * creditUnit ≤ b.credit then
      (true, countPolicer n len true (setPolicer n { b with credit := b.credit - len * creditUnit } s0))
    else
      let s1 := countPolicer n len false (incr cTMG_POL_DROP s0)
      (false, if len > b.burst then evTmg 1 s1 else s1)

/-- A level as stored. -/
def getDwrr (s : State) (set : Nat) : DwrrSet :=
  { cur := mget (fun _ => 0) s.tmg.cur set,
    deficit := (s.tmg.deficit.filter (fun e => e.1 / 65536 = set)).map (fun e => (e.1 % 65536, e.2)) }

/-- The state with a level stored. -/
def setDwrr (set : Nat) (d : DwrrSet) (s : State) : State :=
  let cleared := mfilter (fun k _ => decide (k / 65536 ≠ set)) s.tmg.deficit
  let merged := d.deficit.foldl (fun m e => mset (fun _ => 0) m (65536 * set + e.1) e.2) cleared
  { s with tmg := { s.tmg with cur := mset (fun _ => 0) s.tmg.cur set d.cur, deficit := merged } }

/-- Weight of an instance in a class (R139, R140). -/
def instWeight (s : State) (c inst : Nat) : Nat :=
  let w := (sweptRecord s inst).weights.getD c 16
  if isScaled s inst then l1Scaled s w else w

/-- The instance level of an output and class as DWRR queues; `open_` says that the port lets the class leave. -/
def instanceLevel (s : State) (open_ : Nat → Bool) (o c : Nat) : List DwrrQueue :=
  (queueHeads (egressQueues s o c)).map (fun q =>
    { id := q.1, eligible := open_ c && frameConforms s q.2, len := chargedLen q.2, weight := instWeight s c q.1 })

/-- TMG_DWRR_CFG.QUANTUM. -/
def quantum (s : State) : Nat := regFld s rTMG_DWRR_CFG 0 16

/-- Weight of a class (TMG_CLS_WEIGHT). -/
def classWeight (s : State) (c : Nat) : Nat :=
  if c ≤ 3 then regFld s rTMG_CLS_WEIGHT (8 * c) 8 else regFld s rTMG_CLS_WEIGHT_HI (8 * (c - 4)) 8

/-- The pick of the instance level of an output and class. -/
def pickInstance (s : State) (open_ : Nat → Bool) (o c : Nat) : Option Nat × DwrrSet :=
  let qs := instanceLevel s open_ o c
  dwrrPick (quantum s) qs (dwrrFuel qs) (getDwrr s (16 * o + c))

/-- Length of the frame that the instance level of a class would pick. -/
def classHead (s : State) (open_ : Nat → Bool) (o c : Nat) : Nat :=
  match (pickInstance s open_ o c).1 with
  | some v => match (instanceLevel s open_ o c).find? (fun x => x.id = v) with | some x => x.len | none => 0
  | none => 0

/-- The class level of an output (R138): classes 0–5 that hold a frame. -/
def classLevel (s : State) (open_ : Nat → Bool) (o : Nat) : List DwrrQueue :=
  (List.range 6).filterMap (fun c =>
    let qs := instanceLevel s open_ o c
    if qs.isEmpty then none
    else some { id := c, eligible := qs.any DwrrQueue.eligible, len := classHead s open_ o c, weight := classWeight s c })

/-- The choice of R138 among classes 0–6 of an output: class and instance of the queue to serve, with the DWRR state after it. -/
def tmgPick (s : State) (open_ : Nat → Bool) (o : Nat) : Option (Nat × Nat) × State :=
  match pickInstance s open_ o 6 with
  | (some v, d) => (some (6, v), setDwrr (16 * o + 6) d s)
  | (none, _) =>
    let cs := classLevel s open_ o
    match dwrrPick (quantum s) cs (dwrrFuel cs) (getDwrr s (16 * o + 15)) with
    | (none, d) => (none, setDwrr (16 * o + 15) d s)
    | (some c, d) =>
      match pickInstance s open_ o c with
      | (some v, di) => (some (c, v), setDwrr (16 * o + c) di (setDwrr (16 * o + 15) d s))
      | (none, _) => (none, s)

/-- The flow shaper of a class-7 frame is charged in NORMAL only (R134). -/
def chargeLs (f : Frame) (s : State) : State :=
  if lsBypass s || !resShp f.record then s else chargeShaper (chargedLen f) (resShaper f.record) s

/-- A shaper or policer entry as bytes 0–31 (TMG_IND_DATA). -/
def bucketBytes (b : Bucket) : Bytes :=
  toLe 4 b.rate ++ toLe 4 b.burst ++ toLe 4 (b.credit / creditUnit) ++ toLe 2 (if b.en then 1 else 0) ++ List.replicate 18 0

/-- Whether the bytes written are a legal shaper (`lo` 16,384) or policer (`lo` 64) entry (R144, R6). -/
def bucketLegal (lo : Nat) (d : Bytes) : Bool :=
  decide (1 ≤ leAt d 0 4) && decide (leAt d 0 4 ≤ 640000000) && decide (lo ≤ leAt d 4 4) && decide (leAt d 4 4 < 2 ^ 24)
    && decide (leAt d 12 2 < 2) && zeroAt d 14 18

/-- The entry after a write (R135). -/
def rewriteBucket (old : Bucket) (d : Bytes) : Bucket :=
  let burst := leAt d 4 4
  let en := nbit (leAt d 12 2) 0
  { old with rate := leAt d 0 4, burst := burst, en := en,
             credit := if en && !old.en then burst * creditUnit else min old.credit (burst * creditUnit) }

/-- An operation on a table of TMG: 0 shapers, 1 policers, 2 and 3 their counters (R135, R144). -/
def tmgTable (crater : Bool) (op : TableOp) (table index : Nat) (d : Bytes) (s : State) : TableReply × State :=
  let isShaper := table = 0 || table = 2
  if table > 3 then (refuse 3, s)
  else if (if isShaper then 262144 else 131072) ≤ index then (refuse 1, s)
  else
    match op with
    | .read =>
      let c := mget (fun _ => ShaperCounts.zero) s.tmg.shaperCounts index
      let q := mget (fun _ => PolicerCounts.zero) s.tmg.policerCounts index
      (readBack index
        (if table = 0 then bucketBytes (settledShaper s index)
         else if table = 1 then bucketBytes (settledPolicer s index)
         else if table = 2 then toLe 8 c.frames.toNat ++ toLe 8 c.bytes.toNat
         else toLe 8 q.passFrames.toNat ++ toLe 8 q.passBytes.toNat ++ toLe 8 q.dropFrames.toNat ++ toLe 8 q.dropBytes.toNat), s)
    | .write =>
      if table = 0 && index < 1024 && !crater then (refuse 2, s)
      else if table = 0 && bucketLegal 16384 d then (wrote index, setShaper index (rewriteBucket (settledShaper s index) d) s)
      else if table = 1 && bucketLegal 64 d then (wrote index, setPolicer index (rewriteBucket (settledPolicer s index) d) s)
      else (refuse 3, s)
    | .insert => (refuse 3, s)
    | .delete => (refuse 3, s)

/-- An operation through a view's TMG_IND registers. -/
def tmgIndirect (p : Party) (op : TableOp) (s : State) : State :=
  let a := getView s p rTMG_IND_ADDR
  let d := viewBytes s p (rTMG_IND_DATA 0) 8
  let r := tmgTable (isCrater p) op (fld a 18 2) (fld a 0 18) d s
  showReply p rTMG_IND_CTL (rTMG_IND_DATA 0) 8 op r.1 r.2

/-- TMG_IND_READ (R135). -/
def execTmgIndRead (p : Party) (s : State) : Result := .next (tmgIndirect p .read s)

/-- TMG_IND_WRITE (R135, R144). -/
def execTmgIndWrite (p : Party) (s : State) : Result := .next (tmgIndirect p .write s)

end Sys2Proof.Machine
end

