-- ==== Sys2Proof/Machine/Parse.lean ====
section
/-! DEFINITION. Parsing a frame, building its keys and finding its entry (R99–R108). -/

namespace Sys2Proof.Machine

/-- What a parse finds. -/
structure Parsed where
  profile : Nat
  pflags : Nat
  trunc : Bool
  err : Bool
  /-- header offsets by layer slot -/
  layers : Map Nat
deriving DecidableEq, Repr

/-- A parse node that the image has not set. -/
def nodeAt (s : State) (n : Nat) : Bytes := (mfind s.flp.nodes n).getD (List.replicate 64 0)

/-- The parse from a node on (R99–R101). The fuel is the number of nodes that may still be visited; a parse that would visit one
more ends with PARSE_ERR and profile 63. A length of 0, or one past the end of the frame, does too. A header that extends beyond
byte 512 ends the parse with TRUNC and the profile chosen so far. Of a header that does both, the parse error is taken (DESIGN CHOICE, log
entry 66: R101 does not say which comes first). -/
def parseFrom (s : State) (bs : Bytes) : Nat → Nat → Nat → Parsed → Parsed
  | 0, _, _, r => { r with err := true, profile := 63 }
  | fuel + 1, n, off, r =>
    if 512 ≤ off then { r with trunc := true }
    else
      let node := nodeAt s n
      let len := nodeLen node bs off
      if len = 0 || bs.length < off + len then { r with err := true, profile := 63 }
      else if 512 < off + len then { r with trunc := true }
      else
        let r1 : Parsed := { r with
          layers := if nodeLayer node = 0xFF then r.layers else minsert r.layers (nodeLayer node) off,
          pflags := r.pflags ||| nodePflags node,
          profile := if nodeProfile node = 0xFF then r.profile else nodeProfile node }
        let nxt := nodeNext node bs off
        if nxt = 0xFFFF then r1 else parseFrom s bs fuel nxt (off + len) r1

/-- The start node of a frame: by input port, or by H0 and H1 for host transmit (record 0x0302). -/
def startNode (s : State) (f : Frame) (dir : Bool) : Nat :=
  mget (fun _ => 0) s.flp.starts (if dir then (if f.srcSp = 20 then 0xFE else 0xFF) else f.srcSp)

/-- The parse of a frame: at most 32 nodes (R101). -/
def parseFrame (s : State) (f : Frame) (dir : Bool) : Parsed :=
  parseFrom s f.bytes 32 (startNode s f dir) 0 { profile := 0, pflags := 0, trunc := false, err := false, layers := [] }

/-- The metadata word (R103); `dir` is 1 for the egress lookup of a host-transmitted frame. -/
def metadata (f : Frame) (dir : Bool) (r : Parsed) : Nat :=
  f.srcSp + r.profile * 2 ^ 5 + r.pflags * 2 ^ 11 + (if r.trunc then 2 ^ 19 else 0) + (if r.err then 2 ^ 20 else 0)
    + (if f.recirc then 2 ^ 21 else 0) + (if dir then 2 ^ 22 else 0) + (if dir then f.inst * 2 ^ 23 else 0)

/-- The bytes of one extract: slot 15 is the metadata word; a layer that the frame does not have gives zeros (R104). -/
def extractBytes (bs mdata : Bytes) (r : Parsed) (e : Extract) : Bytes :=
  if e.layer = 15 then slice mdata e.off e.len
  else match mfind r.layers e.layer with
    | some o => slice bs (o + e.off) e.len
    | none => List.replicate e.len 0

/-- Extracts of a profile. -/
def profileExtracts (s : State) (n : Nat) : List Extract := (mfind s.flp.profiles n).getD []

/-- The exact key: 32 bytes (R104). -/
def exactKey (s : State) (f : Frame) (dir : Bool) (r : Parsed) : Bytes :=
  let md := toLe 8 (metadata f dir r)
  let ex := ((profileExtracts s r.profile).filter (fun e => !e.ternary)).flatMap (extractBytes f.bytes md r)
  slice (toLe 1 (r.profile + (if f.recirc then 64 else 0) + (if dir then 128 else 0)) ++ [0] ++ ex) 0 32

/-- The ternary key: 80 bytes (R104). -/
def ternaryKey (s : State) (f : Frame) (dir : Bool) (r : Parsed) : Bytes :=
  let md := toLe 8 (metadata f dir r)
  let ex := ((profileExtracts s r.profile).filter (fun e => e.ternary)).flatMap (extractBytes f.bytes md r)
  slice (md ++ ex) 0 80

/-- Whether a profile uses the exact lookup (R96). -/
def usesExact (s : State) (profile : Nat) : Bool := (profileExtracts s profile).any (fun e => !e.ternary)

/-- First candidate bucket (R105). -/
def bucketH1 (key : Bytes) : Nat := (crc32cSeed 0xFFFFFFFF key).toNat % 2 ^ 21
/-- Second candidate bucket (R105). -/
def bucketH2 (key : Bytes) : Nat := (crc32cSeed 0x5A5A5A5A key).toNat % 2 ^ 21

/-- The ways of a bucket as entry indices. -/
def waysOf (b : Nat) : List Nat := span (4 * b) 4

/-- An entry that is listed and valid. -/
def validEntry (s : State) (i : Nat) : Option Bytes :=
  match mfind s.flp.exact i with
  | some e => if resValid (slice e 32 32) then some e else none
  | none => none

/-- Whether entry `i` is valid and holds the key. -/
def holdsKey (s : State) (key : Bytes) (i : Nat) : Bool :=
  match validEntry s i with
  | some e => slice e 0 32 = key
  | none => false

/-- The exact lookup (R105): the index of the entry that holds the key. -/
def lookupExact (s : State) (key : Bytes) : Option Nat := (waysOf (bucketH1 key) ++ waysOf (bucketH2 key)).find? (holdsKey s key)

/-- Whether a ternary rule matches (R106). -/
def ternaryMatches (key rule : Bytes) : Bool :=
  (List.range 80).all (fun k => (byteAt key k &&& byteAt rule (80 + k)) = (byteAt rule k &&& byteAt rule (80 + k)))

/-- The valid rules that match, lowest index first. -/
def ternaryHits (s : State) (key : Bytes) : List (Nat × Bytes) :=
  s.flp.ternary.filter (fun e => resValid (slice e.2 160 32) && ternaryMatches key e.2)

/-- Whose result a lookup took. -/
inductive ResultOf where
  | exact (index : Nat)
  | ternary (rule : Nat)
  | default (profile : Nat)
deriving DecidableEq, Repr

/-- The default result of a profile; a profile that the image has not set has none and drops (R111). -/
def defaultResult (s : State) (profile : Nat) : Bytes := (mfind s.flp.defaults profile).getD (List.replicate 32 0)

/-- The choice of R108. -/
def chooseResult (s : State) (profile : Nat) (ternKey : Bytes) (exact : Option Nat) : ResultOf :=
  let hits := ternaryHits s ternKey
  match hits.find? (fun h => resOverride (slice h.2 160 32)) with
  | some h => .ternary h.1
  | none =>
    match exact with
    | some i => .exact i
    | none =>
      match hits with
      | h :: _ => .ternary h.1
      | [] => .default profile

/-- The action record of a choice. -/
def resultBytes (s : State) : ResultOf → Bytes
  | .exact i => slice ((mfind s.flp.exact i).getD []) 32 32
  | .ternary n => slice ((mfind s.flp.ternary n).getD []) 160 32
  | .default p => defaultResult s p

/-- The index that a Tephra copy names (R92); none for a default result. -/
def resultRule : ResultOf → Option Nat
  | .exact i => some i
  | .ternary n => some n
  | .default _ => none

/-- Key of a record in `Flp.samples`. -/
def sampleKey : ResultOf → Nat
  | .exact i => i
  | .ternary n => 2 ^ 24 + n
  | .default p => 2 ^ 25 + p

/-- The tick (R125 and the text above it). -/
def tickNow (s : State) : Nat := s.now / 1000000 % 2 ^ 32

/-- Ways in a set of the cache (R98). -/
def cacheSet (i : Nat) : Nat := i / 4 % 4096

/-- Whether an entry is in the cache: LS entries are pinned in it (R98). -/
def inCache (s : State) (i : Nat) : Bool :=
  (match validEntry s i with | some e => resLs (slice e 32 32) | none => false) ||
    (mget (fun _ => []) s.flp.cache (cacheSet i)).contains i

/-- Ways of a set that entries without LS can use: the pinned ones take theirs (R98). -/
def freeWays (s : State) (set : Nat) : Nat :=
  16 - (s.flp.exact.filter (fun e => decide (cacheSet e.1 = set) && resValid (slice e.2 32 32) && resLs (slice e.2 32 32))).length

/-- The cache after a use of an entry: most recently used first, in the 16 ways of its set that no pinned entry takes (R98). -/
def touchCache (i : Nat) (s : State) : State :=
  let k := cacheSet i
  let ws := mget (fun _ => []) s.flp.cache k
  { s with flp := { s.flp with cache := mset (fun _ => []) s.flp.cache k ((i :: ws.filter (· ≠ i)).take (freeWays s k)) } }

/-- An LS entry is pinned in its set (R98): it leaves the list, and the least recently used make room. -/
def pinCache (i : Nat) (s : State) : State :=
  let k := cacheSet i
  let ws := mget (fun _ => []) s.flp.cache k
  { s with flp := { s.flp with cache := mset (fun _ => []) s.flp.cache k ((ws.filter (· ≠ i)).take (freeWays s k)) } }

/-- The cache without an entry. -/
def dropCache (i : Nat) (s : State) : State :=
  let ws := mget (fun _ => []) s.flp.cache (cacheSet i)
  { s with flp := { s.flp with cache := mset (fun _ => []) s.flp.cache (cacheSet i) (ws.filter (· ≠ i)) } }

/-- What a hit writes: LAST_HIT, and the entry's counters when CNT_EN is set (R107). -/
def recordHit (r : ResultOf) (len : Nat) (s : State) : State :=
  let res := resultBytes s r
  let up := fun m k => mset zero64 m k (mget zero64 m k + 1)
  let upN := fun m k => mset zero64 m k (mget zero64 m k + BitVec.ofNat 64 len)
  match r with
  | .exact i =>
    let e := (mfind s.flp.exact i).getD []
    let s0 := { s with flp := { s.flp with exact := minsert s.flp.exact i (slice e 0 32 ++ setLastHit res (tickNow s)) } }
    let s1 := if resLs res then s0 else touchCache i s0
    if resCount res then
      { s1 with flp := { s1.flp with exactFrames := up s1.flp.exactFrames i, exactBytes := upN s1.flp.exactBytes i } } else s1
  | .ternary n =>
    let e := (mfind s.flp.ternary n).getD []
    let s1 := { s with flp := { s.flp with ternary := minsert s.flp.ternary n (slice e 0 160 ++ setLastHit res (tickNow s)) } }
    if resCount res then
      { s1 with flp := { s1.flp with ternFrames := up s1.flp.ternFrames n, ternBytes := upN s1.flp.ternBytes n } } else s1
  | .default _ => s

end Sys2Proof.Machine
end

