-- ==== Sys2Proof/Machine/Tunnel.lean ====
section
/-! DEFINITION. Tunnel encapsulation of types 1 and 2, decapsulation checks, and how far each type makes a frame grow
(R113, R114). -/

namespace Sys2Proof.Machine

/-- A descriptor's outer addresses (R109). -/
def tunSrc (d : Bytes) : Bytes := if tunFlag d 0 then slice d 16 16 else slice d 16 4
/-- Outer destination address. -/
def tunDst (d : Bytes) : Bytes := if tunFlag d 0 then slice d 32 16 else slice d 32 4

/-- DSCP and ECN of an outer header as one byte (R113): DSCP is copied from an inner IP header when COPY_DSCP is set; the ECN of an
inner IP header is copied, the normal mode of RFC 6040. -/
def outerTos (d inner : Bytes) : Nat :=
  let v := ipVersion inner
  let dscp := if tunFlag d 3 && v ≠ 0 then dscpAt inner (l3Off inner) v else byteAt d 11 % 64
  let ecn := if v = 0 then 0 else ecnAt inner (l3Off inner) v
  dscp * 4 + ecn

/-- The outer Ethernet header of a descriptor, with its 802.1Q tag when OUTER_VLAN is set. -/
def outerEth (d : Bytes) : Bytes :=
  slice d 48 6 ++ slice d 54 6 ++ (if tunFlag d 4 then toBe 2 tpidC ++ toBe 2 (leAt d 12 2) else [])
    ++ toBe 2 (if tunFlag d 0 then 0x86DD else 0x0800)

/-- Outer Ethernet and IP headers around a payload of protocol `proto`. -/
def outerIp (d inner : Bytes) (hash : BitVec 16) (proto : Nat) (payload : Bytes) : Bytes :=
  outerEth d ++
    (if tunFlag d 0 then ipv6Header (outerTos d inner) hash.toNat (byteAt d 10) proto payload.length (tunSrc d) (tunDst d)
     else ipv4Header (outerTos d inner) (byteAt d 10) proto payload.length (tunSrc d) (tunDst d)) ++ payload

/-- The UDP destination port of types 1 and 2: DST_UDP, or the value in FLP_TUN_PORTS when it is 0 (R109). -/
def tunPort (s : State) (d : Bytes) : Nat :=
  if leAt d 8 2 ≠ 0 then leAt d 8 2
  else if tunType d = 1 then regFld s rFLP_TUN_PORTS 0 16 else regFld s rFLP_TUN_PORTS 16 16

/-- ENCAP of types 1 and 2 (R113). -/
def encapUdp (s : State) (d : Bytes) (hash : BitVec 16) (frame : Bytes) : Bytes :=
  let shim := if tunType d = 1 then toBe 1 8 ++ toBe 3 0 ++ toBe 3 (tunId d) ++ toBe 1 0
    else toBe 2 0 ++ toBe 2 0x6558 ++ toBe 3 (tunId d) ++ toBe 1 0
  let body := shim ++ frame
  let head := toBe 2 (49152 + hash.toNat % 16384) ++ toBe 2 (tunPort s d) ++ toBe 2 (8 + body.length)
  let plain := head ++ toBe 2 0 ++ body
  let dgram := if tunFlag d 1 then head ++ toBe 2 (udpChecksum (tunSrc d) (tunDst d) plain) ++ body else plain
  outerIp d frame hash 17 dgram

/-- The frame inside a VXLAN or Geneve frame, when it passes the checks of R114. -/
def decapUdp (s : State) (d bs : Bytes) : Option Bytes :=
  let u := l4Off bs
  let h := u + 8
  if ipVersion bs = 0 || ipProto bs ≠ 17 || bs.length < h + 8 || beAt bs (u + 2) 2 ≠ tunPort s d then none
  else if tunType d = 1 then
    (if nbit (byteAt bs h) 3 && beAt bs (h + 4) 3 = tunId d then some (bs.drop (h + 8)) else none)
  else
    let opt := 4 * (byteAt bs h % 64)
    if byteAt bs h / 64 = 0 && beAt bs (h + 2) 2 = 0x6558 && !nbit (byteAt bs (h + 1)) 6
        && h + 8 + opt ≤ min 512 bs.length
    then some (bs.drop (h + 8 + opt)) else none

/-- Bytes by which ENCAP lengthens a frame (the table of R113): ESP pads the trailer to a multiple of 4. -/
def encapGrowth (d frame : Bytes) : Nat :=
  let v6 := if tunFlag d 0 then 20 else 0
  let vl := if tunFlag d 4 then 4 else 0
  match tunType d with
  | 1 => 50 + v6 + vl
  | 2 => 50 + v6 + vl
  | 3 => 54 + v6 + vl + (4 - (frame.length - l3Off frame + 2) % 4) % 4 - (l3Off frame - 14)
  | 4 => 34 + (4 - (frame.length - l4Off frame + 2) % 4) % 4
  | 5 => if tunFlag d 5 then 32 else 24
  | 6 => 16
  | _ => 0

/-- SCI of a descriptor of type 5 (R109): the MAC part, then the port identifier. -/
def tunSci (d : Bytes) : Bytes := slice d 54 6 ++ toBe 2 (tunId d % 65536)

/-- Whether a frame passes the checks of R114 for a descriptor of types 3–6 before it goes to a cipher engine: it has the headers of
its type; the SPI equals ID; the SCI is the descriptor's. A SecTAG without SCI has the implicit SCI of IEEE 802.1AE: the source address with
port 1, or 0 with SCB, when ES says so; otherwise the port has one peer, whose SCI the descriptor gives (PRESUMED, log entry 65). -/
def cipherCheck (d bs : Bytes) : Bool :=
  let u := l4Off bs
  match tunType d with
  | 3 => ipVersion bs ≠ 0 && ipProto bs = 50 && decide (u + 34 ≤ bs.length) && beAt bs u 4 = tunId d
  | 4 => ipVersion bs ≠ 0 && ipProto bs = 50 && decide (u + 34 ≤ bs.length) && beAt bs u 4 = tunId d
  | 5 =>
    let tci := byteAt bs 14
    let sc := nbit tci 5
    let implicit := slice bs 6 6 ++ [0, if nbit tci 4 then 0 else 1]
    beAt bs 12 2 = 0x88E5 && decide ((if sc then 28 else 20) + 16 ≤ bs.length)
      && (if sc then slice bs 20 8 = tunSci d else !nbit tci 6 || implicit = tunSci d)
  | 6 => ipVersion bs ≠ 0 && ipProto bs = 17 && decide (u + 36 ≤ bs.length)
  | _ => false

end Sys2Proof.Machine
end

