-- ==== Sys2Proof/Machine/Flow.lean ====
section
/-! DEFINITION. Passes of the flow pipelines (04_flow_pipelines.md): ingress lookup and actions, egress actions and multicast
copies. -/

namespace Sys2Proof.Machine

/-- Ingress pipeline of an input port (R16). -/
def ingressPipe (sp : Nat) : Nat := if sp ≤ 7 then 0 else if sp ≤ 15 then 1 else if sp = 23 then 1 else 0

/-- Egress pipeline of an output port (R16). -/
def egressPipe (sp : Nat) : Nat := if sp ≤ 7 then 2 else if sp ≤ 15 then 3 else if sp = 21 || sp = 23 then 3 else 2

/-- A frame that arrives at an input port, with nothing known of it but its bytes. -/
def newFrame (bytes : Bytes) (srcSp inst : Nat) (host : Bool) (at_ : Nat) : Frame :=
  { bytes := bytes, cls := 0, inst := inst, srcSp := srcSp, dest := .none, qsel := 0, record := List.replicate 32 0, rule := none,
    l2 := [], ls := false, hash := 0, encap := none, decap := none, host := host, recirc := false, fp := ingressPipe srcSp, mirror := 0,
    origLen := 0, dstSp := 0xFF, copyCls := 0, mcId := none, stream := none, svcReason := none, fab := none, movedFrom := none, sync := false, stamp := none,
    rxAt := at_, admitAt := at_ }

/-- A frame put at the end of the queue of an ingress pipeline. -/
def toIngress (fp : Nat) (f : Frame) (s : State) : State :=
  { s with flp := { s.flp with ingress := mset (fun _ => []) s.flp.ingress fp (mget (fun _ => []) s.flp.ingress fp ++ [f]) } }

/-- Input of the switch core that a frame uses: a frame after decryption comes back through SP25 (R16). A copy enters where the frame it was
made of did (DESIGN CHOICE, log entry 67: R92 does not say by which input the copy of an egress mirror enters). -/
def switchInput (f : Frame) : Nat := if f.recirc then 25 else f.srcSp

/-- A frame whose pass is done, on its way to the switch core. -/
def toSwitch (f : Frame) (s : State) : State :=
  let i := switchInput f
  { s with swc := { s.swc with arrivals := mset (fun _ => []) s.swc.arrivals i (mget (fun _ => []) s.swc.arrivals i ++ [f]) } }

/-- Whether the port mode in force uses an output (R17); ports other than Ethernet's are always used. -/
def outputUsed (s : State) (o : Nat) : Bool :=
  if o < 16 then (match mfind s.eth.ports o with | some p => p.inUse | none => false) else decide (o < 26)

/-- A descriptor by index; an unwritten one has TYPE 0. -/
def tunnelAt (s : State) (n : Nat) : Bytes := (mfind s.flp.tunnels n).getD (List.replicate 64 0)

/-- A Tephra copy of a frame (R92, R110): class 0 to SP20. -/
def tephraCopy (s : State) (reason : Nat) (f : Frame) (bytes : Bytes) : Frame :=
  { f with bytes := bytes, cls := 0, ls := false, dest := .unicast 20 s.ident.cid, mirror := reason, origLen := bytes.length,
           dstSp := (match f.dest with | .unicast sp _ => if f.mcId.isSome then 0xFF else sp | _ => 0xFF), copyCls := f.cls, mcId := none, encap := none, decap := none,
           stream := none, fab := none }

/-- A recorder copy of a frame (R110): SP23, no further actions. -/
def recordCopy (s : State) (stream : Nat) (f : Frame) (bytes : Bytes) : Frame :=
  { f with bytes := bytes, dest := .unicast 23 s.ident.cid, stream := some stream, record := List.replicate 32 0, encap := none,
           decap := none }

/-- What the ingress stage has made of a frame so far. -/
structure Stage where
  frame : Frame
  /-- counter of the drop, when the frame is dropped -/
  dropped : Option Nat
  st : State

/-- One stage I action (R110). `orig` is the frame before the stage, `key` names its record for SAMPLE; `only` restricts the stage to
the copies of R115. -/
def ingressAction (fp : Nat) (orig : Bytes) (key : Nat) (only : Bool) (g : Stage) (a : Action) : Stage :=
  if g.dropped.isSome then g
  else
    let f := g.frame
    match a with
    | .mirror => { g with st := toSwitch (tephraCopy g.st 1 f orig) g.st }
    | .sample n =>
      let c := mget (fun _ => 0) g.st.flp.samples key + 1
      let s1 := { g.st with flp := { g.st.flp with samples := mset (fun _ => 0) g.st.flp.samples key (if n ≤ c then 0 else c) } }
      { g with st := if n ≤ c then toSwitch (tephraCopy s1 3 f orig) s1 else s1 }
    | .recordStream n => { g with st := toSwitch (recordCopy g.st n f orig) g.st }
    | .drop _ => if only then g else { g with dropped := some (cFLP_DROP_ACTION fp) }
    | .setClass c => if only then g else { g with frame := { f with cls := c, ls := false } }
    | .toSvc r => if only then g else { g with frame := { f with cls := 0, ls := false, svcReason := some r } }
    | .popVlan => if only then g else { g with frame := { f with bytes := popVlan f.bytes } }
    | .decap d =>
      if only then g
      else
        let desc := tunnelAt g.st d
        match (if tunType desc = 1 || tunType desc = 2 then decapUdp g.st desc f.bytes else none) with
        | some inner => { g with frame := { f with bytes := inner } }
        | none => { g with dropped := some (cFLP_DROP_DECAP fp) }
    | .fwdPort _ _ => g
    | .fwdVf _ _ => g
    | .mcast _ => g
    | .pushVlan _ => g
    | .setVid _ => g
    | .setDscp _ => g
    | .decTtl => g
    | .setL2 _ => g
    | .encap _ => g
    | .dropMirror => g

/-- Queue selection relative to QUEUE_BASE: QSEL 255 spreads by FLOW_HASH over the spread set (R110, R236). -/
def queueSelect (s : State) (inst q : Nat) (hash : BitVec 16) : Nat :=
  let r := getRecord s inst
  if q = 255 then r.spreadBase + hash.toNat % 2 ^ r.spreadLog2 else q

/-- Destination that a record's forwarding action gives (R110), and the queue selection relative to the instance's QUEUE_BASE. -/
def recordDest (s : State) (inst : Nat) (hash : BitVec 16) : List Action → Option (Dest × Nat)
  | [] => none
  | .fwdPort sp cid :: _ => some (.unicast sp cid, 0)
  | .fwdVf q cid :: _ => some (.unicast (20 + inst % 2) cid, queueSelect s inst q hash)
  | .mcast g :: _ => some (.group g 0, 0)
  | .toSvc _ :: _ => some (.unicast 24 s.ident.cid, 0)
  | .drop _ :: _ => some (.none, 0)
  | _ :: as => recordDest s inst hash as

/-- A dropped frame: counted, with a Tephra copy of reason 4 when the record has DROP_MIRROR (R110). -/
def dropFrame (ctr : Nat) (f : Frame) (orig : Bytes) (s : State) : State :=
  let s1 := incr ctr s
  if (resActions f.record).contains .dropMirror then toSwitch { tephraCopy s1 4 f orig with dstSp := 0xFF } s1 else s1

/-- The L2 rewrite entries that a record names, as they stand (R21, R121). -/
def captureL2 (s : State) (acts : List Action) : Map Bytes :=
  acts.foldl (fun m a => match a with | .setL2 n => minsert m n ((mfind s.flp.l2 n).getD (List.replicate 12 0)) | _ => m) []

/-- The frame with its record, as the lookup fixes it (R21). -/
def bindRecord (s : State) (fp : Nat) (f : Frame) (r : ResultOf) : Frame :=
  let rec_ := resultBytes s r
  let acts := resActions rec_
  let hash := Config.flowHash f.bytes
  let d := (recordDest s (resInst rec_) hash acts).getD (.none, 0)
  let own := match d.1 with | .unicast _ cid => isOwnCid s cid | _ => true
  { f with record := rec_, rule := resultRule r, cls := resClass rec_, inst := resInst rec_, ls := resLs rec_, hash := hash,
           dest := d.1, qsel := d.2, fp := fp, l2 := captureL2 s acts,
           encap := (match acts.findSome? Action.encapOf with
             | some n => if own then some (tunnelAt s n) else none
             | none => if f.inst = 4101 then f.encap else none) }

/-- The ingress stage of a frame whose result is chosen (R108, R110–R115, R127, R136): shed and police, then the actions. Answers the
frame that goes on, if it does. -/
def ingressStage (fp : Nat) (f0 : Frame) (r : ResultOf) (ecc : LookupEcc) (s0 : State) : Option Frame × State :=
  let s := recordHit r (chargedLen f0) s0
  let f := bindRecord s fp f0 r
  let acts := resActions f.record
  if f.cls ≠ 7 && 2 ≤ shedAt s .flp f.inst then
    let s1 := { s with flp := { s.flp with shedDrops := mset zero64 s.flp.shedDrops f.inst (mget zero64 s.flp.shedDrops f.inst + 1) } }
    (none, dropFrame (cFLP_DROP_SHED fp) f f0.bytes s1)
  else
    match police ecc.credit f s with
    | (false, s1) =>
      (none, if acts.contains .dropMirror then toSwitch { tephraCopy s1 4 f f0.bytes with dstSp := 0xFF } s1 else s1)
    | (true, s1) =>
      match acts.findSome? Action.decapOf with
      | some n =>
        let desc := tunnelAt s1 n
        if tunCiphers desc && !f.recirc && !cipherCheck desc f0.bytes then (none, dropFrame (cFLP_DROP_DECAP fp) f f0.bytes s1)
        else if tunCiphers desc && !f.recirc then
          let f1 := { f with dest := .unicast 25 s1.ident.cid, decap := some desc }
          let g := acts.foldl (ingressAction fp f0.bytes (sampleKey r) true) { frame := f1, dropped := none, st := s1 }
          (some g.frame, g.st)
        else
          let g := acts.foldl (ingressAction fp f0.bytes (sampleKey r) false) { frame := f, dropped := none, st := s1 }
          match g.dropped with
          | some c => (none, dropFrame c f f0.bytes g.st)
          | none => if f.dest = .none then (none, dropFrame (cFLP_DROP_ACTION fp) f f0.bytes g.st) else (some g.frame, g.st)
      | none =>
        let g := acts.foldl (ingressAction fp f0.bytes (sampleKey r) false) { frame := f, dropped := none, st := s1 }
        match g.dropped with
        | some c => (none, dropFrame c f f0.bytes g.st)
        | none =>
          if f.dest = .none then (none, dropFrame (cFLP_DROP_ACTION fp) f f0.bytes g.st)
          else (some g.frame, if g.frame.svcReason.isSome then incr (cFLP_TO_SVC fp) g.st else g.st)

/-- State of a key profile (R124). -/
def profState (s : State) (n : Nat) : ProfState := mget (fun _ => .run) s.flp.profState n

/-- The state with a key profile's state replaced. -/
def setProfState (n : Nat) (x : ProfState) (s : State) : State :=
  { s with flp := { s.flp with profState := mset (fun _ => ProfState.run) s.flp.profState n x } }

/-- The rest of a lookup once the exact table has answered (R105, R108, R127). An uncorrectable bucket read takes the default result.
A default result that cannot be read puts its profile in ERROR, and the frame is dropped. -/
def finishLookup (fp : Nat) (f : Frame) (profile : Nat) (ternKey : Bytes) (exact : Option Nat) (ecc : LookupEcc) (s0 : State) :
    Option Frame × State :=
  let s := hbmBlockRead ecc.bucket s0
  let lost := ecc.bucket = .uncorrectable
  let s1 := if lost then evFlp 0 (incr (cFLP_FLOW_ECC fp) s) else s
  let r := if lost then .default profile else chooseResult s1 profile ternKey exact
  match r with
  | .default p =>
    let s2 := incr (cFLP_TABLE_MISS fp) s1
    if ecc.dflt = .uncorrectable then (none, incr (cFLP_DROP_ACTION fp) (evFlp 2 (setProfState p .error s2)))
    else ingressStage fp f r ecc s2
  | .exact _ => ingressStage fp f r ecc s1
  | .ternary _ => ingressStage fp f r ecc s1

/-- A pass that stands at its lookup: what it answers, or that it waits for a cache-miss read (R97). -/
inductive LookupOutcome where
  | gone (s : State)
  | waits (s : State)
  | goesOn (f : Frame) (s : State)

/-- Frames of a pipeline that wait for a read. -/
def waitingAt (s : State) (fp : Nat) : List MissWait := mget (fun _ => []) s.flp.waiting fp

/-- The state with the waiting frames of a pipeline replaced. -/
def setWaiting (fp : Nat) (ws : List MissWait) (s : State) : State :=
  { s with flp := { s.flp with waiting := mset (fun _ => []) s.flp.waiting fp ws } }

/-- Whether an earlier frame of the same input and key waits (R97). -/
def sameFlow (f : Frame) (key : Bytes) (w : MissWait) : Bool := w.frame.srcSp = f.srcSp && w.key = key

/-- The lookup of a frame (R97–R108, R124): parse, profile state, keys, exact lookup through the cache. -/
def lookupFrame (fp : Nat) (dir : Bool) (f : Frame) (ecc : LookupEcc) (s0 : State) : LookupOutcome :=
  let r := parseFrame s0 f dir
  let s1 := if r.err then incr (cFLP_PARSE_ERR fp) s0 else s0
  let s2 := if r.trunc then incr (cFLP_PARSE_TRUNC fp) s1 else s1
  let s := if f.recirc then incr (cFLP_RECIRC fp) s2 else s2
  match profState s r.profile with
  | .quiesce => .gone (incr (cFLP_DROP_STOP fp) s)
  | .stopped => .gone (incr (cFLP_DROP_STOP fp) s)
  | .error => .gone (incr (cFLP_DROP_ACTION fp) s)
  | .run =>
    let key := exactKey s f dir r
    let tk := ternaryKey s f dir r
    let hit := if usesExact s r.profile then lookupExact s key else none
    let cached := match hit with | some i => inCache s i | none => false
    if usesExact s r.profile && (!cached || (waitingAt s fp).any (sameFlow f key)) then
      let w : MissWait := { frame := f, key := key, ternKey := tk, profile := r.profile, layers := r.layers }
      .waits (setWaiting fp (waitingAt s fp ++ [w]) (incr (cFLP_CACHE_MISS fp) s))
    else
      let s3 := if cached then incr (cFLP_CACHE_HIT fp) s else s
      match finishLookup fp f r.profile tk hit ecc s3 with
      | (some g, s4) => .goesOn g s4
      | (none, s4) => .gone s4

/-- Room in the hand-over queue of an egress pipeline: 2 MiB (R148). -/
def handoverRoom (s : State) (fp len : Nat) : Bool :=
  decide (((mget (fun _ => []) s.cph.handover fp).map (fun w => w.frame.bytes.length)).sum + len ≤ 2097152)

/-- Whether a pass is an LS pass: class 7, or a slot with LS = 1 (the text above R152). -/
def isLsPass (s : State) (cls slot : Nat) : Bool :=
  cls = 7 || (match mfind s.cph.slots slot with | some k => k.ls | none => false)

/-- An LS pass joins the LS dispatch queue, or is dropped when its 1 MiB is full (R152). -/
def toLsDispatch (w : CipherWork) (s : State) : State :=
  if ((s.cph.lsDispatch.map (fun x => x.frame.bytes.length)).sum + w.frame.bytes.length ≤ 1048576) then
    { s with cph := { s.cph with lsDispatch := s.cph.lsDispatch ++ [w] } }
  else evCph 8 (incr cCPH_LS_QUEUE_DROP s)

/-- An encrypt pass is handed over by an egress pipeline (R115, R148). -/
def toHandover (fp : Nat) (w : CipherWork) (s : State) : State :=
  if isLsPass s w.frame.cls (tunSlot w.desc) then toLsDispatch w s
  else { s with cph := { s.cph with handover := mset (fun _ => []) s.cph.handover fp (mget (fun _ => []) s.cph.handover fp ++ [w]) } }

/-- Cells of a frame (R72). -/
def cellsOf (f : Frame) : Nat := ceilDiv f.bytes.length 256

/-- Key of an egress queue. -/
def egressKey (o c v : Nat) : Nat := 65536 * (16 * o + c) + v

/-- Cells held behind an output for a class, changed by adding and taking away. -/
def moveEgressCells (o c add sub : Nat) (s : State) : State :=
  let k := 16 * o + c
  { s with swc := { s.swc with egressCells := mset (fun _ => 0) s.swc.egressCells k (mget (fun _ => 0) s.swc.egressCells k + add - sub) } }

/-- Cells of the LS queue of an output in use, changed likewise. -/
def moveLsCells (o add sub : Nat) (s : State) : State :=
  { s with swc := { s.swc with lsCells := mset (fun _ => 0) s.swc.lsCells o (mget (fun _ => 0) s.swc.lsCells o + add - sub) } }

/-- A frame behind its egress pass joins the queue it leaves from: the LS queue of the output, or the egress queue of its class and
instance. Its cells are counted there. An LS frame that has come to find no room in the LS queue, after an encrypt pass or an encapsulation,
is dropped (R86); so is a frame for a port that the mode has ceased to use (R17). -/
def enqueueOut (o : Nat) (f : Frame) (s : State) : State :=
  if !outputUsed s o then incr (cSWC_DROP_OTHER (switchInput f)) s
  else if f.cls = 7 && decide (8192 < mget (fun _ => 0) s.swc.lsCells o + cellsOf f) then evSwc 0 (incr (cSWC_LS_DROP o) s)
  else if f.cls = 7 then
    let s1 := moveLsCells o (cellsOf f) 0 s
    { s1 with swc := { s1.swc with lsQueue := mset (fun _ => []) s1.swc.lsQueue o (mget (fun _ => []) s1.swc.lsQueue o ++ [f]) } }
  else
    let k := egressKey o f.cls f.inst
    let s1 := moveEgressCells o f.cls (cellsOf f) 0 s
    { s1 with swc := { s1.swc with egress := mset (fun _ => []) s1.swc.egress k (mget (fun _ => []) s1.swc.egress k ++ [f]) } }

/-- Whether a frame of `bytes` bytes exceeds the MTU of an Ethernet port (R306). -/
def overMtu (s : State) (port bytes : Nat) (tagged : Bool) : Bool :=
  decide (regFld s (rETH_MTU port) 0 14 + (if tagged then 22 else 18) < bytes + 4)

/-- What the egress stage has made of a copy so far. -/
structure EgressStage where
  bytes : Bytes
  dropped : Option Nat
deriving DecidableEq, Repr

/-- One stage E action (R110); ENCAP comes after all others (R111), copies are taken apart. -/
def egressAction (l2 : Map Bytes) (fp : Nat) (g : EgressStage) (a : Action) : EgressStage :=
  if g.dropped.isSome then g
  else
    match a with
    | .drop _ => { g with dropped := some (cFLP_DROP_ACTION fp) }
    | .pushVlan tci => { g with bytes := pushVlan g.bytes tci }
    | .popVlan => { g with bytes := popVlan g.bytes }
    | .setVid v => { g with bytes := setVid g.bytes v }
    | .setDscp d => { g with bytes := setDscp g.bytes d }
    | .decTtl =>
      match decTtl g.bytes with
      | some b => { g with bytes := b }
      | none => { g with dropped := some (cFLP_DROP_TTL fp) }
    | .setL2 n => { g with bytes := setL2 g.bytes ((mfind l2 n).getD (List.replicate 12 0)) }
    | .fwdPort _ _ => g
    | .fwdVf _ _ => g
    | .mcast _ => g
    | .toSvc _ => g
    | .setClass _ => g
    | .decap _ => g
    | .encap _ => g
    | .mirror => g
    | .sample _ => g
    | .dropMirror => g
    | .recordStream _ => g

/-- How one copy leaves the egress stage. -/
inductive EgressOutcome where
  | dropped (ctr : Nat)
  | frame (f : Frame)
  | cipher (f : Frame) (desc : Bytes)
deriving DecidableEq, Repr

/-- The egress stage of one copy towards output `o` (R110–R116): the actions in order, then ENCAP, then the MTU of an Ethernet port.
`own` is false when another device owns the output. An ESP tunnel around a frame without an IP packet is dropped. -/
def egressStage (s : State) (fp : Nat) (o : Option Nat) (f : Frame) : EgressOutcome :=
  let g := (resActions f.record).foldl (egressAction f.l2 fp) { bytes := f.bytes, dropped := none }
  match g.dropped with
  | some c => .dropped c
  | none =>
    let f1 := { f with bytes := g.bytes }
    let tooLong := fun (bytes : Nat) (tag : Bool) => match o with | some sp => decide (sp < 16) && overMtu s sp bytes tag | none => false
    match f.encap with
    | none => if tooLong g.bytes.length (hasVlan g.bytes) then .dropped (cFLP_DROP_MTU fp) else .frame f1
    | some d =>
      let len := g.bytes.length + encapGrowth d g.bytes
      if tunType d = 0 then .dropped (cFLP_DROP_DECAP fp)
      else if (tunType d = 3 || tunType d = 4 || tunType d = 6) && ipVersion g.bytes = 0 then .dropped (cFLP_DROP_DECAP fp)
      else if tooLong len (if tunType d ≤ 3 then tunFlag d 4 else hasVlan g.bytes && tunType d ≠ 5) then .dropped (cFLP_DROP_MTU fp)
      else if tunCiphers d then .cipher { f1 with encap := none, sync := isOneStep g.bytes } d
      else .frame { f1 with bytes := encapUdp s d f.hash g.bytes, encap := none }

/-- The active list of a group with the descriptors that its members name (R117). -/
def activeMembers (s : State) (g : Nat) : List (DWord × Bytes) :=
  (((mfind s.flp.groups g).map Group.active).getD []).map (fun m => (m, if memTunEn m then tunnelAt s (memTunnel m) else []))

/-- The members of a list behind an output of this device, with the copies of a frame that they call for (R117, R119). -/
def memberCopies (s : State) (ms : List (DWord × Bytes)) (o : Nat) (f : Frame) : List Frame :=
  (ms.filter (fun m => memSp m.1 = o && isOwnCid s (memCid m.1))).map (fun m =>
    { f with inst := (if o = 20 || o = 21 then memInst m.1 else f.inst),
             qsel := (if o = 20 || o = 21 then queueSelect s (memInst m.1) (memQsel m.1) f.hash else f.qsel),
             dest := .unicast o s.ident.cid, encap := if memTunEn m.1 then some m.2 else f.encap })

/-- A multicast frame is admitted with a port set: its copies will come from one list (R118). A Gondola port makes no copies. -/
def openCopies (g ports : Nat) (f : Frame) (s : State) : Frame × State :=
  let n := s.swc.nextArr
  let left := ports - (ports &&& 0xF0000)
  let l : McList := { group := g, members := none, left := left }
  ({ f with mcId := some n },
    { s with swc := { s.swc with nextArr := n + 1 }, flp := { s.flp with mcLists := if left = 0 then s.flp.mcLists else minsert s.flp.mcLists n l } })

/-- The copies of a multicast frame behind output `o` are made, or lost: the list goes once none are left to make. -/
def closeCopies (o : Nat) (f : Frame) (s : State) : State :=
  match f.mcId with
  | none => s
  | some n =>
    match mfind s.flp.mcLists n with
    | none => s
    | some l =>
      let left := l.left - (l.left &&& 2 ^ o)
      { s with flp := { s.flp with mcLists := if left = 0 then merase s.flp.mcLists n else minsert s.flp.mcLists n { l with left := left } } }

/-- The list that a multicast frame uses, read when its first copies are made (R118). -/
def frameMembers (s : State) (g : Nat) (f : Frame) : List (DWord × Bytes) :=
  ((f.mcId.bind (fun n => mfind s.flp.mcLists n)).bind McList.members).getD (activeMembers s g)

/-- That list is kept for the frame's other outputs. -/
def keepMembers (ms : List (DWord × Bytes)) (f : Frame) (s : State) : State :=
  match f.mcId with
  | none => s
  | some n =>
    match mfind s.flp.mcLists n with
    | none => s
    | some l => { s with flp := { s.flp with mcLists := minsert s.flp.mcLists n { l with members := some ms } } }

/-- One copy goes through the egress stage and on (R115, R20). A drop there makes a Tephra copy when the record has DROP_MIRROR (R110). -/
def egressCopy (fp o : Nat) (f : Frame) (s : State) : State :=
  let s1 := if (resActions f.record).contains .mirror then toSwitch (tephraCopy s 2 f f.bytes) s else s
  match egressStage s1 fp (some o) f with
  | .dropped c => dropFrame c f f.bytes s1
  | .frame g => enqueueOut o g s1
  | .cipher g d => toHandover fp { frame := g, desc := d, enc := true, next := .egress o } s1

/-- No member of a group is behind a set bit of its port set (R119). -/
def emptyOutput (fp : Nat) (s : State) : State := evFlp 4 (incr (cFLP_MC_EMPTY fp) s)

/-- The pass of a frame behind output `o`: its copies, or MC_EMPTY when its group has no member there (R119). -/
def egressFrame (fp o : Nat) (f : Frame) (s : State) : State :=
  match f.dest with
  | .group g _ =>
    let ms := frameMembers s g f
    let s1 := closeCopies o f (keepMembers ms f s)
    match memberCopies s ms o f with
    | [] => emptyOutput fp s1
    | cs => incr (cFLP_FRAMES fp) (forEach (egressCopy fp o) cs s1)
  | .unicast _ _ => incr (cFLP_FRAMES fp) (egressCopy fp o f s)
  | .none => s

/-- One copy of a host-transmitted frame takes the egress stage before the switch (R20). -/
def hostCopy (fp : Nat) (o : Nat) (f : Frame) (s : State) : State :=
  let s1 := if (resActions f.record).contains .mirror then toSwitch (tephraCopy s 2 f f.bytes) s else s
  match egressStage s1 fp (some o) f with
  | .dropped c => dropFrame c f f.bytes s1
  | .frame g => toSwitch g s1
  | .cipher g d => toHandover fp { frame := g, desc := d, enc := true, next := .toSwitch (switchInput g) } s1

/-- The copies of a host-transmitted multicast frame for the outputs of this device: made in its one pass, for each set bit of the port set
(R20, R119; DEDUCED, log entry 68). -/
def hostCopies (fp ports : Nat) (ms : List (DWord × Bytes)) (f : Frame) (s : State) : State :=
  forEach (fun o s =>
    match memberCopies s ms o f with
    | [] => emptyOutput fp s
    | cs => forEach (hostCopy fp o) cs s) ((List.range 26).filter (fun o => nbit ports o && outputUsed s o && !(16 ≤ o && o < 20))) s

/-- The egress part of a host-transmitted frame's one pass (R20), before the switch. A frame for a port of another device takes its egress
pass there (DEDUCED, log entry 68): the entry device runs only stage I. -/
def hostEgress (fp : Nat) (f : Frame) (s : State) : State :=
  if f.decap.isSome then incr (cFLP_FRAMES fp) (toSwitch f s)
  else
    match f.dest with
    | .none => s
    | .unicast sp cid => incr (cFLP_FRAMES fp) (if isOwnCid s cid then hostCopy fp sp f s else toSwitch f s)
    | .group g _ =>
      let ports := mget (fun _ => 0) s.swc.portSets g
      let s1 := hostCopies fp ports (activeMembers s g) f s
      incr (cFLP_FRAMES fp) (if ports = 0 || ports &&& 0xF0000 ≠ 0 then toSwitch f s1 else s1)

/-- A frame whose lookup is done goes on: a host-transmitted one through the egress stage, any other to the switch core. -/
def afterLookup (fp : Nat) (f : Frame) (s : State) : State :=
  if f.host then hostEgress fp f s else incr (cFLP_FRAMES fp) (toSwitch f s)

/-- INGRESS_LOOKUP (R97, R108): the oldest frame at a pipeline takes its pass. While 2,048 frames wait for reads the pipeline takes
none (R97). -/
def execIngressLookup (fp : Nat) (ecc : LookupEcc) (s : State) : Result :=
  match mget (fun _ => []) s.flp.ingress fp with
  | [] => .next s
  | f :: rest =>
    if 2048 ≤ (waitingAt s fp).length then .next s
    else
      let s1 := { s with flp := { s.flp with ingress := mset (fun _ => []) s.flp.ingress fp rest } }
      match lookupFrame fp f.host f ecc s1 with
      | .gone s2 => .next s2
      | .waits s2 => .next s2
      | .goesOn g s2 => .next (afterLookup fp g s2)

/-- The first of the waiting frames with the input and key of the `n`-th, and the others (R97). -/
def takeWaiting (ws : List MissWait) (n : Nat) : Option (MissWait × List MissWait) :=
  match ws[n]? with
  | none => none
  | some w =>
    match ws.findIdx? (sameFlow w.frame w.key) with
    | some k => (ws[k]?).map (fun x => (x, ws.eraseIdx k))
    | none => none

/-- CACHE_MISS_RETURN (R97): a read returns and a waiting frame completes its lookup; frames of one input with one key keep their
order. -/
def execCacheMissReturn (fp n : Nat) (ecc : LookupEcc) (s : State) : Result :=
  match takeWaiting (waitingAt s fp) n with
  | none => .next s
  | some (w, rest) =>
    let s1 := setWaiting fp rest s
    match finishLookup fp w.frame w.profile w.ternKey (lookupExact s1 w.key) ecc s1 with
    | (some g, s2) => .next (afterLookup fp g s2)
    | (none, s2) => .next s2

/-- EGRESS_PASS (R111, R119): the oldest frame that waits takes its egress pass. A pipeline whose hand-over queue has no room for the
frame takes none (R148), nor does one with 2,048 frames that wait for reads (R97). -/
def execEgressPass (q : EgressFrom) (ecc : LookupEcc) (s : State) : Result :=
  match q with
  | .output o =>
    match mget (fun _ => []) s.swc.egressIn o with
    | [] => .next s
    | f :: rest =>
      let fp := egressPipe o
      if !handoverRoom s fp f.bytes.length || 2048 ≤ (waitingAt s fp).length then .next s
      else
        let s1 := moveEgressCells o f.cls 0 (cellsOf f) { s with swc := { s.swc with egressIn := mset (fun _ => []) s.swc.egressIn o rest } }
        .next (settlePfc (egressFrame fp o f s1))
  | .outputLs o =>
    match mget (fun _ => []) s.swc.lsIn o with
    | [] => .next s
    | f :: rest =>
      let fp := egressPipe o
      let s1 := moveLsCells o 0 (cellsOf f) { s with swc := { s.swc with lsIn := mset (fun _ => []) s.swc.lsIn o rest } }
      if 2048 ≤ (waitingAt s fp).length then .next s else .next (egressFrame fp o f s1)
  | .host h =>
    match mget (fun _ => []) s.flp.hostTx h with
    | [] => .next s
    | f :: rest =>
      let fp := 2 + h
      if !handoverRoom s fp f.bytes.length || 2048 ≤ (waitingAt s fp).length then .next s
      else
        let s1 := { s with flp := { s.flp with hostTx := mset (fun _ => []) s.flp.hostTx h rest } }
        match lookupFrame fp true f ecc s1 with
        | .gone s2 => .next s2
        | .waits s2 => .next s2
        | .goesOn g s2 => .next (afterLookup fp g s2)

end Sys2Proof.Machine
end

