-- ==== Sys2Proof/Machine/FlowTables.lean ====
section
/-! DEFINITION. The tables of the flow pipelines (R102, R117–R127): writes, INSERT and DELETE, key profile states, aging. -/

namespace Sys2Proof.Machine

/-- Whether the bytes from `n` on are 0: bytes a table does not use are reserved. -/
def restZero (d : Bytes) (n : Nat) : Bool := allZero (d.drop n)

/-- Whether the entry at an index is an LS entry. -/
def isLsEntry (s : State) (i : Nat) : Bool := match validEntry s i with | some e => resLs (slice e 32 32) | none => false

/-- LS exact entries in the table (R98). -/
def lsEntries (s : State) : Nat := (s.flp.exact.filter (fun e => isLsEntry s e.1)).length

/-- Whether a write of an exact entry is refused as protected (R120, R127): it sets LS or class 7, replaces an LS entry, or names a
key that an LS entry holds. -/
def exactProtected (s : State) (crater : Bool) (target : Option Nat) (e : Bytes) : Bool :=
  !crater &&
    (resLs (slice e 32 32) || resClass (slice e 32 32) = 7
      || (match target with | some i => isLsEntry s i | none => false)
      || (match lookupExact s (slice e 0 32) with | some i => isLsEntry s i | none => false))

/-- Whether an index lies in a candidate bucket of a key (R105). -/
def isCandidate (key : Bytes) (i : Nat) : Bool := i / 4 = bucketH1 key || i / 4 = bucketH2 key

/-- Whether an exact entry is no reserved encoding. -/
def exactLegal (d : Bytes) : Bool := resLegal false (slice d 32 32) && byteAt d 1 = 0 && restZero d 64

/-- The state with an exact entry written; an entry that is not valid frees its way. -/
def putExact (i : Nat) (e : Bytes) (s : State) : State :=
  let s1 := { s with flp := { s.flp with exact := minsert s.flp.exact i e } }
  if resValid (slice e 32 32) then (if resLs (slice e 32 32) then pinCache i s1 else s1)
  else dropCache i { s with flp := { s.flp with exact := merase s.flp.exact i } }

/-- Whether an entry would be LS entry 4,097 (R98, R120). -/
def lsFull (s : State) (i : Nat) (e : Bytes) : Bool :=
  resValid (slice e 32 32) && resLs (slice e 32 32) && !isLsEntry s i && decide (4096 ≤ lsEntries s)

/-- INSERT (R123). LS entry 4,097 is refused as a full table is, with code 4 and TABLE_FULL (DESIGN CHOICE, log entry 66: R98 and R120 give
the limit and no answer). -/
def flpInsertEntry (crater : Bool) (d : Bytes) (s : State) : TableReply × State :=
  let e := slice d 0 32 ++ setLastHit (slice d 32 32) (tickNow s)
  let key := slice d 0 32
  if exactProtected s crater none e then (refuse 2, s)
  else if !exactLegal d then (refuse 3, s)
  else
    match lookupExact s key with
    | some i => if lsFull s i e then (refuse 4, evFlp 3 s) else (wrote i, putExact i e s)
    | none =>
      match (waysOf (bucketH1 key) ++ waysOf (bucketH2 key)).find? (fun i => (validEntry s i).isNone) with
      | some i =>
        if lsFull s i e then (refuse 4, evFlp 3 s) else (wrote i, putExact i e s)
      | none => (refuse 4, evFlp 3 s)

/-- DELETE (R123): a key that is absent succeeds with no effect. -/
def flpDeleteEntry (crater : Bool) (d : Bytes) (s : State) : TableReply × State :=
  match lookupExact s (slice d 0 32) with
  | none => (wrote 0, s)
  | some i =>
    if isLsEntry s i && !crater then (refuse 2, s)
    else (wrote i, dropCache i { s with flp := { s.flp with exact := merase s.flp.exact i } })

/-- A multicast group before its first write. -/
def Group.empty : Group := { active := [], activeBlocks := 0, shadow := [] }

/-- Member lists of a group. -/
def getGroup (s : State) (g : Nat) : Group := mget (fun _ => Group.empty) s.flp.groups g

/-- The state with the member lists of a group replaced. -/
def setGroup (g : Nat) (x : Group) (s : State) : State :=
  { s with flp := { s.flp with groups := mset (fun _ => Group.empty) s.flp.groups g x } }

/-- The 32 members of a block. -/
def blockMembers (d : Bytes) : List DWord := (List.range 32).map (fun k => BitVec.ofNat 64 (leAt d (8 * k) 8))

/-- Bytes of a list of members. -/
def memberBytes (ms : List DWord) : Bytes := ms.flatMap (fun m => toLe 8 m.toNat)

/-- A block of the shadow list; one that has not been written holds zeros. -/
def shadowBlock (g : Group) (b : Nat) : List DWord := (mfind g.shadow b).getD (List.replicate 32 0)

/-- A member block write (R118): into the group's shadow list. -/
def writeBlock (crater : Bool) (index : Nat) (d : Bytes) (s : State) : TableReply × State :=
  let gi := index / 32
  let g := getGroup s gi
  let isNew := (mfind g.shadow (index % 32)).isNone
  if gi < 1024 && !crater then (refuse 2, s)
  else if !(blockMembers d).all memLegal then (refuse 3, s)
  else if isNew && s.flp.blocksFree = 0 then (refuse 4, evFlp 3 s)
  else
    let s1 := setGroup gi { g with shadow := minsert g.shadow (index % 32) (blockMembers d) } s
    (wrote index, { s1 with flp := { s1.flp with blocksFree := s1.flp.blocksFree - (if isNew then 1 else 0) } })

/-- A group commit (R118): the shadow list becomes the active list as one change and is copied into a fresh shadow. The blocks of
the replaced list wait for their return. -/
def commitGroup (crater : Bool) (gi : Nat) (d : Bytes) (s : State) : TableReply × State :=
  let g := getGroup s gi
  let count := nbits (leAt d 0 4) 0 11
  let nb := ceilDiv count 32
  let newList := ((List.range nb).flatMap (shadowBlock g)).take count
  let fresh := (List.range nb).map (fun b => (b, shadowBlock g b))
  if gi < 1024 && !crater then (refuse 2, s)
  else if 1024 < count || 2048 ≤ leAt d 0 4 || !restZero d 4 then (refuse 3, s)
  else if s.flp.blocksFree + g.shadow.length < 2 * nb then (refuse 4, evFlp 3 s)
  else
    let s1 := setGroup gi { active := newList, activeBlocks := nb, shadow := fresh } s
    (wrote gi, { s1 with flp := { s1.flp with
      blocksFree := s1.flp.blocksFree + g.shadow.length - 2 * nb, blocksRetired := s1.flp.blocksRetired + g.activeBlocks } })

/-- Number of entries of a table of FLP_IND_ADDR; none for a reserved table. -/
def flpTableSize (table : Nat) : Option Nat :=
  match table with
  | 0 => some 8388608
  | 1 => some 8388608
  | 2 => some 16384
  | 3 => some 16384
  | 4 => some 1048576
  | 5 => some 2097152
  | 6 => some 65536
  | 7 => some 65536
  | 8 => some 256
  | 9 => some 64
  | 10 => some 4128
  | _ => none

/-- Extracts of a key profile as bytes: their number, then layer, offset, length and target of each (record 0x0303). -/
def profileBytes (es : List Extract) : Bytes :=
  toLe 1 es.length ++ es.flatMap (fun e => toLe 1 e.layer ++ toLe 1 e.off ++ toLe 1 e.len ++ toLe 1 (if e.ternary then 1 else 0))

/-- An entry read through FLP_IND. -/
def flpRead (s : State) (table i : Nat) : Bytes :=
  match table with
  | 0 => (mfind s.flp.exact i).getD (List.replicate 64 0)
  | 1 => toLe 8 (mget zero64 s.flp.exactFrames i).toNat ++ toLe 8 (mget zero64 s.flp.exactBytes i).toNat
  | 2 => (mfind s.flp.ternary i).getD (List.replicate 192 0)
  | 3 => toLe 8 (mget zero64 s.flp.ternFrames i).toNat ++ toLe 8 (mget zero64 s.flp.ternBytes i).toNat
  | 4 => tunnelAt s i
  | 5 => memberBytes (shadowBlock (getGroup s (i / 32)) (i % 32))
  | 6 => toLe 4 (getGroup s i).active.length
  | 7 => (mfind s.flp.l2 i).getD (List.replicate 12 0)
  | 8 => nodeAt s i
  | 9 => profileBytes (profileExtracts s i)
  | _ => toLe 8 (mget zero64 s.flp.shedDrops i).toNat

/-- A write by index (R120, R121, R127). DESIGN CHOICE (log entry 66), where R105, R107 and R121 give no answer: a valid exact entry at an
index outside the two candidate buckets of its key, or with a key that another entry holds, is refused with ERR_CODE 3; LAST_HIT of one
that is written is the current tick; LS entry 4,097 is refused with ERR_CODE 4. -/
def flpWrite (crater : Bool) (table i : Nat) (d : Bytes) (s : State) : TableReply × State :=
  match table with
  | 0 =>
    let e := slice d 0 64
    if exactProtected s crater (some i) e then (refuse 2, s)
    else if !exactLegal d || (resValid (slice e 32 32) && (!isCandidate (slice e 0 32) i || (lookupExact s (slice e 0 32)).any (· ≠ i))) then
      (refuse 3, s)
    else if lsFull s i e then (refuse 4, evFlp 3 s)
    else (wrote i, putExact i (slice e 0 32 ++ setLastHit (slice e 32 32) (tickNow s)) s)
  | 2 =>
    let res := slice d 160 32
    if !crater && (i < 1024 || resLs res || resClass res = 7) then (refuse 2, s)
    else if !resLegal true res || !restZero d 192 then (refuse 3, s)
    else (wrote i, { s with flp := { s.flp with ternary := minsert s.flp.ternary i (slice d 0 192) } })
  | 4 =>
    if !crater && (i < 8192 || tunFlag d 2) then (refuse 2, s)
    else if !tunLegal (slice d 0 64) || !restZero d 64 then (refuse 3, s)
    else (wrote i, { s with flp := { s.flp with tunnels := minsert s.flp.tunnels i (slice d 0 64) } })
  | 5 => writeBlock crater i d s
  | 6 => commitGroup crater i d s
  | 7 =>
    if !restZero d 12 then (refuse 3, s)
    else (wrote i, { s with flp := { s.flp with l2 := minsert s.flp.l2 i (slice d 0 12) } })
  | _ => (refuse 2, s)

/-- An operation on a table of FLP, by an indirect register or an admin command (R121, R268). -/
def flpTable (crater : Bool) (op : TableOp) (table index : Nat) (d : Bytes) (s : State) : TableReply × State :=
  match flpTableSize table with
  | none => (refuse 3, s)
  | some n =>
    match op with
    | .read => if n ≤ index then (refuse 1, s) else (readBack index (flpRead s table index), s)
    | .write => if n ≤ index then (refuse 1, s) else flpWrite crater table index d s
    | .insert => if table = 0 then flpInsertEntry crater d s else (refuse 3, s)
    | .delete => if table = 0 then flpDeleteEntry crater d s else (refuse 3, s)

/-- An operation through a view's FLP_IND registers. -/
def flpIndirect (p : Party) (op : TableOp) (s : State) : State :=
  let a := getView s p rFLP_IND_ADDR
  let d := viewBytes s p (rFLP_IND_DATA 0) 64
  let r := flpTable (isCrater p) op (fld a 24 4) (fld a 0 24) d s
  let s1 := showReply p rFLP_IND_CTL (rFLP_IND_DATA 0) 64 op r.1 r.2
  if op = .insert && r.1.code = 0 then setView p rFLP_IND_RESULT (BitVec.ofNat 32 r.1.index) s1 else s1

/-- FLP_IND_READ (R121). -/
def execFlpIndRead (p : Party) (s : State) : Result := .next (flpIndirect p .read s)
/-- FLP_IND_WRITE (R118, R120, R121). -/
def execFlpIndWrite (p : Party) (s : State) : Result := .next (flpIndirect p .write s)
/-- FLP_INSERT (R123). -/
def execFlpInsert (p : Party) (s : State) : Result := .next (flpIndirect p .insert s)
/-- FLP_DELETE (R123). -/
def execFlpDelete (p : Party) (s : State) : Result := .next (flpIndirect p .delete s)

/-- Whether a frame under way uses a member list that has been replaced (R118). -/
def usesReplaced (s : State) : Bool :=
  s.flp.mcLists.any (fun e => match e.2.members with | some ms => decide (ms.map Prod.fst ≠ (getGroup s e.2.group).active) | none => false)

/-- MEMBER_BLOCKS_RETURN (R118): the blocks of replaced lists return once no frame uses one. -/
def execMemberBlocksReturn (s : State) : Result :=
  .next (if usesReplaced s then s else { s with flp := { s.flp with blocksFree := s.flp.blocksFree + s.flp.blocksRetired, blocksRetired := 0 } })

/-- Whether only Crater may stop a profile (R124): profile 0, and those that a protected parse node selects. -/
def profileProtected (s : State) (n : Nat) : Bool := n = 0 || s.flp.nodes.any (fun e => nodeFlag e.2 4 && nodeProfile e.2 = n)

/-- A profile command answers through the requester's FLP_IND_CTL (R124). -/
def profileReply (p : Party) (code : Nat) (s : State) : State := setErr p rFLP_IND_CTL code s

/-- PROFILE of FLP_PROF_CTL is written. -/
def selectProfile (profile : Nat) (s : State) : State := setReg rFLP_PROF_CTL (putFld 0 6 profile) s

/-- QUIESCE of a profile (R124). -/
def quiesceProfile (p : Party) (profile : Nat) (s : State) : State :=
  if profileProtected s profile && !isCrater p then profileReply p 2 s
  else
    match profState s profile with
    | .run => profileReply p 0 (setProfState profile .quiesce s)
    | .quiesce => profileReply p 3 s
    | .stopped => profileReply p 3 s
    | .error => profileReply p 3 s

/-- PROFILE_QUIESCE (R124). -/
def execProfileQuiesce (p : Party) (profile : Nat) (s : State) : Result :=
  .next (quiesceProfile p (profile % 64) (selectProfile profile s))

/-- RUN of a profile (R124): from STOPPED, and from ERROR when its default result has been rewritten. The spec gives no route by which a
running device rewrites one (R102), so the command itself stands for the repair by Crater and is refused to others. -/
def runProfile (p : Party) (profile : Nat) (s : State) : State :=
  match profState s profile with
  | .stopped => profileReply p 0 (setProfState profile .run s)
  | .error => if isCrater p then profileReply p 0 (setProfState profile .run s) else profileReply p 3 s
  | .run => profileReply p 3 s
  | .quiesce => profileReply p 3 s

/-- PROFILE_RUN (R124). -/
def execProfileRun (p : Party) (profile : Nat) (s : State) : Result := .next (runProfile p (profile % 64) (selectProfile profile s))

/-- PROFILE_STOPPED (R124): a quiescing profile stops once no frame is in its lookup. -/
def execProfileStopped (profile : Nat) (s : State) : Result :=
  match profState s profile with
  | .quiesce =>
    if s.flp.waiting.any (fun e => e.2.any (fun w => w.profile = profile)) then .next s
    else .next (setProfState profile .stopped s)
  | .run => .next s
  | .stopped => .next s
  | .error => .next s

/-- Idle time of an entry in ticks (R125). -/
def idleTicks (s : State) (e : Bytes) : Nat := (tickNow s + 2 ^ 32 - resLastHit (slice e 32 32)) % 2 ^ 32

/-- Whether the scan ages an entry (R125): LS entries never age. -/
def agesOut (s : State) (e : Bytes) : Bool :=
  let res := slice e 32 32
  resValid res && !resLs res && resAge res && decide (regFld s rFLP_AGE_CFG 0 20 * 1000 ≤ idleTicks s e)
    && decide (idleTicks s e < 2 ^ 31)

/-- Whether reported entries are kept. -/
def notifyOnly (s : State) : Bool := bit (getReg s rFLP_AGE_CFG) 31

/-- The scan visits one entry (R125): it is reported in the FIFO and removed, or reported and kept with NOTIFY_ONLY. A removal that
finds the FIFO full is counted in AGE_LOST. -/
def ageEntry (i : Nat) (s : State) : State :=
  match mfind s.flp.exact i with
  | none => s
  | some e =>
    if !agesOut s e then s
    else
      let full := decide (4096 ≤ s.flp.ageFifo.length)
      let entry : AgeEntry := { index := i, key4 := BitVec.ofNat 32 (leAt e 0 4) }
      let gone := if notifyOnly s then s else incr cFLP_AGED (dropCache i { s with flp := { s.flp with exact := merase s.flp.exact i } })
      if full && notifyOnly s then s
      else if full then evFlp 1 (incr cFLP_AGE_LOST gone)
      else { gone with flp := { gone.flp with ageFifo := gone.flp.ageFifo ++ [entry] } }

/-- AGING_SCAN_BUCKET (R125, R126): the scan visits its next bucket. In EMERGENCY and HOLDOVER it is deferred (R60, R63). -/
def execAgingScanBucket (s : State) : Result :=
  if (levelAt s .flp).emergent then .next s
  else
    let b := s.flp.ageNext
    let s1 := forEach ageEntry (waysOf b) s
    let last := decide (2 ^ 21 ≤ b + 1)
    .next { s1 with flp := { s1.flp with ageNext := (if last then 0 else b + 1), ageScanning := !last } }

/-- AGE_FIFO_POP (R125, R500): a read of FLP_AGE_FIFO_HI returns the key bytes that the view's read of LO latched, and pops the
FIFO. -/
def execAgeFifoPop (p : Party) (s : State) : Result :=
  let v := mget (fun _ => 0) s.latch (viewKey p rFLP_AGE_FIFO_HI)
  .next (returnValue p rFLP_AGE_FIFO_HI v { s with flp := { s.flp with ageFifo := s.flp.ageFifo.drop 1 } })

end Sys2Proof.Machine
end

