-- ==== Sys2Proof/Machine/Crypto.lean ====
section
/-! DEFINITION. The standard algorithms that the spec names: AES and GCM (R145, R156), SHA-384, HMAC and the counter KDF of the key
store (R405), ECDSA over P-384 (R398, R436). Their tables are computed from their definitions. -/

namespace Sys2Proof.Machine

/-- Doubling in the field of AES. -/
def gfDouble (x : Nat) : Nat := if x < 128 then 2 * x else (2 * x) % 256 ^^^ 0x1B

/-- Product in the field of AES, over the low `n` bits of the second factor. -/
def gfMulBits : Nat → Nat → Nat → Nat
  | 0, _, _ => 0
  | n + 1, x, y => (if y % 2 = 1 then x else 0) ^^^ gfMulBits n (gfDouble x) (y / 2)

/-- Product in the field of AES. -/
def gfMul (x y : Nat) : Nat := gfMulBits 8 x y

/-- The inverse x^254, 0 for 0. -/
def gfInv (x : Nat) : Nat :=
  let x2 := gfMul x x
  let x3 := gfMul x2 x
  let x6 := gfMul x3 x3
  let x12 := gfMul x6 x6
  let x15 := gfMul x12 x3
  let x30 := gfMul x15 x15
  let x60 := gfMul x30 x30
  let x63 := gfMul x60 x3
  let x126 := gfMul x63 x63
  let x127 := gfMul x126 x
  gfMul x127 x127

/-- A byte rotated left. -/
def rotByte (x n : Nat) : Nat := (x * 2 ^ n) % 256 + x * 2 ^ n / 256

/-- The S-box. -/
def sbox (x : Nat) : Nat :=
  let b := gfInv x
  b ^^^ rotByte b 1 ^^^ rotByte b 2 ^^^ rotByte b 3 ^^^ rotByte b 4 ^^^ 0x63

/-- The S-box as a table. -/
def sboxTable : List Nat := (List.range 256).map sbox

/-- A byte through the S-box table. -/
def subByte (t : List Nat) (x : Nat) : Nat := t.getD x 0

/-- Exclusive or of two lists of bytes. -/
def xorList (a b : List Nat) : List Nat := List.zipWith (fun x y => x ^^^ y) a b

/-- The words of the key schedule, newest first: `n` more words with `nk` key words. -/
def keyExpand (t : List Nat) (nk : Nat) : Nat → Nat → Nat → List (List Nat) → List (List Nat)
  | 0, _, _, ws => ws
  | n + 1, i, rc, ws =>
    let prev := ws.getD 0 []
    let old := ws.getD (nk - 1) []
    let rot := (prev.drop 1) ++ (prev.take 1)
    let t1 :=
      if i % nk = 0 then xorList (rot.map (subByte t)) [rc, 0, 0, 0]
      else if nk = 8 && i % 8 = 4 then prev.map (subByte t) else prev
    keyExpand t nk n (i + 1) (if i % nk = 0 then gfDouble rc else rc) (xorList old t1 :: ws)

/-- Groups of four. -/
def fours : Nat → List Nat → List (List Nat)
  | 0, _ => []
  | n + 1, xs => xs.take 4 :: fours n (xs.drop 4)

/-- Round keys of 16 bytes, the first round first. -/
def roundKeys (key : Bytes) : List (List Nat) :=
  let nk := key.length / 4
  let rounds := nk + 6
  let ws := (keyExpand sboxTable nk (4 * (rounds + 1) - nk) nk 1 (fours nk (key.map BitVec.toNat)).reverse).reverse
  (List.range (rounds + 1)).map (fun r => (ws.drop (4 * r)).take 4 |>.flatten)

/-- ShiftRows on a state in column order. -/
def shiftRows (s : List Nat) : List Nat := (List.range 16).map (fun i => s.getD ((i + 4 * (i % 4)) % 16) 0)

/-- MixColumns. -/
def mixColumns (s : List Nat) : List Nat :=
  (List.range 16).map (fun i =>
    let c := 4 * (i / 4)
    let a := fun k => s.getD (c + (i + k) % 4) 0
    gfDouble (a 0) ^^^ gfDouble (a 1) ^^^ a 1 ^^^ a 2 ^^^ a 3)

/-- The rounds that remain; the last one has no MixColumns. -/
def aesRounds (t : List Nat) : List (List Nat) → List Nat → List Nat
  | [], s => s
  | [k], s => xorList (shiftRows (s.map (subByte t))) k
  | k :: ks, s => aesRounds t ks (xorList (mixColumns (shiftRows (s.map (subByte t)))) k)

/-- AES encryption of one block under round keys. -/
def aesWith (t : List Nat) (rks : List (List Nat)) (block : List Nat) : List Nat :=
  match rks with
  | k :: ks => aesRounds t ks (xorList block k)
  | [] => block

/-- A number as 16 big-endian bytes. -/
def block16 (x : Nat) : List Nat := (toBe 16 x).map BitVec.toNat

/-- AES encryption of one block, as a number. -/
def aesBlock (t : List Nat) (rks : List (List Nat)) (x : Nat) : Nat :=
  (aesWith t rks (block16 x)).foldl (fun a b => a * 256 + b) 0

/-- Product in the field of GHASH, over the bits of `x` from the first. -/
def ghashMul : Nat → Nat → Nat → Nat
  | 0, _, _ => 0
  | n + 1, x, v => (if x.testBit n then v else 0) ^^^ ghashMul n x (if v % 2 = 0 then v / 2 else v / 2 ^^^ (0xE1 * 2 ^ 120))

/-- 16-byte blocks of a byte string, the last padded with zeros. -/
def blocks16 : Nat → Bytes → List Nat
  | 0, _ => []
  | n + 1, bs => beNat (slice bs 0 16) :: blocks16 n (bs.drop 16)

/-- All blocks of a byte string. -/
def gcmBlocks (bs : Bytes) : List Nat := blocks16 (ceilDiv bs.length 16) bs

/-- GHASH. -/
def ghash (h : Nat) (xs : List Nat) : Nat := xs.foldl (fun y x => ghashMul 128 (y ^^^ x) h) 0

/-- Counter mode from counter block `c` on. -/
def gctr (t : List Nat) (rks : List (List Nat)) : Nat → Nat → Bytes → Bytes
  | 0, _, _ => []
  | n + 1, c, bs =>
    let ks := toBe 16 (aesBlock t rks c)
    List.zipWith (fun a b => a ^^^ b) (bs.take 16) ks
      ++ gctr t rks n (c / 2 ^ 32 * 2 ^ 32 + (c + 1) % 2 ^ 32) (bs.drop 16)

/-- The tag of GCM over a ciphertext. -/
def gcmTag (t : List Nat) (rks : List (List Nat)) (j0 : Nat) (aad ct : Bytes) : Bytes :=
  let s := ghash (aesBlock t rks 0) (gcmBlocks aad ++ gcmBlocks ct ++ [aad.length * 8 * 2 ^ 64 + ct.length * 8])
  toBe 16 (s ^^^ aesBlock t rks j0)

/-- First counter block of a 96-bit IV. -/
def gcmJ0 (iv : Bytes) : Nat := beNat (slice iv 0 12) * 2 ^ 32 + 1

/-- GCM encryption: ciphertext and 16-byte tag. -/
def gcmSeal (key iv aad pt : Bytes) : Bytes × Bytes :=
  let t := sboxTable
  let rks := roundKeys key
  let ct := gctr t rks (ceilDiv pt.length 16) (gcmJ0 iv + 1) pt
  (ct, gcmTag t rks (gcmJ0 iv) aad ct)

/-- GCM decryption: the plaintext, and the tag that the ciphertext should carry. -/
def gcmOpen (key iv aad ct : Bytes) : Bytes × Bytes :=
  let t := sboxTable
  let rks := roundKeys key
  (gctr t rks (ceilDiv ct.length 16) (gcmJ0 iv + 1) ct, gcmTag t rks (gcmJ0 iv) aad ct)

/-- The GMAC of a byte string. -/
def gmac (key iv data : Bytes) : Bytes := gcmTag sboxTable (roundKeys key) (gcmJ0 iv) data []

/-- Largest r of `n` more bits above `r` with r^k at most `x`. -/
def rootBits (k x : Nat) : Nat → Nat → Nat
  | 0, r => r
  | n + 1, r => rootBits k x n (if (r + 2 ^ n) ^ k ≤ x then r + 2 ^ n else r)

/-- Whether a number below 441 is prime, by trial division with the numbers below 21. -/
def isPrime (n : Nat) : Bool :=
  decide (2 ≤ n) && (List.range 21).all (fun d => decide (d < 2) || decide (n ≤ d) || decide (n % d ≠ 0))

/-- The first 80 primes. -/
def primes80 : List Nat := (List.range 410).filter isPrime

/-- The round constants of SHA-384: the first 64 bits of the fractions of the cube roots of the primes. -/
def shaK : List Nat := primes80.map (fun p => rootBits 3 (p * 2 ^ 192) 68 0 % 2 ^ 64)

/-- The initial value of SHA-384: the fractions of the square roots of the ninth to sixteenth primes. -/
def sha384Init : List Nat := ((primes80.drop 8).take 8).map (fun p => rootBits 2 (p * 2 ^ 128) 70 0 % 2 ^ 64)

/-- A 64-bit word rotated right. -/
def ror64 (x n : Nat) : Nat := x / 2 ^ n + (x % 2 ^ n) * 2 ^ (64 - n)

/-- The message schedule, newest word first. -/
def shaSchedule : Nat → List Nat → List Nat
  | 0, ws => ws
  | n + 1, ws =>
    let x := ws.getD 1 0
    let y := ws.getD 14 0
    let s1 := ror64 x 19 ^^^ ror64 x 61 ^^^ x / 64
    let s0 := ror64 y 1 ^^^ ror64 y 8 ^^^ y / 128
    shaSchedule n ((s1 + ws.getD 6 0 + s0 + ws.getD 15 0) % 2 ^ 64 :: ws)

/-- The working variables of SHA-384. -/
structure ShaVars where
  a : Nat
  b : Nat
  c : Nat
  d : Nat
  e : Nat
  f : Nat
  g : Nat
  h : Nat
deriving DecidableEq, Repr

/-- One round with constant and message word. -/
def shaRound (v : ShaVars) (kw : Nat × Nat) : ShaVars :=
  let s1 := ror64 v.e 14 ^^^ ror64 v.e 18 ^^^ ror64 v.e 41
  let ch := (v.e &&& v.f) ^^^ ((2 ^ 64 - 1 - v.e) &&& v.g)
  let t1 := v.h + s1 + ch + kw.1 + kw.2
  let s0 := ror64 v.a 28 ^^^ ror64 v.a 34 ^^^ ror64 v.a 39
  let maj := (v.a &&& v.b) ^^^ (v.a &&& v.c) ^^^ (v.b &&& v.c)
  { a := (t1 + s0 + maj) % 2 ^ 64, b := v.a, c := v.b, d := v.c, e := (v.d + t1) % 2 ^ 64, f := v.e, g := v.f, h := v.g }

/-- The hash value after one block. -/
def shaBlock (k h : List Nat) (block : Bytes) : List Nat :=
  let w0 := (List.range 16).map (fun i => beAt block (8 * i) 8)
  let ws := (shaSchedule 64 w0.reverse).reverse
  let g := fun i => h.getD i 0
  let v := (k.zip ws).foldl shaRound { a := g 0, b := g 1, c := g 2, d := g 3, e := g 4, f := g 5, g := g 6, h := g 7 }
  List.zipWith (fun x y => (x + y) % 2 ^ 64) h [v.a, v.b, v.c, v.d, v.e, v.f, v.g, v.h]

/-- The hash value after `n` blocks. -/
def shaBlocks (k : List Nat) : Nat → List Nat → Bytes → List Nat
  | 0, h, _ => h
  | n + 1, h, bs => shaBlocks k n (shaBlock k h (bs.take 128)) (bs.drop 128)

/-- SHA-384. -/
def sha384 (bs : Bytes) : Bytes :=
  let z := (128 - (bs.length + 17) % 128) % 128
  let m := bs ++ [0x80] ++ List.replicate z 0 ++ toBe 16 (8 * bs.length)
  ((shaBlocks shaK (m.length / 128) sha384Init m).map (toBe 8)).flatten.take 48

/-- HMAC-SHA-384. -/
def hmac384 (key data : Bytes) : Bytes :=
  let k0 := slice (if key.length ≤ 128 then key else sha384 key) 0 128
  let pad := fun (c : Byte) => k0.map (fun b => b ^^^ c)
  sha384 (pad 0x5C ++ sha384 (pad 0x36 ++ data))

/-- The prime of P-384. -/
def p384 : Nat := 2 ^ 384 - 2 ^ 128 - 2 ^ 96 + 2 ^ 32 - 1

/-- The order of the base point of P-384. -/
def n384 : Nat := 0xffffffffffffffffffffffffffffffffffffffffffffffffc7634d81f4372ddf581a0db248b0a77aecec196accc52973

/-- The coefficient b of P-384. -/
def b384 : Nat := 0xb3312fa7e23ee7e4988e056be3f82d19181d9c6efe8141120314088f5013875ac656398d8a2ed19d2a85c8edd3ec2aef

/-- The base point of P-384. -/
def gx384 : Nat := 0xaa87ca22be8b05378eb1c71ef320ad746e1d3b628ba79b9859f741e082542a385502f25dbf55296c3a545e3872760ab7
/-- Its second coordinate. -/
def gy384 : Nat := 0x3617de4a96262c6f5d9e98bf9292dc29f8f41dbd289a147ce9da3113b5f0b8c00a60b1ce1d7e819d7a431d7c90ea0e5f

/-- x^e mod m, over the low `n` bits of the exponent. -/
def powMod (m : Nat) : Nat → Nat → Nat → Nat
  | 0, _, _ => 1
  | n + 1, x, e => ((if e % 2 = 1 then x else 1) * powMod m n (x * x % m) (e / 2)) % m

/-- A point in Jacobian coordinates; z = 0 is the point at infinity. -/
structure JPoint where
  x : Nat
  y : Nat
  z : Nat
deriving DecidableEq, Repr

/-- Difference mod p. -/
def subP (a b : Nat) : Nat := (a + (p384 - b % p384)) % p384

/-- A point doubled. -/
def JPoint.double (q : JPoint) : JPoint :=
  let yy := q.y * q.y % p384
  let s := 4 * q.x * yy % p384
  let zz := q.z * q.z % p384
  let m := 3 * (subP q.x zz * ((q.x + zz) % p384) % p384) % p384
  let x := subP (m * m % p384) (2 * s)
  { x := x, y := subP (m * subP s x % p384) (8 * (yy * yy % p384)), z := 2 * q.y * q.z % p384 }

/-- The sum of two points. -/
def JPoint.add (p q : JPoint) : JPoint :=
  if p.z = 0 then q
  else if q.z = 0 then p
  else
    let z1 := p.z * p.z % p384
    let z2 := q.z * q.z % p384
    let u1 := p.x * z2 % p384
    let u2 := q.x * z1 % p384
    let s1 := p.y * q.z * z2 % p384
    let s2 := q.y * p.z * z1 % p384
    if u1 = u2 then (if s1 = s2 then p.double else { x := 1, y := 1, z := 0 })
    else
      let h := subP u2 u1
      let r := subP s2 s1
      let hh := h * h % p384
      let hhh := h * hh % p384
      let v := u1 * hh % p384
      let x := subP (subP (r * r % p384) hhh) (2 * v)
      { x := x, y := subP (r * subP v x % p384) (s1 * hhh % p384), z := h * p.z * q.z % p384 }

/-- `k` times a point, over the low `n` bits of `k`. -/
def JPoint.times : Nat → Nat → JPoint → JPoint
  | 0, _, _ => { x := 1, y := 1, z := 0 }
  | n + 1, k, q => if k % 2 = 1 then q.add (JPoint.times n (k / 2) q.double) else JPoint.times n (k / 2) q.double

/-- Whether (x, y) is a point of the curve. -/
def onP384 (x y : Nat) : Bool :=
  decide (x < p384) && decide (y < p384) && (y * y % p384 = (x * x % p384 * x + (p384 - 3) * x + b384) % p384)

/-- ECDSA over P-384 with SHA-384: a public key of 96 bytes (x ‖ y), a signature of 96 bytes (r ‖ s). -/
def ecdsaVerify (pub msg sig : Bytes) : Bool :=
  let x := beAt pub 0 48
  let y := beAt pub 48 48
  let r := beAt sig 0 48
  let s := beAt sig 48 48
  if !onP384 x y || r = 0 || s = 0 || n384 ≤ r || n384 ≤ s then false
  else
    let w := powMod n384 384 s (n384 - 2)
    let e := beNat (sha384 msg)
    let q := (JPoint.times 384 (e * w % n384) { x := gx384, y := gy384, z := 1 }).add
      (JPoint.times 384 (r * w % n384) { x := x, y := y, z := 1 })
    if q.z = 0 then false
    else (q.x * powMod p384 384 (q.z * q.z % p384) (p384 - 2)) % p384 % n384 = r

end Sys2Proof.Machine
end

