-- ==== Sys2Proof/Machine/Engines.lean ====
section
/-! DEFINITION. Which cipher engines can take a pass (R146, R148, R152), and the slots of the key cache (R164). -/

namespace Sys2Proof.Machine

/-- Engines that are clocked, from CE0 on: 256 in P0, 128 in P1, 32 in P2, none in P3, 16 in Refuge mode (R460). -/
def enginesPowered (s : State) : Nat :=
  if s.pcr.refuge then 16
  else match powerSchedule s with
    | .p0 => 256
    | .p1 => 128
    | .p2 => 32
    | .p3 => 0

/-- Whether an engine is clocked. -/
def enginePowered (s : State) (e : Nat) : Bool := decide (e < enginesPowered s)

/-- Whether an engine has regained power and its known-answer test has not ended (R154). -/
def engineUntested (s : State) (e : Nat) : Bool := s.cph.untested.getLsbD e

/-- Engines without power will have to be tested again (R154, R462). -/
def loseTests (s : State) : State :=
  { s with cph := { s.cph with untested := s.cph.untested ||| (BitVec.allOnes 256 <<< enginesPowered s) } }

/-- Whether an engine is fenced (R154). -/
def engineFenced (s : State) (e : Nat) : Bool := mget (fun _ => false) s.cph.fenced e

/-- Whether an engine can be dispatched: powered, tested and not fenced (R154). -/
def engineUp (s : State) (e : Nat) : Bool := enginePowered s e && !engineUntested s e && !engineFenced s e

/-- AES clocks of a pass on `len` payload bytes (R146). -/
def passClocks (key256 : Bool) (len : Nat) : Nat := (ceilDiv len 16 + 1) * (if key256 then 15 else 11)

/-- Clocks of queued work on an engine (R148). -/
def engineWork (s : State) (e : Nat) : Nat :=
  ((s.cph.passes.filter (fun p => p.2.state = .queued e || p.2.state = .running e || p.2.state = .suspended e)).map
    (fun p => passClocks (p.2.key.length = 32) p.2.payload)).sum

/-- Passes queued on an engine. -/
def engineQueued (s : State) (e : Nat) : Nat := (s.cph.passes.filter (fun p => p.2.state = .queued e)).length

/-- Hold-buffer bytes of an engine in use (R151): taken when a pass starts, freed when its result leaves the engine. -/
def holdUsed (s : State) (e : Nat) : Nat :=
  ((s.cph.passes.filter (fun p => p.2.state = .running e || p.2.state = .suspended e || p.2.state = .held e)).map
    (fun p => p.2.frame.bytes.length)).sum

/-- Whether CE0–CE15 take LS passes only (R152, R60). -/
def lsEnginesOnly (s : State) : Bool := (levelAt s .cph).active

/-- Whether an engine is eligible for a non-LS pass of a frame of `len` bytes (R148, R152). -/
def engineEligible (s : State) (len e : Nat) : Bool :=
  engineUp s e && decide (engineQueued s e < 4) && decide (holdUsed s e + len ≤ 16384)
    && (decide (16 ≤ e) || (!lsEnginesOnly s && decide (len ≤ 7168)))

/-- The eligible engine with the fewest clocks of queued work, the lowest number breaking a tie (R148). -/
def bestEngine (s : State) (len : Nat) : Option Nat :=
  (List.range 256).foldl (fun b e =>
    if !engineEligible s len e then b
    else match b with
      | none => some e
      | some x => if engineWork s e < engineWork s x then some e else some x) none

/-- Whether an engine runs a pass. -/
def engineRuns (s : State) (e : Nat) : Bool := s.cph.passes.any (fun p => p.2.state = .running e)

/-- Whether an engine runs an LS pass. -/
def engineRunsLs (s : State) (e : Nat) : Bool := s.cph.passes.any (fun p => p.2.state = .running e && p.2.ls)

/-- CE0–CE15 that can be dispatched. -/
def lsEngines (s : State) : List Nat := (List.range 16).filter (engineUp s)

/-- The engine that takes an LS pass now (R152): an idle one first, else one that runs a non-LS pass. Its hold buffer has the room. -/
def lsEngine (s : State) (len : Nat) : Option Nat :=
  let ok := (lsEngines s).filter (fun e => decide (holdUsed s e + len ≤ 16384))
  match ok.find? (fun e => !engineRuns s e) with
  | some e => some e
  | none => ok.find? (fun e => !engineRunsLs s e)

/-- Whether none of CE0–CE15 is left for LS passes (R154). -/
def lsEnginesFenced (s : State) : Bool := (List.range 16).all (engineFenced s)

end Sys2Proof.Machine
end

