-- ==== Sys2Proof/Machine/KeySlots.lean ====
section
/-! DEFINITION. Key slots (R155–R167): numbers and IVs, replay windows, usage limits, the key cache, and the passes of jobs. -/

namespace Sys2Proof.Machine

/-- A key slot that holds a key. -/
def getSlot (s : State) (n : Nat) : Option KeySlot := mfind s.cph.slots n

/-- The state with a key slot replaced. -/
def setSlot (n : Nat) (k : KeySlot) (s : State) : State := { s with cph := { s.cph with slots := minsert s.cph.slots n k } }

/-- An entry of CPH_NEAR_FIFO, lost when the FIFO holds 1,024 (R166, R172). -/
def pushNear (n : Nat) (limit : Bool) (s : State) : State :=
  if 1024 ≤ s.cph.nearFifo.length then evCph 6 s
  else { s with cph := { s.cph with nearFifo := s.cph.nearFifo ++ [{ slot := n, limit := limit }] } }

/-- Invocations at which a slot is given NEAR (R166). -/
def nearCount (k : KeySlot) : Nat := 15 * 2 ^ (k.limitLog2 - 4)

/-- A slot reaches NEAR (R166). -/
def becomeNear (n : Nat) (s : State) : State :=
  match getSlot s n with
  | some k => evCph 0 (pushNear n false (setSlot n { k with near := true } s))
  | none => s

/-- A slot is stopped (R157, R166). -/
def becomeStopped (n : Nat) (s : State) : State :=
  match getSlot s n with
  | some k => evCph 1 (pushNear n true (setSlot n { k with stopped := true } s))
  | none => s

/-- The thresholds of R166, for the number of invocations that a slot has made. -/
def judgeThresholds (n made : Nat) (s : State) : State :=
  match getSlot s n with
  | none => s
  | some k =>
    let s1 := if !k.near && decide (nearCount k ≤ made) then becomeNear n s else s
    if !k.stopped && decide (2 ^ k.limitLog2 ≤ made) then becomeStopped n s1 else s1

/-- Invocations made, as the saturating count of a slot and its high-water mark tell them at recovery (R166, R167). -/
def KeySlot.made (k : KeySlot) : Nat := if k.invocations = 2 ^ 48 - 1 then max k.invocations k.high else k.invocations

/-- A slot whose count comes near its high-water mark issues CKPT (R167). -/
def requestCkpt (n : Nat) (s : State) : State :=
  match getSlot s n with
  | some k => if !k.ckpt && decide (k.high ≤ k.invocations + 2 ^ 23) then setSlot n { k with ckpt := true } s else s
  | none => s

/-- One invocation is made (R166): INVOCATIONS saturates. The thresholds are judged for the invocations made. -/
def countInvocation (n : Nat) (s : State) : State :=
  match getSlot s n with
  | none => s
  | some k =>
    requestCkpt n (judgeThresholds n (k.invocations + 1)
      (setSlot n { k with invocations := min (k.invocations + 1) (2 ^ 48 - 1), passes := k.passes + 1 } s))

/-- Whether the device chooses the number of a slot's passes: PROTO 1–3 transmit, 5, 6 and 9 (R167). -/
def ownNumbers (k : KeySlot) : Bool := (k.tx && decide (k.proto ≤ 3)) || k.proto = 5 || k.proto = 6 || k.proto = 9

/-- Greatest PN or ESN of a protocol (R157). -/
def maxNumber (proto : Nat) : Nat := if proto = 2 then 2 ^ 32 - 1 else 2 ^ 64 - 1

/-- Whether a transmit slot has no number left (R157). -/
def numberSpent (k : KeySlot) : Bool := k.tx && decide (k.proto ≤ 3) && decide (maxNumber k.proto < k.pn)

/-- Exclusive or of byte strings. -/
def xorBytes (a b : Bytes) : Bytes := List.zipWith (fun x y => x ^^^ y) a b

/-- The IV of a pass (R156): `num` is the PN, ESN, SRTP index or invocation number, `ext` the SCI of MACsec or the IV field of ESP. -/
def passIv (proto : Nat) (salt : Bytes) (param : Word) (num : Nat) (ext : Bytes) : Bytes :=
  match proto with
  | 1 => xorBytes (toBe 4 param.toNat ++ toBe 8 num) (slice salt 0 12)
  | 2 => slice ext 0 8 ++ toBe 4 num
  | 3 => slice salt 0 4 ++ slice ext 0 8
  | 4 => xorBytes (toBe 2 0 ++ toBe 4 param.toNat ++ toBe 6 num) (slice salt 0 12)
  | _ => xorBytes (slice salt 0 12) (toBe 6 0 ++ toBe 6 num)

/-- Whether a number lies below the receive window (R158): it is dropped at dispatch. The window ends at PN, which an install loads from
START_PN (R160, R162). -/
def belowWindow (k : KeySlot) (num : Nat) : Bool := decide (num + k.replayWin ≤ k.pn)

/-- Whether a number is marked in the window. -/
def isMarked (k : KeySlot) (num : Nat) : Bool := decide (num ≤ k.pn) && nbit k.seen (k.pn - num)

/-- The slot with a number marked: the window advances to it (R158). -/
def markNumber (k : KeySlot) (num : Nat) : KeySlot :=
  if k.pn < num then { k with anySeen := true, pn := num, seen := (k.seen <<< (num - k.pn) ||| 1) % 2 ^ max 1 k.replayWin }
  else { k with anySeen := true, seen := k.seen ||| 2 ^ (k.pn - num) }

/-- The extended sequence number of an ESP packet from its low half (R155, RFC 4303). -/
def espNumber (k : KeySlot) (lo : Nat) : Nat :=
  let tl := k.pn % 2 ^ 32
  let th := k.pn / 2 ^ 32
  let w := k.replayWin
  if w ≤ tl + 1 then (if tl + 1 ≤ lo + w then th else th + 1) * 2 ^ 32 + lo
  else if tl + 1 + 2 ^ 32 ≤ lo + w then (th - 1) * 2 ^ 32 + lo
  else th * 2 ^ 32 + lo

/-- The packet number of a MACsec XPN frame from its low half. -/
def xpnNumber (k : KeySlot) (lo : Nat) : Nat :=
  let next := k.pn + (if k.anySeen then 1 else 0)
  let hi := next / 2 ^ 32
  if nbit next 31 && !nbit lo 31 then (hi + 1) * 2 ^ 32 + lo else hi * 2 ^ 32 + lo

/-- The index of an SRTP packet from its SEQ (R158, RFC 3711 section 3.3.1). -/
def srtpNumber (k : KeySlot) (seq : Nat) : Nat :=
  let roc := k.pn / 65536
  let sl := k.pn % 65536
  if sl < 32768 then (if sl + 32768 < seq then (roc - 1) * 65536 + seq else roc * 65536 + seq)
  else if seq + 32768 < sl then (roc + 1) * 65536 + seq
  else roc * 65536 + seq

/-- ROC ‖ SEQ of an SRTP packet that is sent (R157). -/
def srtpNext (k : KeySlot) (seq : Nat) : Nat :=
  let roc := k.pn / 65536
  (if seq = 0 && k.pn % 65536 = 65535 then roc + 1 else roc) * 65536 + seq

/-- Whether a slot is in the key cache: pinned and not lost, or among the others that are cached (R164, R172). -/
def slotCached (s : State) (n : Nat) (k : KeySlot) : Bool := (k.pinned && !s.cph.lostEntries.contains n) || s.cph.cached.contains n

/-- Slots that the cache holds pinned. -/
def pinnedCount (s : State) : Nat := (s.cph.slots.filter (fun e => e.2.pinned)).length

/-- Old generations that passes bound to them keep in the cache (R164). -/
def oldEntries (s : State) : Nat :=
  let keys := (s.cph.passes.filter (fun p => p.2.bound)).map (fun p => (p.2.slot, p.2.generation))
  (keys.filter (fun g => match getSlot s g.1 with | some k => k.generation ≠ g.2 | none => true)).eraseDups.length

/-- Entries of the cache that slots which are not pinned can use (R164). -/
def cacheRoom (s : State) : Nat := 8192 - pinnedCount s - oldEntries s

/-- A slot is used: it comes first in the cache; the least recently used one leaves (R164, R165). -/
def touchSlot (n : Nat) (s : State) : State :=
  match getSlot s n with
  | none => s
  | some k => if k.pinned then s else { s with cph := { s.cph with cached := (n :: s.cph.cached.filter (· ≠ n)).take (cacheRoom s) } }

/-- The cache entry of a slot is discarded (R172). -/
def discardEntry (n : Nat) (s : State) : State :=
  match getSlot s n with
  | none => s
  | some k =>
    if k.pinned then { s with cph := { s.cph with lostEntries := n :: s.cph.lostEntries.filter (· ≠ n) } }
    else { s with cph := { s.cph with cached := s.cph.cached.filter (· ≠ n) } }

/-- Passes and jobs in the miss queue (R164). -/
def missQueue (s : State) : Nat :=
  (s.cph.passes.filter (fun p => p.2.state = .parked && !p.2.bound &&
    (match getSlot s p.2.slot with | some k => !slotCached s p.2.slot k | none => false))).length + s.cph.jobMisses.length

/-- A slot cannot take a pass before its next high-water mark is committed (R167). -/
def slotStalled (k : KeySlot) : Bool := decide (k.high ≤ k.invocations)

/-- Status codes of R263. -/
inductive Status where
  | ok | flushed | xlateFault | permission | authFail | keyLimit | keyAbsent | poolEmpty | timeout | storageError | peerLost | paused
  | malformed | shed | zeroised | unknownAfterReset
deriving DecidableEq, Repr

/-- Code of a status. -/
def Status.code : Status → Nat
  | .ok => 0
  | .flushed => 1
  | .xlateFault => 2
  | .permission => 3
  | .authFail => 4
  | .keyLimit => 5
  | .keyAbsent => 6
  | .poolEmpty => 7
  | .timeout => 8
  | .storageError => 9
  | .peerLost => 10
  | .paused => 11
  | .malformed => 12
  | .shed => 13
  | .zeroised => 14
  | .unknownAfterReset => 15

/-- Whether a pass on a slot of protocol `proto` is refused at dispatch (R157, R163, R166, R169, R172). -/
def passRefusal (s : State) (slot proto len : Nat) : Option Status :=
  if s.crt.sec = .zeroised then some .zeroised
  else if 9216 < len then some .malformed
  else
    match getSlot s slot with
    | none => some .keyAbsent
    | some k =>
      if k.damaged || k.proto ≠ proto then some .keyAbsent
      else if k.stopped || numberSpent k then some .keyLimit
      else none

/-- A slot drop counted for its slot. -/
def countLimitDrop (slot : Nat) (s : State) : State :=
  match getSlot s slot with
  | some k => setSlot slot { k with limitDrop := k.limitDrop + 1 } s
  | none => s

/-- The counters of a pass that is refused (R166, R169, R172). A slot without numbers left is stopped (R157). -/
def countRefusal (slot : Nat) (st : Status) (s : State) : State :=
  match st with
  | .zeroised => incr cCPH_ZEROISED_DROP s
  | .malformed => incr cCPH_LEN_DROP s
  | .keyAbsent => incr cCPH_KEY_ABSENT_DROP s
  | _ =>
    let s1 := match getSlot s slot with | some k => if k.stopped then s else becomeStopped slot s | none => s
    countLimitDrop slot (incr cCPH_KEY_LIMIT_DROP s1)

/-- Passes and payload bytes of one direction. -/
def countPass (enc : Bool) (payload : Nat) (s : State) : State :=
  if enc then addCtr cCPH_ENC_BYTES payload (incr cCPH_ENC_PASSES s) else addCtr cCPH_DEC_BYTES payload (incr cCPH_DEC_PASSES s)

/-- A tag fails (R151, R172). -/
def countAuthFail (slot : Nat) (s : State) : State :=
  let s1 := evCph 2 (incr cCPH_AUTH_FAIL s)
  match getSlot s1 slot with
  | some k => setSlot slot { k with authFail := k.authFail + 1 } s1
  | none => s1

/-- A replay drop (R158). -/
def countReplay (slot : Nat) (s : State) : State :=
  let s1 := evCph 3 (incr cCPH_REPLAY_DROP s)
  match getSlot s1 slot with
  | some k => setSlot slot { k with replayDrop := k.replayDrop + 1 } s1
  | none => s1

/-- What the pass of a job answers: its bytes, its tag, its invocation number. -/
structure JobPass where
  bytes : Bytes
  tag : Bytes
  inv : Nat
deriving DecidableEq, Repr

/-- Whether the next `n` passes of a job, the longest of `len` bytes, can run now (R148, R152, R164, R167): the key is cached, the
high-water mark lies far enough ahead, and an engine is eligible. A pass that would be refused is not kept waiting. -/
inductive JobGate where
  | go
  | wait
  /-- the key has to be loaded -/
  | miss
deriving DecidableEq, Repr

/-- The gate of a job of `n` passes. -/
def jobGate (s : State) (slot proto n len : Nat) : JobGate :=
  match passRefusal s slot proto len, getSlot s slot with
  | none, some k =>
    if k.ls && lsEnginesFenced s then .go
    else if !slotCached s slot k then .miss
    else if k.high < k.invocations + n then .wait
    else if k.ls then (if s.cph.lsDispatch.isEmpty && (lsEngine s len).isSome then .go else .wait)
    else if (bestEngine s len).isSome then .go else .wait
  | _, _ => .go

/-- A job waits in its own queue; its miss is counted once, when the miss queue takes it (R148, R164). -/
def waitJob (slot : Nat) (g : JobGate) (s : State) : State :=
  if g ≠ .miss || s.cph.jobMisses.contains slot || 512 ≤ missQueue s then s
  else incr cCPH_KEY_MISS { s with cph := { s.cph with jobMisses := s.cph.jobMisses ++ [slot] } }

/-- The outcome of a pass that is not made: refused (R157–R169), or an LS pass with all of CE0–CE15 fenced, which is dropped (R154): the
status of its job is then that of an absent key (DESIGN CHOICE, log entry 62). -/
def refuseJob (slot proto len : Nat) (s : State) : Option (Status × State) :=
  match passRefusal s slot proto len, getSlot s slot with
  | some st, _ => some (st, countRefusal slot st s)
  | none, some k => if k.ls && lsEnginesFenced s then some (.keyAbsent, evCph 8 (incr cCPH_LS_QUEUE_DROP s)) else none
  | none, none => some (.keyAbsent, s)

/-- The key of a slot. -/
def KeySlot.keyBytes (k : KeySlot) : Bytes := slice k.key 0 (if k.key256 then 32 else 16)

/-- A pass of a job has run on a slot: its counts, its place in the cache. The payload of an integrity-only pass is empty (R146). -/
def countJob (slot : Nat) (k : KeySlot) (enc : Bool) (len : Nat) (s : State) : State :=
  let s1 := countPass enc (if k.integrity then 0 else len) (countInvocation slot s)
  if k.ls then incr cCPH_LS_PASSES s1 else touchSlot slot s1

/-- An encrypting pass of a storage, recorder or loop job (PROTO 5, 6, 9: R156, R166, R183, R190, R330). INV counts the invocations
before this one. With INTEGRITY_ONLY the data is authenticated and not encrypted. -/
def sealJob (slot proto : Nat) (aad data : Bytes) (s : State) : Except Status JobPass × State :=
  match refuseJob slot proto data.length s, getSlot s slot with
  | some (st, s1), _ => (.error st, s1)
  | none, none => (.error .keyAbsent, s)
  | none, some k =>
    let iv := passIv proto k.salt k.param k.invocations []
    let r := if k.integrity then (data, gmac k.keyBytes iv (aad ++ data)) else gcmSeal k.keyBytes iv aad data
    (.ok { bytes := r.1, tag := r.2, inv := k.invocations }, countJob slot k true data.length s)

/-- A verifying pass of a job whose INV came with the data. -/
def openJob (slot proto inv : Nat) (aad data tag : Bytes) (s : State) : Except Status Bytes × State :=
  match refuseJob slot proto data.length s, getSlot s slot with
  | some (st, s1), _ => (.error st, s1)
  | none, none => (.error .keyAbsent, s)
  | none, some k =>
    let iv := passIv proto k.salt k.param inv []
    let r := if k.integrity then (data, gmac k.keyBytes iv (aad ++ data)) else gcmOpen k.keyBytes iv aad data
    let s1 := countJob slot k false data.length s
    if r.2 = slice tag 0 16 then (.ok r.1, s1) else (.error .authFail, countAuthFail slot s1)

end Sys2Proof.Machine
end

