-- ==== Sys2Proof/Machine/ErrorLog.lean ====
section
/-! DEFINITION. Configuration registers of the PCI Express functions and the logging of errors in them (R217, R222). The registers follow
the PCI Express base specification, which the spec cites; their offsets are the model's (log entry 4). -/

namespace Sys2Proof.Machine

/-- Number of the configuration register that holds Device Control and Device Status. -/
def cfgDevCtl : Nat := 26

/-- Number of the configuration register that holds Device Control 2. -/
def cfgDevCtl2 : Nat := 34

/-- Number of the configuration register that holds Device Control 3. -/
def cfgDevCtl3 : Nat := 178

/-- AER: Uncorrectable Error Status, and the registers behind it. -/
def cfgUncorrStatus : Nat := 65
/-- AER: Uncorrectable Error Mask. -/
def cfgUncorrMask : Nat := 66
/-- AER: Uncorrectable Error Severity. -/
def cfgUncorrSeverity : Nat := 67
/-- AER: Correctable Error Status. -/
def cfgCorrStatus : Nat := 68
/-- AER: Correctable Error Mask. -/
def cfgCorrMask : Nat := 69

/-- Reset value of the stored bits of a configuration register (PRESUMED, PCI Express base): Relaxed Ordering enabled and reads of
512 bytes, the AER masks and severities of the base specification, No_Soft_Reset (R206). -/
def cfgReset (n : Nat) : Word :=
  if n = cfgDevCtl then 0x2010
  else if n = cfgUncorrMask then 0x00400000
  else if n = cfgUncorrSeverity then 0x00462030
  else if n = cfgCorrMask then 0xE000
  else if n = 17 then 0x8
  else 0

/-- Stored bits of a function's configuration register. -/
def getCfg (s : State) (fn n : Nat) : Word := mget cfgReset (getFn s fn).cfg n

/-- The state with a configuration register replaced. -/
def setCfg (fn n : Nat) (v : Word) (s : State) : State :=
  let f := getFn s fn
  setFn fn { f with cfg := mset cfgReset f.cfg n v } s

/-- The state with bits of a configuration register set. -/
def orCfg (fn n : Nat) (v : Word) (s : State) : State := setCfg fn n (getCfg s fn n ||| v) s

/-- VF MSE of the SR-IOV capability as stored (register 94, bit 3): the one Memory Space Enable of all VFs. -/
def vfMse (s : State) : Bool := bit (getCfg s pf 94) 3

/-- Memory Space Enable of a function. -/
def memEnabled (s : State) (fn : Nat) : Bool := if fn < pf then vfMse s else (getFn s fn).mse

/-- An error message of a function leaves (R222). A downstream port sends its vector with it (R208; DESIGN CHOICE, log entry 70: the spec
gives the vector to AER and no condition). -/
def errMessage (fn severity : Nat) (s : State) : State :=
  let s1 := hostOut (.hostMsg (.err fn severity)) s
  if 8192 ≤ fn then sendMsix fn 0 s1 else s1

/-- AER: Advanced Error Capabilities and Control, with the First Error Pointer in bits 4:0, and the Header Log behind it. -/
def cfgErrControl : Nat := 70

/-- The header of the request that an uncorrectable error came with is logged: the first one since the error that First Error Pointer
names was cleared (R222). What the header holds is a free value, as the commands carry no header. -/
def logHeader (fn n : Nat) (s : State) : State :=
  let first := fld (getCfg s fn cfgErrControl) 0 5
  if bit (getCfg s fn cfgUncorrStatus) first then s
  else
    forEach (fun i s => setCfg fn (71 + i) (Config.loggedHeader fn n s.now i) s) [0, 1, 2, 3]
      (setCfg fn cfgErrControl (setFld (getCfg s fn cfgErrControl) 0 5 n) s)

/-- The function in which link-level errors are logged: the PF, or the upstream port on a head (R222). -/
def linkFunction (s : State) : Nat := if s.ident.role = .head then 8191 else pf

/-- An advisory non-fatal error is logged (R222): its bit of Uncorrectable Error Status, Advisory Non-Fatal in Correctable Error
Status, Correctable Error Detected; a correctable error message when it is unmasked and enabled. -/
def logAdvisory (fn n : Nat) (s : State) : State :=
  let s1 := orCfg fn cfgUncorrStatus (putBit n true) (orCfg fn cfgCorrStatus (putBit 13 true) (logHeader fn n s))
  let s2 := orCfg fn cfgDevCtl (putBit 16 true ||| putBit 19 (decide (n = 20))) s1
  if bit (getCfg s2 fn cfgDevCtl) 0 && !bit (getCfg s2 fn cfgCorrMask) 13 then errMessage fn 0 s2 else s2

/-- A non-fatal error is logged (R222); a message of its severity when it is unmasked and enabled. -/
def logNonFatal (fn n : Nat) (s : State) : State :=
  let fatal := bit (getCfg s fn cfgUncorrSeverity) n
  let s0 := if n = 18 then logHeader fn n s else s
  let s1 := orCfg fn cfgUncorrStatus (putBit n true) (orCfg fn cfgDevCtl (putBit (if fatal then 18 else 17) true) s0)
  if bit (getCfg s1 fn cfgDevCtl) (if fatal then 2 else 1) && !bit (getCfg s1 fn cfgUncorrMask) n
  then errMessage fn (if fatal then 2 else 1) s1 else s1

/-- A correctable error is logged and counted (R222); a message when it is unmasked and enabled. -/
def logCorrectable (fn n : Nat) (s : State) : State :=
  let s1 := orCfg fn cfgCorrStatus (putBit n true) (orCfg fn cfgDevCtl (putBit 16 true) (incr cHEP_CORR_ERR s))
  if bit (getCfg s1 fn cfgDevCtl) 0 && !bit (getCfg s1 fn cfgCorrMask) n then errMessage fn 0 s1 else s1

/-- Unsupported Request, bit 20 of Uncorrectable Error Status. -/
def logUr (fn : Nat) (s : State) : State := logAdvisory fn 20 s

/-- A request that the endpoint completes with UR (R217): counted, and logged in the function named. -/
def refuseRequest (fn : Option Nat) (tag : Option Nat) (s : State) : State :=
  let s1 := match tag with | some t => hostOut (.completion t .unsupported []) (incr cHEP_UR_SENT s) | none => s
  match fn with | some f => logUr f s1 | none => s1

/-- A poisoned TLP is received for a function (R217, R222). -/
def logPoisoned (fn : Nat) (s : State) : State := logAdvisory fn 12 (incr cHEP_POISONED_RX s)

end Sys2Proof.Machine
end

