-- ==== Sys2Proof/Machine/VirtualSwitch.lean ====
section
/-! DEFINITION. The virtual switch of a head and the member table of the DDT (R213, R214, R229–R233). -/

namespace Sys2Proof.Machine

/-- A downstream port whose member is absent. -/
def VswPort.absent : VswPort :=
  { present := false, dllActive := false, powerOff := false, attnInd := 3, pwrInd := 3, attnPressed := false, presenceChanged := false,
    cmdCompleted := false, dllChanged := false, slotCtl := 0x03C0 }

/-- The downstream port of a Cascade ID. -/
def getVsw (s : State) (k : Nat) : VswPort := mget (fun _ => VswPort.absent) s.hep.vsw k

/-- Whether a downstream port sends its hot-plug interrupt for a slot status bit whose enable stands at bit `en` of Slot Control
(PCI Express base: Hot-Plug Interrupt Enable is bit 5). -/
def hotplugEnabled (v : VswPort) (en : Nat) : Bool := v.slotCtl.getLsbD 5 && v.slotCtl.getLsbD en

/-- Whether a Cascade ID is configured in the image: the port of any other reports no presence and forwards nothing (R229). -/
def configured (s : State) (k : Nat) : Bool := decide (k < s.ident.devices)

/-- Presence of the device behind a downstream port; that of the head's own Cascade ID leads to its own functions. -/
def portPresent (s : State) (k : Nat) : Bool := configured s k && (decide (k = s.ident.cid) || (getVsw s k).present)

/-- Data Link Layer Link Active of a downstream port (R231): that of the head's own Cascade ID while its functions accept requests. -/
def portActive (s : State) (k : Nat) : Bool :=
  configured s k && (if k = s.ident.cid then s.hep.cfgReady && !s.cas.fnHeld else (getVsw s k).dllActive)

/-- The state with a downstream port replaced; a slot event whose enable is `en` sends the port's vector (R208). -/
def setVsw (k : Nat) (v : VswPort) (en : List Nat) (s : State) : State :=
  let s1 := { s with hep := { s.hep with vsw := mset (fun _ => VswPort.absent) s.hep.vsw k v } }
  if en.any (hotplugEnabled v) then sendMsix (8192 + k) 0 s1 else s1

/-- A member entry that has never been present. -/
def DdtMember.absent : DdtMember := { state := 0, hops := 0, buses := 0, serial := 0 }

/-- Buses given to a device (R229). -/
def busesPer (s : State) : Nat := 238 / s.ident.devices

/-- A change of a member entry: DDT_GEN grows by 2 (R214). A standalone device has no member table. -/
def setMember (k state hops : Nat) (serial : DWord) (s : State) : State :=
  if s.ident.role = .standalone || !configured s k then s
  else
    let e : DdtMember := { state := state, hops := hops, buses := busesPer s, serial := serial }
    if mget (fun _ => DdtMember.absent) s.hep.members k = e then s
    else { s with hep := { s.hep with members := mset (fun _ => DdtMember.absent) s.hep.members k e, ddtGen := s.hep.ddtGen + 2 } }

/-- A member has become unreachable (R233): its entry is marked lost; a head clears its presence and answers the host requests under
way to it with UR. -/
def memberGone (k : Nat) (s : State) : State :=
  let old := mget (fun _ => DdtMember.absent) s.hep.members k
  let s1 := setMember k 3 old.hops old.serial s
  if s.ident.role ≠ .head then s1
  else
    let v := getVsw s1 k
    let s2 := if v.present then
        setVsw k { v with present := false, dllActive := false, presenceChanged := true, dllChanged := v.dllChanged || v.dllActive } [3, 12] s1
      else s1
    let owed := (s2.cas.hostReqs.filter (fun e => e.2 = k)).map Prod.fst
    let s3 := forEach (fun tag s => logUr (8192 + k) (emit (.completion tag .unsupported []) (incr cHEP_UR_SENT s))) owed s2
    evHep 6 (incr cHEP_MEMBER_LOSSES { s3 with cas := { s3.cas with hostReqs := mfilter (fun _ m => decide (m ≠ k)) s3.cas.hostReqs } })

/-- A member is reachable: joining until it has reached configuration ready, then present (R213, R231, R233). -/
def memberHere (k hops : Nat) (serial : DWord) (ready : Bool) (s : State) : State :=
  let s1 := setMember k (if ready then 2 else 1) hops serial s
  let v := getVsw s1 k
  if s.ident.role ≠ .head || !ready || v.present || !configured s k then s1
  else
    evHep 7 (setVsw k { v with present := true, dllActive := !v.powerOff, presenceChanged := true, dllChanged := v.dllChanged || !v.powerOff } [3, 12] s1)

end Sys2Proof.Machine
end

