-- ==== Sys2Proof/Machine/HostAccess.lean ====
section
/-! DEFINITION. Reads that the device sends to host memory: tags, limits, time-outs and outcomes (R204, R218, R220–R224, R232). -/

namespace Sys2Proof.Machine

/-- Completion timeout of a function, none when it is disabled (R224). -/
def cplTimeout (s : State) (fn : Nat) : Option Nat :=
  let v := getCfg s fn cfgDevCtl2
  if bit v 4 then none
  else some (match fld v 0 4 with | 1 => us 100 | 2 => ms 10 | 5 => ms 55 | 6 => ms 210 | _ => ms 10)

/-- Tags that a function may hold (R204). -/
def tagCap (s : State) (fn : Nat) : Nat :=
  if bit (getCfg s fn cfgDevCtl3) 2 then 16384 else if bit (getCfg s fn cfgDevCtl2) 12 then 768 else 256

/-- Non-posted requests of the whole device: its share of the head's 16,384 in proportion to its buses (R232). -/
def deviceReads (s : State) : Nat := 16384 / max 1 s.ident.devices

/-- Tags that a function cannot use now: also those that are quarantined (R34, R204). -/
def tagsTaken (s : State) (fn : Nat) : Nat := (s.hep.tags.filter (fun e => decide (e.2.fn = fn))).length

/-- A function, its instance or the device has reached a limit of its reads (R204, R232, R239). -/
def readLimit (s : State) (fn : Nat) : Bool :=
  decide (tagCap s fn ≤ tagsTaken s fn) || readsSpent s fn || decide (deviceReads s ≤ s.hep.tags.length)

/-- A host read that stalls: the function issues nothing, or a limit is reached (R204, R218, R225, R232, R239). -/
def readBlocked (s : State) (fn : Nat) : Bool :=
  let f := getFn s fn
  !maySend s fn || f.flrFrom.isSome || readLimit s fn

/-- Max Read Request Size in force: that of the PF, also for its VFs (R204; PRESUMED for the VFs, SR-IOV). -/
def maxReadRequest (s : State) : Nat := min 4096 (128 * 2 ^ fld (getCfg s pf cfgDevCtl) 12 3)

/-- The read requests for `n` bytes at an address (R204): none asks for more than `m` bytes or crosses a multiple of `m`. A read of no
bytes is one request. -/
def splitPiece (m : Nat) : Nat → Nat → Nat → List (Nat × Nat)
  | 0, a, n => [(a, n)]
  | fuel + 1, a, n =>
    let k := m - a % m
    if n ≤ k then [(a, n)] else (a, k) :: splitPiece m fuel (a + k) (n - k)

/-- The requests of a read of several pieces. -/
def splitReads (s : State) (ps : List (Nat × Nat)) : List (Nat × Nat) :=
  let m := maxReadRequest s
  ps.flatMap (fun p => splitPiece m (p.2 / m + 1) p.1 p.2)

/-- How a host read of the device comes back. -/
inductive ReadReply where
  /-- it is not issued yet -/
  | stall
  /-- it has been issued, and its completion has not arrived -/
  | wait
  | got (bs : Bytes)
  | failed (st : Status)
deriving DecidableEq, Repr

/-- The reply that a completion of a read of `len` bytes gives, and its logging (R222, R223). -/
def replyOf (fn len : Nat) (r : ReadOutcome) (s : State) : ReadReply × State :=
  match r with
  | .data bs => (.got (slice bs 0 len), s)
  | .ur => (.failed .xlateFault, s)
  | .ca => (.failed .xlateFault, s)
  | .poisoned => (.failed .malformed, logPoisoned fn s)
  | .pending => (.wait, s)

/-- A free tag. -/
def freeTag (s : State) : Nat := mfree s.hep.tags 16384 0

/-- The state with a tag in use for a read of `len` bytes, whose first request asks for `first` of them. -/
def useTag (tag fn len first : Nat) (rest : List (Nat × Nat)) (purpose : ReadFor) (segs : List Nat) (s : State) : State :=
  let e : TagEntry :=
    { fn := fn, purpose := purpose, len := len, upTo := first, got := [], rest := rest, issued := s.now, timeout := cplTimeout s fn,
      abandoned := false, quarantined := false, segs := segs, old := false }
  { s with hep := { s.hep with tags := minsert s.hep.tags tag e } }

/-- Tags are quarantined: taken from their function until their completions arrive (R224, R226). -/
def quarantine (tags : List Nat) (s : State) : State :=
  let f := fun (t : Nat) (e : TagEntry) => if tags.contains t then { e with abandoned := true, quarantined := true } else e
  { s with hep := { s.hep with tags := mmap f s.hep.tags } }

/-- A tag whose completion timeout has passed (R222, R224): quarantined, counted, logged in its function. The two event bits are set in one
clock. -/
def timeOutTag (tag fn : Nat) (s : State) : State :=
  raiseBits rHEP_EVENT rHEP_EVENT_MASK (putBit 3 true ||| putBit 4 true)
    (logNonFatal fn 14 (incr cHEP_CPL_TIMEOUT (quarantine [tag] s)))

/-- The total length of the pieces of an access. -/
def piecesLen (ps : List (Nat × Nat)) : Nat := ps.foldl (fun n p => n + p.2) 0

/-- One request of a read leaves, or is held in order while its function issues nothing (R218). -/
def sendRequest (fn tag : Nat) (p : Nat × Nat) (s : State) : State :=
  let f := getFn s fn
  if maySend s fn then hostOut (.hostRead fn p.1 p.2 tag) s else setFn fn { f with held := f.held ++ [.read p.1 p.2 tag] } s

/-- A function reads host memory, in the pieces given as address and length: `r` is how the read ends, or that it is still outstanding.
Its requests are sent one after another under one tag, each once the one before it has been answered (R204; DESIGN CHOICE, log entry
61). -/
def hostRead (fn : Nat) (ps : List (Nat × Nat)) (r : ReadOutcome) (purpose : ReadFor) (segs : List Nat) (s : State) : ReadReply × State :=
  if readBlocked s fn || readTokenBlocked s fn purpose then (.stall, s)
  else
    let tag := freeTag s
    match r, splitReads s ps with
    | .pending, p :: rest => (.wait, sendRequest fn tag p (useTag tag fn (piecesLen ps) p.2 rest purpose segs s))
    | _, rs => replyOf fn (piecesLen ps) r (forEach (sendRequest fn tag) rs s)

/-- A zero-length read behind the writes of a function (R220): held in order with them while the function issues nothing, and kept waiting
while a limit of reads is reached. -/
def flushRead (fn addr : Nat) (purpose : ReadFor) (segs : List Nat) (s : State) : State :=
  let tag := freeTag s
  if (getFn s fn).flrFrom.isSome then s
  else if readLimit s fn then
    let w : FlushWait := { fn := fn, addr := addr, purpose := purpose, segs := segs }
    { s with hep := { s.hep with flushWait := s.hep.flushWait ++ [w] } }
  else sendRequest fn tag (addr, 0) (useTag tag fn 0 0 [] purpose segs s)

/-- The flushing reads that waited for a limit are tried again, in order. -/
def retryFlushes (s : State) : State :=
  forEach (fun w s => flushRead w.fn w.addr w.purpose w.segs s) s.hep.flushWait { s with hep := { s.hep with flushWait := [] } }

/-- Whether a transmit queue has a frame to read at once. -/
def txReads (s : State) (qp : Nat) (q : Queue) : Bool :=
  !queueShed s q && !txHeld s q && !readBlocked s q.inst
    && (match nextJob s qp 1 with | some j => !(hostSegments j.descs).isEmpty | none => false)

/-- Whether a program channel has a burst to read from host memory at once. -/
def burstReads (s : State) (ch : Nat) (c : Channel) : Bool :=
  channelReads c && decide (c.waiting = none) && !c.aborting && (c.xfer.any (fun x => x.pace.isSome) || !c.pauseReq)
    && !readBlocked s c.inst && !readTokenBlocked s c.inst (.burst ch)

/-- The instances with a read to issue among the transmit queues and the program channels: in EMERGENCY and HOLDOVER those of class-7 jobs
first (R273). -/
def issueWork (s : State) : List Nat :=
  let txs := (s.wqm.queues.filter (fun e => txReads s e.1 e.2)).map (fun e => (e.2.inst, e.2.ls))
  let chs := (s.dma.chans.filter (fun e => burstReads s e.1 e.2)).map (fun e => (e.2.inst, lsInstance s e.2.inst))
  let all := txs ++ chs
  let ls := if (levelAt s .dma).emergent then all.filter (fun e => e.2) else []
  ((if ls.isEmpty then all else ls).map Prod.fst).eraseDups

/-- The turn in which an instance may issue a read now, if it may (R239, R273). -/
def issueTurn (s : State) (inst : Nat) : Option Turn := (turnOf s s.dma.turn (issueWork s)).filter (fun t => decide (t.cur = inst))

/-- A read has been issued in a turn. -/
def spendIssue (t : Turn) (s : State) : State := { s with dma := { s.dma with turn := t.spend } }

/-- The tags whose purpose satisfies `p` are abandoned: their completions will be discarded (R224, R225). -/
def abandonReads (p : TagEntry → Bool) (s : State) : State :=
  { s with hep := { s.hep with tags := mmap (fun _ e => if p e then { e with abandoned := true } else e) s.hep.tags } }

/-- Whether writes of a descriptor carry Relaxed Ordering (R220). -/
def roAllowed (s : State) (fn : Nat) (ro : Bool) : Bool := ro && bit (getCfg s fn cfgDevCtl) 4

end Sys2Proof.Machine
end

