-- ==== Sys2Proof/Machine/LocalMemory.lean ====
section
/-! DEFINITION. Byte memories on the device: service memory with the scratch memory and its code region (R382), and DEVBUF (R278).
A byte that nothing has written reads 0 (log entry). -/

namespace Sys2Proof.Machine

/-- What a byte that nothing has written reads as. -/
def zeroByte : Nat → Byte := fun _ => 0

/-- `n` bytes from an address of a byte memory. -/
def loadBytes (m : Map Byte) (a : Nat) : Nat → Bytes
  | 0 => []
  | n + 1 => mget zeroByte m a :: loadBytes m (a + 1) n

/-- A byte memory with bytes stored from an address on. -/
def storeBytes (m : Map Byte) (a : Nat) : Bytes → Map Byte
  | [] => m
  | b :: bs => storeBytes (mset zeroByte m a b) (a + 1) bs

/-- Service address of the 8 MiB of scratch memory (the spec gives none: log entry). -/
def scratchBase : Nat := 0x2000000000

/-- Bytes of scratch memory. -/
def scratchSize : Nat := 8388608

/-- Bytes of service memory (record 0x0103). -/
def svcMemSize (s : State) : Nat := s.mem.svcMib * 1048576

/-- Whether an access lies inside the scratch memory. -/
def inScratch (a n : Nat) : Bool := decide (scratchBase ≤ a) && decide (a + n ≤ scratchBase + scratchSize)

/-- Whether an access lies inside service memory or the scratch memory. -/
def inSvcMemory (s : State) (a n : Nat) : Bool := decide (a + n ≤ svcMemSize s) || inScratch a n

/-- Bytes of service-cluster memory. -/
def svcLoad (s : State) (a n : Nat) : Bytes :=
  if inScratch a n then loadBytes s.svc.scratch (a - scratchBase) n else loadBytes s.mem.svc a n

/-- Whether two ranges of addresses meet. -/
def rangesMeet (a n b m : Nat) : Bool := decide (0 < n) && decide (0 < m) && decide (a < b + m) && decide (b < a + n)

/-- The old bytes that a thread goes on fetching, for the addresses of the code region that a store changes (R382). -/
def keepStale (s : State) (old : Map Byte) (a : Nat) : Nat → Map Byte → Map Byte
  | 0, m => m
  | n + 1, m =>
    let m1 := if s.svc.codeBase ≤ a && a < s.svc.codeEnd && (mfind m a).isNone then minsert m a (mget zeroByte old a) else m
    keepStale s old (a + 1) n m1

/-- What a store does to the threads: another thread's reservation on the bytes is lost (R382), and the code they fetch stays as it
was until FENCE.I. -/
def threadSeesStore (s : State) (writer : Option Nat) (a n : Nat) (g : Nat) (t : Thread) : Thread :=
  let t1 := match t.reserved with
    | some (ra, rn) => if rangesMeet ra rn a n && decide (writer ≠ some g) then { t with reserved := none } else t
    | none => t
  if inScratch a n || !rangesMeet a n s.svc.codeBase (s.svc.codeEnd - s.svc.codeBase) || t.state = .off then t1
  else { t1 with stale := keepStale s s.mem.svc a n t1.stale }

/-- Bytes stored into service-cluster memory, by a thread or by another unit. -/
def svcStore (writer : Option Nat) (a : Nat) (bs : Bytes) (s : State) : State :=
  let s1 := { s with svc := { s.svc with threads := mmap (threadSeesStore s writer a bs.length) s.svc.threads } }
  if inScratch a bs.length then { s1 with svc := { s1.svc with scratch := storeBytes s1.svc.scratch (a - scratchBase) bs } }
  else { s1 with mem := { s1.mem with svc := storeBytes s1.mem.svc a bs } }

/-- Bytes of DEVBUF (DMA_DEVBUF_CFG). -/
def devbufSize (s : State) : Nat := regFld s rDMA_DEVBUF_CFG 0 13 * 1048576

/-- Bytes of DEVBUF from an address. -/
def devbufLoad (s : State) (a n : Nat) : Bytes := loadBytes s.mem.devbuf a n

/-- Bytes stored into DEVBUF. -/
def devbufStore (a : Nat) (bs : Bytes) (s : State) : State := { s with mem := { s.mem with devbuf := storeBytes s.mem.devbuf a bs } }

end Sys2Proof.Machine
end

