-- ==== Sys2Proof/Machine/Dtu.lean ====
section
/-! DEFINITION. The device translation unit (R243, R244). -/

namespace Sys2Proof.Machine

/-- Bit of an engine in ENGINES of a segment, and its code in VFM_DTU_FAULT. -/
def engineCode : DtuEngine → Nat
  | .storage => 0
  | .recorder => 1
  | .service => 2
  | .key => 3

/-- A segment that is in use: valid, and not made invalid by an error (R245, R249). -/
def DtuSegment.live (g : DtuSegment) : Bool := g.valid && !g.damaged

/-- The valid segment of an instance that holds a byte, with its key. -/
def segmentAt (s : State) (inst dva : Nat) : Option (Nat × DtuSegment) :=
  s.vfm.segments.find? (fun e =>
    decide (e.1 / 64 = inst) && e.2.live && decide (e.2.dva ≤ dva) && decide (dva < e.2.dva + e.2.len))

/-- Whether a segment grants an access. -/
def DtuSegment.grants (g : DtuSegment) (eng : DtuEngine) (write : Bool) : Bool :=
  (if write then g.write else g.read) && g.engines.getLsbD (engineCode eng)

/-- A translation is taken from the cache, or read from the segment table and cached (R244). -/
def useTranslation (key : Nat) (s : State) : State :=
  if s.vfm.cache.contains key then s
  else
    let kept := s.vfm.cache.drop (s.vfm.cache.length + 1 - 1024)
    incr cVFM_DTU_MISS { s with vfm := { s.vfm with cache := kept ++ [key] } }

/-- A faulting access is recorded (R244): VFM_DTU_FAULT_ADDR holds its first device address. -/
def recordDtuFault (eng : DtuEngine) (inst dva : Nat) (write denied : Bool) (s : State) : State :=
  let v := putFld 0 13 inst ||| putFld 16 2 (engineCode eng) ||| putBit 18 write ||| putBit 19 denied
  let s1 := setReg64 rVFM_DTU_FAULT_ADDR (BitVec.ofNat 64 dva) (setReg rVFM_DTU_FAULT v s)
  evVfm 1 (incr cVFM_DTU_FAULTS (incr (instCtr inst 1) s1))

/-- The pieces of an access from `dva` on, and the keys of the segments used; or its lowest failing byte and whether a segment denies
it. -/
def dtuWalk (s : State) (eng : DtuEngine) (inst : Nat) (write : Bool) : Nat → Nat → Nat → Except (Nat × Bool) (List (Nat × Nat) × List Nat)
  | 0, dva, _ => .error (dva, false)
  | fuel + 1, dva, len =>
    if len = 0 then .ok ([], [])
    else
      match segmentAt s inst dva with
      | none => .error (dva, false)
      | some (key, g) =>
        if !g.grants eng write then .error (dva, true)
        else
          let n := min len (g.dva + g.len - dva)
          match dtuWalk s eng inst write fuel (dva + n) (len - n) with
          | .error e => .error e
          | .ok (ps, ks) => .ok ((g.host + (dva - g.dva), n) :: ps, key :: ks)

/-- A translated access: its pieces on the host bus, as address and length, and the keys of the segments used. -/
structure Xlate where
  pieces : List (Nat × Nat)
  segs : List Nat
deriving DecidableEq, Repr

/-- Host address of the last byte of a translated access. -/
def Xlate.lastByte (x : Xlate) : Option Nat := x.pieces.getLast?.map (fun p => p.1 + p.2 - 1)

/-- An access of an engine is translated under an instance (R244): where it goes on the host bus, or the status of the fault, which is
recorded. -/
def translate (eng : DtuEngine) (inst dva len : Nat) (write : Bool) (s : State) : Except Status Xlate × State :=
  match dtuWalk s eng inst write 65 dva len with
  | .ok (ps, ks) => (.ok { pieces := ps, segs := ks }, forEach useTranslation ks s)
  | .error (_, denied) => (.error (if denied then .permission else .xlateFault), recordDtuFault eng inst dva write denied s)

/-- Bytes written to the pieces of an access, with the routing ID of the instance. -/
def writePieces (inst : Nat) (ro : Bool) (segs : List Nat) : List (Nat × Nat) → Bytes → State → State
  | [], _, s => s
  | (a, n) :: ps, bs, s => writePieces inst ro segs ps (bs.drop n) (dtuWrite inst a (bs.take n) ro segs s)

/-- Bytes written through the DTU. -/
def writeXlate (inst : Nat) (ro : Bool) (x : Xlate) (bs : Bytes) (s : State) : State := writePieces inst ro x.segs x.pieces bs s

/-- An engine reads through the DTU under an instance (R244): a fault of the translation ends the read. -/
def dtuRead (eng : DtuEngine) (inst dva len : Nat) (r : ReadOutcome) (purpose : ReadFor) (s : State) : ReadReply × State :=
  if readBlocked s inst || readTokenBlocked s inst purpose then (.stall, s)
  else match translate eng inst dva len false s with
    | (.ok x, s1) => hostRead inst x.pieces r purpose x.segs s1
    | (.error st, s1) => (.failed st, s1)

/-- An uncorrectable error in a segment, which counts as invalid from then on (R245, R249). -/
def loseSegment (key : Nat) (s : State) : State :=
  match mfind s.vfm.segments key with
  | some g =>
    let cache := s.vfm.cache.filter (fun k => decide (k ≠ key))
    { s with vfm := { s.vfm with segments := minsert s.vfm.segments key { g with damaged := true }, cache := cache } }
  | none => s

/-- DTU_MISS_FILL (R244, R249): an access misses the cache, its translation is read from the segment table with the ECC result `ecc`,
and the access is translated or refused. -/
def execDtuMissFill (engine : DtuEngine) (inst dva len : Nat) (write : Bool) (ecc : EccResult) (s : State) : Result :=
  let s1 := match segmentAt s inst dva with
    | some (key, _) =>
      if s.vfm.cache.contains key then s
      else if ecc = .uncorrectable then loseSegment key (hbmBlockRead ecc s)
      else hbmBlockRead ecc s
    | none => hbmBlockRead ecc s
  .next (translate engine inst dva len write s1).2

end Sys2Proof.Machine
end

