-- ==== Sys2Proof/Machine/Threads.lean ====
section
/-! DEFINITION. Hardware threads of the service cluster: events, wake counters, traps and thread save blocks, and thread control
(R378–R393). The instructions themselves are in ThreadIsa.lean. -/

namespace Sys2Proof.Machine

/-- A thread after reset: OFF with every register 0; SC0.T0 is a master permanently (R388). -/
def Thread.init (g : Nat) : Thread :=
  { state := .off, pc := 0, x := [], csr := [], user := false, reserved := none, wake := 0, waitRd := 0, waitUntil := none,
    busy := false, master := decide (g = 0), tsb := 0, regionBase := 0, regionLimit := 0, shadowCause := 0, shadowPc := 0,
    shadowTval := 0, traps := 0, halting := false, stale := [] }

/-- A thread by its global number. -/
def getThread (s : State) (g : Nat) : Thread := mget Thread.init s.svc.threads g

/-- The state with a thread replaced. -/
def setThread (g : Nat) (t : Thread) (s : State) : State :=
  { s with svc := { s.svc with threads := mset Thread.init s.svc.threads g t } }

/-- A register of a thread; x0 is 0. -/
def Thread.xreg (t : Thread) (n : Nat) : DWord := if n = 0 then 0 else mget zero64 t.x n

/-- The thread with a register written; x0 stays 0. -/
def Thread.setX (t : Thread) (n : Nat) (v : DWord) : Thread := if n = 0 then t else { t with x := mset zero64 t.x n v }

/-- Stored bits of a control and status register. -/
def Thread.csrAt (t : Thread) (n : Nat) : DWord := mget zero64 t.csr n

/-- The thread with a control and status register replaced. -/
def Thread.setCsr (t : Thread) (n : Nat) (v : DWord) : Thread := { t with csr := mset zero64 t.csr n v }

/-- svcev. -/
def csrSvcev : Nat := 0x7C0
/-- svcevmask. -/
def csrSvcevmask : Nat := 0x7C1
/-- svctimecmp. -/
def csrSvctimecmp : Nat := 0x7C2
/-- mstatus. -/
def csrMstatus : Nat := 0x300
/-- mie. -/
def csrMie : Nat := 0x304
/-- mtvec. -/
def csrMtvec : Nat := 0x305
/-- mepc. -/
def csrMepc : Nat := 0x341
/-- mcause. -/
def csrMcause : Nat := 0x342
/-- mtval. -/
def csrMtval : Nat := 0x343

/-- Whether an event is pending and set in svcevmask. -/
def Thread.eventEnabled (t : Thread) : Bool := decide (t.csrAt csrSvcev &&& t.csrAt csrSvcevmask ≠ 0)

/-- Whether the thread takes machine interrupts: always in U mode, by mstatus.MIE in M mode; MEIE enables the external one. -/
def Thread.interruptsOn (t : Thread) : Bool := (t.user || (t.csrAt csrMstatus).getLsbD 3) && (t.csrAt csrMie).getLsbD 11

/-- A machine external interrupt is due (R387). -/
def Thread.interruptDue (t : Thread) : Bool := t.eventEnabled && t.interruptsOn

/-- minstret. -/
def csrMinstret : Nat := 0xB02

/-- An instruction has retired: minstret counts it (R381). -/
def Thread.retired (t : Thread) : Thread := t.setCsr csrMinstret (t.csrAt csrMinstret + 1)

/-- The thread leaves its EVWAIT with a reason: the instruction retires (R385). -/
def Thread.leaveWait (t : Thread) (reason : Nat) : Thread :=
  { (t.setX t.waitRd (BitVec.ofNat 64 reason)).retired with state := .run, pc := t.pc + 4, waitUntil := none }

/-- A thread whose events have changed: an EVWAIT ends with 0, or is left unretired for the interrupt (R385). -/
def Thread.wakeByEvent (t : Thread) : Thread :=
  if t.state ≠ .evwait || !t.eventEnabled then t
  else if t.interruptsOn then { t with state := .run, waitUntil := none }
  else t.leaveWait 0

/-- An event is raised at a thread (R387). A thread that is OFF keeps no event. -/
def raiseThread (g n : Nat) (s : State) : State :=
  let t := getThread s g
  if t.state = .off then s
  else setThread g (t.setCsr csrSvcev (t.csrAt csrSvcev ||| BitVec.ofNat 64 (2 ^ n))).wakeByEvent s

/-- A post to a thread (R384, R385). -/
def postThread (g : Nat) (s : State) : State :=
  let t := getThread s g
  match t.state with
  | .evwait => setThread g (t.leaveWait 1) s
  | .run => setThread g { t with wake := min 15 (t.wake + 1) } s
  | _ => s

/-- mstatus as it reads: UXL is 2 (RV64). -/
def Thread.mstatus (t : Thread) : DWord := t.csrAt csrMstatus ||| 0x200000000

/-- The check of R390: the save block is aligned and inside the data region. -/
def Thread.tsbOk (t : Thread) : Bool :=
  decide (t.tsb.toNat % 512 = 0) && decide (t.regionBase.toNat ≤ t.tsb.toNat) && decide (t.tsb.toNat + 511 ≤ t.regionLimit.toNat)

/-- The registers x0–x31 as bytes. -/
def Thread.xbytes (t : Thread) : Bytes := (List.range 32).flatMap (fun n => toLe 8 (t.xreg n).toNat)

/-- A thread save block (R389). -/
def Thread.saveBlock (t : Thread) (pc cause tval : DWord) : Bytes :=
  t.xbytes ++ toLe 8 pc.toNat ++ toLe 8 cause.toNat ++ toLe 8 tval.toNat ++ toLe 8 t.mstatus.toNat ++ toLe 8 (t.traps.toNat + 1)
    ++ List.replicate 216 0

/-- mstatus on a trap: MPIE takes MIE, MIE falls, MPP takes the mode. -/
def Thread.trapStatus (t : Thread) : DWord :=
  let v := t.csrAt csrMstatus
  let kept := v &&& ~~~ 0x1888#64
  kept ||| (if v.getLsbD 3 then 0x80 else 0) ||| (if t.user then 0 else 0x1800)

/-- The thread inside its handler (R389 steps 2–4). -/
def Thread.enterHandler (t : Thread) (pc cause tval : DWord) : Thread :=
  let t1 := (((t.setCsr csrMstatus t.trapStatus).setCsr csrMepc pc).setCsr csrMcause cause).setCsr csrMtval tval
  { t1 with busy := true, user := false, pc := t.csrAt csrMtvec &&& ~~~ 3#64, state := .run, traps := t.traps + 1, waitUntil := none }

/-- A trap is completed: the save block is written and the handler entered (R389). -/
def completeTrap (g : Nat) (t : Thread) (pc cause tval : DWord) (s : State) : State :=
  let s1 := svcStore (some g) t.tsb.toNat (t.saveBlock pc cause tval) s
  let kept := (getThread s1 g).stale
  incr cSVC_TRAPS (setThread g { t.enterHandler pc cause tval with stale := kept } s1)

/-- An entry of the fault FIFO, which holds 256. -/
def pushThreadFault (g : Nat) (unsaved : Bool) (s : State) : State :=
  if 256 ≤ s.svc.faults.length then s
  else { s with svc := { s.svc with faults := s.svc.faults ++ [{ thread := g, unsaved := unsaved }] } }

/-- A thread is parked with its trap state in the shadow registers (R390). -/
def parkThread (g : Nat) (unsaved : Bool) (t : Thread) (cause tval : DWord) (s : State) : State :=
  let st : ThreadState := if unsaved then .faultedUnsaved else .faulted
  let t1 := { t with state := st, shadowCause := cause, shadowPc := t.pc, shadowTval := tval, halting := false, waitUntil := none }
  let s1 := pushThreadFault g unsaved (setThread g t1 s)
  let s2 := incr (if unsaved then cSVC_TSB_FAULTS else cSVC_THREAD_FAULTS) s1
  let s3 := if g = 0 then evSvc 0 s2 else s2
  raiseThread 0 (if unsaved then 2 else 3) s3

/-- A thread takes a trap at its present PC (R389, R390). -/
def takeTrap (g : Nat) (cause tval : DWord) (s : State) : State :=
  let t := getThread s g
  if t.busy then parkThread g false t cause tval s
  else if t.tsbOk then completeTrap g t t.pc cause tval s
  else parkThread g true t cause tval s

/-- Cause of a machine external interrupt. -/
def externalInterrupt : DWord := 0x800000000000000B

/-- Cores powered (R380). -/
def coresPowered (s : State) : Nat :=
  if s.pcr.refuge then 0 else match powerSchedule s with | .p0 => 32 | .p1 => 32 | .p2 => 4 | .p3 => 0

/-- Whether the core of a thread is powered. -/
def threadPowered (s : State) (g : Nat) : Bool := decide (g / 8 < coresPowered s)

/-- A byte that a thread fetches: as it was before a store that FENCE.I has not shown it (R382). -/
def fetchByte (s : State) (t : Thread) (a : Nat) : Nat := ((mfind t.stale a).getD (mget zeroByte s.mem.svc a)).toNat

/-- The instruction at an address of the code region: its length and its bits, none outside the region (R382). -/
def fetchAt (s : State) (t : Thread) (a : Nat) : Option (Nat × Nat) :=
  if !(decide (s.svc.codeBase ≤ a) && decide (a + 2 ≤ s.svc.codeEnd)) then none
  else
    let lo := fetchByte s t a + 256 * fetchByte s t (a + 1)
    if lo % 4 ≠ 3 then some (2, lo)
    else if a + 4 ≤ s.svc.codeEnd then some (4, lo + 65536 * (fetchByte s t (a + 2) + 256 * fetchByte s t (a + 3)))
    else none

/-- The 32-bit instruction that a thread is about to execute: it runs, no halt and no interrupt comes first. -/
def nextWord (s : State) (g : Nat) : Option Nat :=
  let t := getThread s g
  if t.state ≠ .run || t.halting || t.interruptDue || !threadPowered s g || t.pc.getLsbD 0 then none
  else match fetchAt s t t.pc.toNat with
    | some (4, w) => some w
    | _ => none

/-- The thread with its PC behind a 32-bit instruction. -/
def Thread.next (t : Thread) : Thread := { t.retired with pc := t.pc + 4 }

/-- Whether a word is EVWAIT (R383). -/
def isEvwait (w : Nat) : Bool := decide (nbits w 0 7 = 0x0B) && decide (nbits w 12 3 = 0) && decide (nbits w 20 12 = 0)

/-- Whether a word is EVPOST (R383). -/
def isEvpost (w : Nat) : Bool :=
  decide (nbits w 0 7 = 0x0B) && decide (nbits w 12 3 = 1) && decide (nbits w 20 12 = 0) && decide (nbits w 7 5 = 0)

/-- The word of MRET. -/
def mretWord : Nat := 0x30200073

/-- The effect of EVWAIT (R385). -/
def doEvwait (g w : Nat) (s : State) : State :=
  let t := getThread s g
  let rd := nbits w 7 5
  let rs := nbits w 15 5
  let t1 := { t with waitRd := rd, waitUntil := if rs = 0 then none else some (t.xreg rs) }
  if 0 < t.wake then setThread g { t1.leaveWait 1 with wake := t.wake - 1 } s
  else if t.eventEnabled then setThread g (t1.leaveWait 0) s
  else if rs ≠ 0 && decide ((t.xreg rs).toNat ≤ s.now) then setThread g (t1.leaveWait 2) s
  else setThread g { t1 with state := .evwait } s

/-- EVWAIT (R385): the instruction that thread `g` is about to execute is an EVWAIT. -/
def execThreadEvwait (g : Nat) (s : State) : Result :=
  match nextWord s g with
  | some w => .next (if isEvwait w then doEvwait g w s else s)
  | none => .next s

/-- EVWAIT_DEADLINE (R385): device time reaches the deadline of a waiting thread. -/
def execEvwaitDeadline (g : Nat) (s : State) : Result :=
  let t := getThread s g
  match t.state, t.waitUntil with
  | .evwait, some d => .next (setThread g (t.leaveWait 2) (reachTime d.toNat s))
  | _, _ => .next s

/-- The effect of EVPOST (R384). -/
def doEvpost (g w : Nat) (s : State) : State :=
  let t := getThread s g
  let v := (t.xreg (nbits w 15 5)).toNat
  let s1 := setThread g t.next s
  if nbit v 8 then
    let core := v % 256 / 8
    forEach (fun h s => if h = g then s else postThread h s) (span (8 * core) 8) s1
  else postThread (v % 256) s1

/-- EVPOST (R384). -/
def execThreadEvpost (g : Nat) (s : State) : Result :=
  match nextWord s g with
  | some w => .next (if isEvpost w then doEvpost g w s else s)
  | none => .next s

/-- The effect of MRET: the mode and MIE of before the trap, MPRV cleared where the mode is U, TSB_BUSY cleared (R389). -/
def doMret (g : Nat) (s : State) : State :=
  let t := getThread s g
  let v := t.csrAt csrMstatus
  let kept := if v.getLsbD 12 then v &&& ~~~ 0x1888#64 else v &&& ~~~ 0x21888#64
  let st := kept ||| (if v.getLsbD 7 then 0x8 else 0) ||| 0x80
  let t1 := t.retired.setCsr csrMstatus st
  setThread g { t1 with pc := t.csrAt csrMepc &&& ~~~ 1#64, user := !v.getLsbD 12, busy := false } s

/-- MRET (R389), which U mode may not execute. -/
def execThreadMret (g : Nat) (s : State) : Result :=
  match nextWord s g with
  | some w => .next (if w = mretWord && !(getThread s g).user then doMret g s else s)
  | none => .next s

/-- SVC_TIMER_EVENT (R387): device time reaches svctimecmp of a thread. -/
def execSvcTimerEvent (g : Nat) (s : State) : Result :=
  let t := getThread s g
  let c := t.csrAt csrSvctimecmp
  if t.state = .off || c = 0 then .next s
  else .next (raiseThread g 6 (reachTime c.toNat s))

/-- SVC_THREAD_CTL.ERR as the service view shows it (R388). -/
def setThreadErr (b : Bool) (s : State) : State := setView (.service 0) rSVC_THREAD_CTL (putBit 30 b) s

/-- A thread that may give commands: a master that runs. -/
def isMaster (s : State) (g : Nat) : Bool := (getThread s g).master && decide (g < 256)

/-- Whether a master may command a thread (R388). -/
def mayCommand (by_ target : Nat) : Bool := decide (target ≠ 0) && decide (target ≠ by_) && decide (target < 256)

/-- RELEASE. -/
def releaseThread (by_ target : Nat) (s : State) : State :=
  let t := getThread s target
  if !isMaster s by_ then s
  else if !mayCommand by_ target || t.state ≠ .held || !threadPowered s target then setThreadErr true s
  else setThreadErr false (setThread target { t with state := .run } s)

/-- HALT: a running thread is held once its accesses have ended; a parked thread is held at once (R388, R392). -/
def haltThread (by_ target : Nat) (s : State) : State :=
  let t := getThread s target
  if !isMaster s by_ then s
  else if !mayCommand by_ target then setThreadErr true s
  else match t.state with
    | .run => setThreadErr false (setThread target { t with halting := true } s)
    | .evwait => setThreadErr false (setThread target { t with halting := true } s)
    | .faulted => setThreadErr false (setThread target { t with state := .held } s)
    | .faultedUnsaved => setThreadErr false (setThread target { t with state := .held } s)
    | _ => setThreadErr true s

/-- The channels that a thread started lose their owner: no notification, and a fault aborts them (R289, R392). -/
def orphanChannels (g : Nat) (s : State) : State :=
  let f := fun (_ : Nat) (c : Channel) => if c.thread = some g then { c with orphan := true } else c
  { s with dma := { s.dma with chans := mmap f s.dma.chans } }

/-- A thread is reset to OFF. -/
def clearThread (g : Nat) (s : State) : State := orphanChannels g (setThread g (Thread.init g) s)

/-- RESET. -/
def resetThread (by_ target : Nat) (s : State) : State :=
  if !isMaster s by_ then s
  else if !mayCommand by_ target || (getThread s target).state = .off then setThreadErr true s
  else setThreadErr false (clearThread target s)

/-- RESUME: the trap of a parked thread is completed, if the check of R390 now passes (R391). -/
def resumeThread (by_ target : Nat) (s : State) : State :=
  let t := getThread s target
  if !isMaster s by_ then s
  else if !mayCommand by_ target || t.state ≠ .faultedUnsaved || !t.tsbOk then setThreadErr true s
  else setThreadErr false (completeTrap target t t.shadowPc t.shadowCause t.shadowTval s)

/-- THREAD_RELEASE (R388). -/
def execThreadRelease (by_ target : Nat) (s : State) : Result := .next (releaseThread by_ target s)

/-- THREAD_HALT (R392). -/
def execThreadHalt (by_ target : Nat) (s : State) : Result := .next (haltThread by_ target s)

/-- THREAD_HELD (R392): the last access of a halted thread has ended. -/
def execThreadHeld (g : Nat) (s : State) : Result :=
  let t := getThread s g
  if t.halting && (t.state = .run || t.state = .evwait) then
    .next (setThread g { t with state := .held, halting := false, waitUntil := none } s)
  else .next s

/-- THREAD_RESET (R392). -/
def execThreadReset (by_ target : Nat) (s : State) : Result := .next (resetThread by_ target s)

/-- THREAD_RESUME (R391). -/
def execThreadResume (by_ target : Nat) (s : State) : Result := .next (resumeThread by_ target s)

/-- MASTER of SVC_THREAD_CTL is written (R388): that of SC0.T0 is read-only, and a change of its own by a master is refused (ERR). -/
def setMaster (by_ target : Nat) (on : Bool) (s : State) : State :=
  let t := getThread s target
  if !isMaster s by_ || target = 0 || 256 ≤ target then s
  else if target = by_ then setThreadErr (decide (t.master ≠ on)) s
  else setThreadErr false (if t.master = on then s else setThread target { t with master := on } s)

/-- A write of SVC_THREAD_CTL by a thread: MASTER, then the command; the reserved commands 5–7 start nothing and set ERR (R541). -/
def writeThreadCtl (by_ target : Nat) (v : Word) (s : State) : State :=
  let s1 := setMaster by_ target (bit v 3) s
  match fld v 0 3 with
  | 1 => releaseThread by_ target s1
  | 2 => haltThread by_ target s1
  | 3 => resetThread by_ target s1
  | 4 => resumeThread by_ target s1
  | 0 => s1
  | _ => if isMaster s by_ then setThreadErr true s1 else s1

/-- The thread with a setup register changed by `f`; none where `off` names none. -/
def setupChange (t : Thread) (off xsel : Nat) (f : DWord → DWord) : Option Thread :=
  if off = rSVC_THREAD_PC then some { t with pc := f t.pc }
  else if off = rSVC_TSBBASE then some { t with tsb := f t.tsb }
  else if off = rSVC_REGION_BASE then some { t with regionBase := f t.regionBase }
  else if off = rSVC_REGION_LIMIT then some { t with regionLimit := f t.regionLimit }
  else if off = rSVC_XREG then some (t.setX xsel (f (t.xreg xsel)))
  else none

/-- Whether a setup register may be written in a state (SVC_THREAD_PC to SVC_REGION_LIMIT in HELD and OFF, SVC_TSBBASE in
FAULTED_UNSAVED too, SVC_XREG in HELD only). -/
def setupAllowed (st : ThreadState) (off : Nat) : Bool :=
  match st with
  | .held => true
  | .off => decide (off ≠ rSVC_XREG)
  | .faultedUnsaved => decide (off = rSVC_TSBBASE)
  | _ => false

/-- A master writes a setup register of a thread; a thread that was OFF becomes HELD (R388). -/
def writeSetup (by_ target off : Nat) (f : DWord → DWord) (s : State) : State :=
  let t := getThread s target
  let xsel := fld (getView s (.service by_) rSVC_XREG_SEL) 0 5
  if !isMaster s by_ then s
  else match setupChange t off xsel f with
    | none => s
    | some t1 =>
      if !mayCommand by_ target || !setupAllowed t.state off || !threadPowered s target then setThreadErr true s
      else setThreadErr false (setThread target { t1 with state := if t.state = .off then .held else t.state } s)

/-- SETUP_REGISTER_WRITE (R388). -/
def execSetupRegisterWrite (by_ target off : Nat) (v : DWord) (s : State) : Result := .next (writeSetup by_ target off (fun _ => v) s)

/-- SVC_FAULT_FIFO as a read finds it. -/
def faultFifoValue (s : State) : Word :=
  match s.svc.faults with
  | [] => 0
  | e :: _ => putFld 0 8 e.thread ||| putBit 8 e.unsaved ||| putBit 31 true

/-- The oldest entry of the fault FIFO is taken. -/
def popFaultFifo (s : State) : State := { s with svc := { s.svc with faults := s.svc.faults.drop 1 } }

/-- FAULT_FIFO_POP (R390). -/
def execFaultFifoPop (p : Party) (s : State) : Result :=
  .next (popFaultFifo (returnValue p rSVC_FAULT_FIFO (faultFifoValue s) s))

/-- SC0.T0 restarts the watchdog period (R393). -/
def kickWatchdog (p : Party) (s : State) : State :=
  if p = .service 0 then { s with svc := { s.svc with kickAt := s.now } } else s

/-- WDOG_KICK (R393). -/
def execWdogKick (p : Party) (s : State) : Result := .next (kickWatchdog p s)

/-- SC0.T0 starts at the image entry point with the image's region and TSB (R388). -/
def startSupervisor (s : State) : State :=
  let t := { Thread.init 0 with pc := s.svc.entry, tsb := s.svc.supTsb, regionBase := s.svc.supBase, regionLimit := s.svc.supLimit }
  setThread 0 { t with state := .run } { s with svc := { s.svc with ready := true, kickAt := s.now } }

/-- Every thread is reset, and with it the reservations of its channels. -/
def clearCluster (s : State) : State :=
  let s1 := forEach (fun e s => orphanChannels e.1 s) s.svc.threads s
  clearLatches (fun o => o >>> 20 = 0xD) { s1 with svc := { s1.svc with threads := [], faults := [], ready := false } }

/-- The threads of the cores that power state and boot mode leave without power are reset (R380). -/
def clearUnpowered (s : State) : State :=
  forEach (fun e s => if threadPowered s e.1 then s else clearThread e.1 s) s.svc.threads s

end Sys2Proof.Machine
end

