-- ==== Sys2Proof/Machine/Dma.lean ====
section
/-! DEFINITION. DMA channels and channel programs (11_dma_channel_programs.md): channel control, the instructions, bursts, request
lines, faults. -/

namespace Sys2Proof.Machine

/-- A channel after reset, with the initial mode of R272. -/
def Channel.init (ch : Nat) : Channel :=
  let svc := decide (ch < 448)
  { state := .idle, base := 0, last := 0, pc := 0, inst := if svc then 4098 else pf, src := if svc then 2 else 0,
    dst := if svc then 2 else 0, modeWritten := false, c := List.replicate 8 0, ahead := [], loops := [], pauseReq := false, aborting := false,
    waiting := none, xfer := none, fault := none, endCode := 0, sigcode := 0, err := false, held := false, lastWrite := none,
    thread := none, orphan := false }

/-- A channel. -/
def getCh (s : State) (ch : Nat) : Channel := mget Channel.init s.dma.chans ch

/-- The state with a channel replaced. -/
def setCh (ch : Nat) (c : Channel) (s : State) : State :=
  { s with dma := { s.dma with chans := mset Channel.init s.dma.chans ch c } }

/-- A service channel, CH384–CH447 (R272). -/
def isServiceCh (ch : Nat) : Bool := decide (384 ≤ ch) && decide (ch < 448)

/-- A PF channel, CH448–CH479 (R272). -/
def isPfCh (ch : Nat) : Bool := decide (448 ≤ ch) && decide (ch < 480)

/-- Whether a party owns a program channel (R272). -/
def ownsCh (p : Party) (ch : Nat) : Bool :=
  match p with
  | .host => isPfCh ch
  | .service _ => isServiceCh ch
  | .crater => false

/-- The program words of a channel's owner (R274). -/
def areaOf (ch : Nat) : Nat × Nat := if isServiceCh ch then (2048, 8191) else (0, 2047)

/-- Register Cn of a channel. -/
def Channel.creg (c : Channel) (n : Nat) : DWord := c.c.getD n 0

/-- The channel with Cn replaced. -/
def Channel.setC (c : Channel) (n : Nat) (v : DWord) : Channel := { c with c := c.c.set n v }

/-- Fields of an instruction (R276). -/
def insnRa (w : DWord) : Nat := nbits w.toNat 8 3
/-- RB. -/
def insnRb (w : DWord) : Nat := nbits w.toNat 11 3
/-- RC. -/
def insnRc (w : DWord) : Nat := nbits w.toNat 14 3
/-- IMM. -/
def insnImm (w : DWord) : Nat := nbits w.toNat 32 32
/-- The bits of F outside a mask of instruction bits are 0. -/
def insnFOnly (w : DWord) (mask : Nat) : Bool := decide (w.toNat % 2 ^ 32 &&& 0xFFFE0000 &&& (0xFFFFFFFF - mask) = 0)
/-- IMM sign-extended to 64 bits. -/
def insnSimm (w : DWord) : DWord := BitVec.ofInt 64 (signed 32 (insnImm w))

/-- The end-of-body step of R283 for the levels, innermost first, whose body ends at `pc`: the next PC, the levels left and the
channel's registers. -/
def endOfBody (pc : Nat) : List LoopLevel → Channel → Nat × List LoopLevel × Channel
  | [], c => (pc + 1, [], c)
  | l :: ls, c =>
    if l.last ≠ pc then (pc + 1, l :: ls, c)
    else
      let v := c.creg l.reg - 1
      let c1 := c.setC l.reg v
      if v ≠ 0 then (l.first, l :: ls, c1) else endOfBody pc ls c1

/-- The instruction at PC retires: the end-of-body step, then the next PC (R283). -/
def Channel.retire (c : Channel) : Channel :=
  let (pc, ls, c1) := endOfBody c.pc c.loops c
  { c1 with pc := pc, loops := ls, ahead := if pc = c.pc + 1 then merase c.ahead c.pc else [], waiting := none, xfer := none, state := .run, held := false }

/-- Words of the program memory. -/
def pmemAt (s : State) (n : Nat) : DWord := mget zero64 s.dma.pmem n

/-- The instruction of a channel at its PC: as it was fetched (R274). -/
def insnAt (s : State) (c : Channel) : DWord := mget (pmemAt s) c.ahead c.pc

/-- Bit of a channel in the four bitmap registers that start at `base`. -/
def setChBit (base ch : Nat) (on : Bool) (s : State) : State :=
  let off := base + 4 * ((ch - 384) / 32)
  setReg off (setFld (getReg s off) ((ch - 384) % 32) 1 (if on then 1 else 0)) s

/-- The owner is notified (R284): the PF by a bit of DMA_EVENT, a thread by SVC_EV_DMA. -/
def notifyOwner (ch n : Nat) (s : State) : State :=
  if isPfCh ch then evDma n s
  else
    let c := getCh s ch
    if c.orphan then s
    else match c.thread with
      | some g => raiseThread g 0 s
      | none => s

/-- A channel goes to IDLE with its END code. -/
def idleCh (ch : Nat) (code : BitVec 2) (s : State) : State :=
  let c := getCh s ch
  setChBit (rDMA_FAULTED 0) ch false (setCh ch { c with state := .idle, endCode := code, waiting := none, xfer := none, fault := none,
                                                          aborting := false, held := false, loops := [], ahead := [] } s)

/-- The instruction at PC faults (R286): the channel stops precisely, and the owner is notified. A channel whose owner was reset is
aborted (R289). -/
def faultCh (ch : Nat) (st : Status) (kind : BitVec 2) (addr : DWord) (s : State) : State :=
  let c := getCh s ch
  let s1 := incr cDMA_FAULTS s
  if c.orphan then idleCh ch 2 s1
  else
    let f : ChFault := { status := BitVec.ofNat 8 st.code, kind := kind, depth := c.loops.length, addr := addr }
    notifyOwner ch 1 (setChBit (rDMA_FAULTED 0) ch true
      (setCh ch { c with state := .faulted, fault := some f, waiting := none, xfer := none, held := false, ahead := [] } s1))

/-- Pending count of a request line. -/
def reqCount (s : State) (line : Nat) : Nat := mget (fun _ => 0) s.dma.reqs line

/-- The state with a pending count replaced. -/
def setReqCount (line n : Nat) (s : State) : State := { s with dma := { s.dma with reqs := mset (fun _ => 0) s.dma.reqs line n } }

/-- Whether a channel waits for a request of a line. A paused or aborted channel takes none (R282). -/
def Channel.wants (c : Channel) (line : Nat) : Bool :=
  decide (c.state = .wait) && !c.pauseReq && !c.aborting && (decide (c.waiting = some (.req line)) || decide (c.waiting = some (.burst line)))

/-- A request is given to a channel: WAIT REQ retires, a paced burst may be issued. -/
def Channel.giveRequest (c : Channel) : Channel :=
  match c.waiting, c.xfer with
  | some (.burst _), some x => { c with state := .run, waiting := none, xfer := some { x with granted := true } }
  | _, _ => c.retire

/-- One request of a line is taken by a channel. -/
def takeRequest (line ch : Nat) (s : State) : State :=
  let s1 := setReqCount line (reqCount s line - 1) s
  { s1 with dma := { s1.dma with served := mset (fun _ => 0) s1.dma.served line ch } }

/-- Whether a channel is an LS channel (R60): its mode names an instance that owns an LS queue pair. -/
def isLsChannel (s : State) (ch : Nat) : Bool := lsInstance s (getCh s ch).inst

/-- The requests of a line go to the channels that wait, by round robin from the channel after the one served last (R282); in EMERGENCY,
HOLDOVER and DRILL LS channels are granted first (R60). -/
def serveLine (line : Nat) : Nat → State → State
  | 0, s => s
  | fuel + 1, s =>
    if reqCount s line = 0 then s
    else
      let at_ := mget (fun _ => 0) s.dma.served line
      let waits := (s.dma.chans.filter (fun e => e.2.wants line)).map Prod.fst
      let ls := if (levelAt s .dma).active then waits.filter (isLsChannel s) else []
      let order := fun (l : List Nat) => l.filter (fun ch => decide (at_ < ch)) ++ l
      match (order ls ++ order waits).head? with
      | none => s
      | some ch => serveLine line fuel (setCh ch (getCh s ch).giveRequest (takeRequest line ch s))

/-- A request line is asserted (R282). -/
def assertLine (line : Nat) (s : State) : State :=
  if 65535 ≤ reqCount s line then evDma 3 (incr cDMA_REQ_OVF s)
  else serveLine line 512 (setReqCount line (reqCount s line + 1) s)

/-- A paced instruction takes a request for its next burst, or waits for one (R282). A channel with PAUSE set takes none. -/
def requestBurst (ch line : Nat) (s : State) : State :=
  let c := getCh s ch
  match c.xfer with
  | none => s
  | some x =>
    if c.pauseReq then s
    else if 0 < reqCount s line then setCh ch { c with xfer := some { x with granted := true } } (takeRequest line ch s)
    else setCh ch { c with state := .wait, waiting := some (.burst line) } s

/-- What comes of an access of a channel before its data moves. -/
inductive ChAccess where
  /-- pieces in host memory, with the routing ID of a function -/
  | host (fn : Nat) (dest : Xlate)
  | svc
  | devbuf
  | fault (st : Status)
deriving DecidableEq, Repr

/-- An access to `n` bytes at `a` of a space, under the mode's instance (R278). An address outside service memory or DEVBUF gives
XLATE_FAULT. -/
def chAccess (space : BitVec 2) (inst a n : Nat) (write : Bool) (s : State) : ChAccess × State :=
  match space.toNat with
  | 0 => (.host inst { pieces := [(a, n)], segs := [] }, s)
  | 1 =>
    match translate .service inst a n write s with
    | (.ok x, s1) => (.host inst x, s1)
    | (.error st, s1) => (.fault st, s1)
  | 2 => (if inSvcMemory s a n then .svc else .fault .xlateFault, s)
  | _ => (if a + n ≤ devbufSize s then .devbuf else .fault .xlateFault, s)

/-- A read of a channel from its source space. -/
def chRead (ch a n : Nat) (r : ReadOutcome) (purpose : ReadFor) (s : State) : ReadReply × State :=
  let c := getCh s ch
  match chAccess c.src c.inst a n false s with
  | (.host fn x, s1) => hostRead fn x.pieces r purpose x.segs s1
  | (.svc, s1) => (.got (svcLoad s1 a n), s1)
  | (.devbuf, s1) => (.got (devbufLoad s1 a n), s1)
  | (.fault st, s1) => (.failed st, s1)

/-- How a write of a channel ends. -/
inductive WriteReply where
  /-- held by a clear Bus Master Enable -/
  | stall
  | written
  | failed (st : Status)
deriving DecidableEq, Repr

/-- A write of a channel to its destination space. -/
def chWrite (ch a : Nat) (bs : Bytes) (ro : Bool) (s : State) : WriteReply × State :=
  let c := getCh s ch
  match chAccess c.dst c.inst a bs.length true s with
  | (.host fn x, s1) =>
    if maySend s1 fn then
      let end_ := x.lastByte.map (fun a => (fn, a))
      (.written, setCh ch { getCh s1 ch with lastWrite := end_ } (writeXlate fn (roAllowed s1 fn ro) x bs s1))
    else (.stall, s1)
  | (.svc, s1) => (.written, setCh ch { getCh s1 ch with lastWrite := none } (svcStore none a bs s1))
  | (.devbuf, s1) => (.written, setCh ch { getCh s1 ch with lastWrite := none } (devbufStore a bs s1))
  | (.fault st, s1) => (.failed st, s1)

/-- A channel that is stalled shows HELD while the function of its access may issue nothing (R289). -/
def holdCh (ch : Nat) (s : State) : State :=
  let c := getCh s ch
  setCh ch { c with held := true } s

/-- Length of the next burst. -/
def Channel.burstLen (c : Channel) (x : Transfer) (rc : Nat) : Nat := min (64 * 2 ^ x.bsz) (c.creg rc).toNat

/-- The burst has been written: counters, registers, and what follows (R280). -/
def burstWritten (ch n ra rb rc : Nat) (x : Transfer) (s : State) : State :=
  let c := getCh s ch
  let by_ := BitVec.ofNat 64 n
  let c1 := if x.fill || x.sfix then c else c.setC ra (c.creg ra + by_)
  let c2 := if x.dfix then c1 else c1.setC rb (c1.creg rb + by_)
  let c3 := c2.setC rc (c2.creg rc - by_)
  let s1 := incr cDMA_BURSTS (addCtr cDMA_BYTES_WRITTEN n s)
  if c3.creg rc = 0 then setCh ch c3.retire s1
  else
    let s2 := setCh ch { c3 with xfer := some { x with data := none, granted := false, issued := false }, held := false } s1
    match x.pace with
    | some line => requestBurst ch line s2
    | none => s2

/-- The data of a burst is written (R280, R286). -/
def writeBurst (ch : Nat) (data : Bytes) (s : State) : State :=
  let c := getCh s ch
  let w := insnAt s c
  match c.xfer with
  | none => s
  | some x =>
    let a := c.creg (insnRb w)
    match chWrite ch a.toNat data x.ro s with
    | (.stall, s1) => holdCh ch (setCh ch { getCh s1 ch with xfer := some { x with data := some data, issued := false } } s1)
    | (.failed st, s1) => faultCh ch st 2 a s1
    | (.written, s1) => burstWritten ch data.length (insnRa w) (insnRb w) (insnRc w) x s1

/-- The read of a burst has come back: its data is written, or the burst faults. An aborted channel discards it (R285). -/
def finishBurst (ch : Nat) (r : ReadReply) (s : State) : State :=
  let c := getCh s ch
  let w := insnAt s c
  match c.xfer, r with
  | some x, .got bs =>
    if c.aborting then setCh ch { c with xfer := some { x with issued := false } } s
    else writeBurst ch bs (addCtr cDMA_BYTES_READ bs.length s)
  | some x, .failed st =>
    if c.aborting then setCh ch { c with xfer := some { x with issued := false } } s
    else faultCh ch st 1 (c.creg (insnRa w)) s
  | some x, .wait => setCh ch { c with xfer := some { x with issued := true } } s
  | some _, .stall => if maySend s c.inst then s else holdCh ch s
  | none, _ => s

/-- `n` bytes of a FILL pattern. -/
def fillBytes (v : DWord) (n : Nat) : Bytes := (List.range n).map (fun i => BitVec.ofNat 8 (v.toNat >>> (8 * (i % 8))))

/-- Whether the next burst may go ahead: data waits to be written, or a request has been taken, or an unpaced channel is not to pause. -/
def Channel.burstReady (c : Channel) (x : Transfer) : Bool :=
  decide (c.state = .run) && !c.aborting && !x.issued && (x.data.isSome || (if x.pace.isSome then x.granted else !c.pauseReq))

/-- Whether a channel is the next of its instance to issue a read: round robin by channel number (R273). -/
def nextIssuer (s : State) (ch : Nat) : Bool :=
  let inst := (getCh s ch).inst
  let at_ := mget (fun _ => 0) s.dma.lastIssue inst
  let l := (s.dma.chans.filter (fun e => decide (e.2.inst = inst) && burstReads s e.1 e.2)).map Prod.fst
  decide (((l.filter (fun k => decide (at_ < k))) ++ l).head? = some ch)

/-- The next burst of a channel is read from its source (R280). A read of host memory takes its turn among the instances, and among the
channels of its instance (R273). -/
def readBurst (ch n : Nat) (r : ReadOutcome) (s : State) : State :=
  let c := getCh s ch
  let read := fun s : State => let p := chRead ch (c.creg (insnRa (insnAt s c))).toNat n r (.burst ch) s; finishBurst ch p.1 p.2
  if 2 ≤ c.src.toNat then read s
  else if !burstReads s ch c then (if maySend s c.inst then s else holdCh ch s)
  else match issueTurn s c.inst with
    | none => s
    | some t =>
      if !nextIssuer s ch then s
      else
        let s1 := spendIssue t s
        read { s1 with dma := { s1.dma with lastIssue := mset (fun _ => 0) s1.dma.lastIssue c.inst ch } }

/-- DMA_BURST_COMPLETE (R280): the next burst of a MOVE or FILL is read and written; `r` is how a read of host memory ends. -/
def execDmaBurstComplete (ch : Nat) (r : ReadOutcome) (s : State) : Result :=
  let c := getCh s ch
  let w := insnAt s c
  match c.xfer with
  | none => .next s
  | some x =>
    if !c.burstReady x then .next s
    else
      let n := c.burstLen x (insnRc w)
      match x.data with
      | some bs => .next (writeBurst ch bs s)
      | none =>
        if x.fill then .next (writeBurst ch (fillBytes (c.creg (insnRa w)) n) s) else .next (readBurst ch n r s)

/-- The instruction that a channel is about to execute: it runs, nothing is under way, and neither PAUSE nor ABORT is set (R275). A PC
behind LAST finds a reserved word. -/
def nextInsn (s : State) (ch : Nat) : Option DWord :=
  let c := getCh s ch
  if c.state ≠ .run || c.xfer.isSome || c.waiting.isSome || c.pauseReq || c.aborting then none
  else if c.last < c.pc then some 0xFF else some (insnAt s c)

/-- The instruction at PC is executed when its opcode is `op`. -/
def onInsn (ch op : Nat) (s : State) (f : DWord → Channel → State) : State :=
  match nextInsn s ch with
  | some w => if nbits w.toNat 0 8 = op then f w (getCh s ch) else s
  | none => s

/-- A fault of the instruction itself: a reserved encoding, or a mode that is refused. -/
def faultInsn (ch : Nat) (st : Status) (s : State) : State := faultCh ch st 0 0 s

/-- The instruction retires with the channel as given. -/
def retireCh (ch : Nat) (c : Channel) (s : State) : State := setCh ch c.retire s

/-- INSN_NOP (R277): a NOP retires, and an instruction with a reserved opcode faults. -/
def execInsnNop (ch : Nat) (s : State) : Result :=
  .next (match nextInsn s ch with
    | none => s
    | some w =>
      if 0x0E ≤ nbits w.toNat 0 8 then faultInsn ch .malformed s
      else if nbits w.toNat 0 8 ≠ 0 then s
      else if insnFOnly w 0 then retireCh ch (getCh s ch) s else faultInsn ch .malformed s)

/-- A MOVE or FILL begins (R280). -/
def beginTransfer (ch : Nat) (fill : Bool) (w : DWord) (c : Channel) (s : State) : State :=
  let bsz := nbits w.toNat 18 3
  let len := (c.creg (insnRc w)).toNat
  let mask := if fill then 0x00DC0000 else 0x00FE0000
  if !insnFOnly w mask || bsz = 7 || decide (16777216 < len) then faultInsn ch .malformed s
  else if len = 0 then retireCh ch c s
  else
    let pace := if !fill && nbit w.toNat 17 then some (insnImm w % 256) else none
    let x0 : Transfer :=
      { fill := fill, bsz := bsz, pace := pace, sfix := nbit w.toNat 21, dfix := nbit w.toNat 22, ro := nbit w.toNat 23,
        granted := false, issued := false, data := none }
    let s1 := setCh ch { c with xfer := some x0 } s
    match pace with
    | some line => requestBurst ch line s1
    | none => s1

/-- MOVE (R280). -/
def execInsnMove (ch : Nat) (s : State) : Result := .next (onInsn ch 1 s (fun w c => beginTransfer ch false w c s))

/-- FILL (R280). -/
def execInsnFill (ch : Nat) (s : State) : Result := .next (onInsn ch 2 s (fun w c => beginTransfer ch true w c s))

/-- LOADI (R277). -/
def execInsnLoadi (ch : Nat) (s : State) : Result :=
  .next (onInsn ch 3 s (fun w c =>
    if !insnFOnly w 0x20000 then faultInsn ch .malformed s
    else
      let imm := insnImm w
      let old := (c.creg (insnRa w)).toNat
      let v := if nbit w.toNat 17 then old % 2 ^ 32 + imm * 2 ^ 32 else imm
      retireCh ch (c.setC (insnRa w) (BitVec.ofNat 64 v)) s))

/-- ADD (R277). -/
def execInsnAdd (ch : Nat) (s : State) : Result :=
  .next (onInsn ch 4 s (fun w c =>
    if !insnFOnly w 0x20000 then faultInsn ch .malformed s
    else
      let v := if nbit w.toNat 17 then c.creg (insnRc w) else insnSimm w
      retireCh ch (c.setC (insnRa w) (c.creg (insnRb w) + v)) s))

/-- The data of a LOAD has come back. -/
def finishLoad (ch : Nat) (r : ReadReply) (s : State) : State :=
  let c := getCh s ch
  let w := insnAt s c
  let a := c.creg (insnRb w) + insnSimm w
  match r with
  | .got bs =>
    if c.aborting then setCh ch { c with waiting := none } s
    else retireCh ch (c.setC (insnRa w) (BitVec.ofNat 64 (leNat bs))) (addCtr cDMA_BYTES_READ 8 s)
  | .failed st => if c.aborting then setCh ch { c with waiting := none } s else faultCh ch st 1 a s
  | .wait => setCh ch { c with waiting := some .load } s
  | .stall => if maySend s c.inst then s else holdCh ch s

/-- LOAD (R277); `r` is how a read of host memory ends. -/
def execInsnLoad (ch : Nat) (r : ReadOutcome) (s : State) : Result :=
  .next (onInsn ch 5 s (fun w c =>
    let a := c.creg (insnRb w) + insnSimm w
    if !insnFOnly w 0 then faultInsn ch .malformed s
    else if a.toNat % 8 ≠ 0 then faultCh ch .malformed 1 a s
    else
      let (rep, s1) := chRead ch a.toNat 8 r (.load ch) s
      finishLoad ch rep s1))

/-- STORE (R277). -/
def execInsnStore (ch : Nat) (s : State) : Result :=
  .next (onInsn ch 6 s (fun w c =>
    let a := c.creg (insnRb w) + insnSimm w
    if !insnFOnly w 0 then faultInsn ch .malformed s
    else if a.toNat % 8 ≠ 0 then faultCh ch .malformed 2 a s
    else
      match chWrite ch a.toNat (toLe 8 (c.creg (insnRa w)).toNat) false s with
      | (.stall, s1) => holdCh ch s1
      | (.failed st, s1) => faultCh ch st 2 a s1
      | (.written, s1) => retireCh ch (getCh s1 ch) (addCtr cDMA_BYTES_WRITTEN 8 s1)))

/-- LOOP (R283). -/
def execInsnLoop (ch : Nat) (s : State) : Result :=
  .next (onInsn ch 7 s (fun w c =>
    let n := insnImm w % 2048
    if !insnFOnly w 0 || n = 0 || decide (1024 < n) || decide (4 ≤ c.loops.length) || decide (c.last < c.pc + n) then
      faultInsn ch .malformed s
    else if c.creg (insnRa w) = 0 then
      -- the body is skipped: execution goes on after it, as at the end of its last pass
      let (pc, ls, c1) := endOfBody (c.pc + n) c.loops c
      setCh ch { c1 with pc := pc, loops := ls } s
    else setCh ch { c with pc := c.pc + 1, loops := { first := c.pc + 1, last := c.pc + n, reg := insnRa w } :: c.loops } s))

/-- The condition of a BRANCH; none for a reserved one. -/
def branchTaken (cond : Nat) (a b : DWord) : Option Bool :=
  match cond with
  | 0 => some true
  | 1 => some (decide (a = 0))
  | 2 => some (decide (a ≠ 0))
  | 3 => some (decide (a.toNat < b.toNat))
  | 4 => some (decide (b.toNat ≤ a.toNat))
  | _ => none

/-- The levels that a branch to `target` keeps: it pops each level whose body it leaves, and every level inside that one (R283). -/
def keptLevels (target : Nat) : List LoopLevel → List LoopLevel
  | [] => []
  | l :: ls =>
    let outer := keptLevels target ls
    if outer.length = ls.length && decide (l.first ≤ target) && decide (target ≤ l.last) then l :: ls else outer

/-- BRANCH (R283). -/
def execInsnBranch (ch : Nat) (s : State) : Result :=
  .next (onInsn ch 8 s (fun w c =>
    let target := (c.pc : Int) + signed 32 (insnImm w)
    match branchTaken (nbits w.toNat 17 3) (c.creg (insnRa w)) (c.creg (insnRb w)) with
    | none => faultInsn ch .malformed s
    | some taken =>
      if !insnFOnly w 0xE0000 then faultInsn ch .malformed s
      else if !taken then retireCh ch c s
      else if target < c.base || (c.last : Int) < target then faultInsn ch .malformed s
      else setCh ch { c with pc := target.toNat, loops := keptLevels target.toNat c.loops, ahead := [] } s))

/-- WAIT (R277, R282). -/
def execInsnWait (ch : Nat) (s : State) : Result :=
  .next (onInsn ch 9 s (fun w c =>
    let imm := insnImm w
    if !insnFOnly w 0x60000 then faultInsn ch .malformed s
    else match nbits w.toNat 17 2 with
      | 0 =>
        if 0 < reqCount s (imm % 256) then retireCh ch c (takeRequest (imm % 256) ch s)
        else setCh ch { c with state := .wait, waiting := some (.req (imm % 256)) } s
      | 1 =>
        if imm = 0 then faultInsn ch .malformed s
        else setCh ch { c with state := .wait, waiting := some (.time imm (s.now + imm)) } s
      | _ => faultInsn ch .malformed s))

/-- WAIT_TIME_EXPIRY (R277): the time of a WAIT has passed. -/
def execWaitTimeExpiry (ch : Nat) (s : State) : Result :=
  let c := getCh s ch
  match c.state, c.waiting with
  | .wait, some (.time _ t) => if c.pauseReq || c.aborting then .next s else .next (retireCh ch c (reachTime t s))
  | _, _ => .next s

/-- SIGNAL (R284). -/
def execInsnSignal (ch : Nat) (s : State) : Result :=
  .next (onInsn ch 0xA s (fun w c =>
    let imm := insnImm w
    if !insnFOnly w 0x60000 then faultInsn ch .malformed s
    else match nbits w.toNat 17 2 with
      | 0 => if imm % 256 < 128 then faultInsn ch .malformed s else assertLine (imm % 256) (retireCh ch c s)
      | 1 => notifyOwner ch 2 (setChBit (rDMA_SIGNALLED 0) ch true (retireCh ch { c with sigcode := BitVec.ofNat 16 imm } s))
      | _ => faultInsn ch .malformed s))

/-- Whether a service channel may name an instance for the DTU space (R278). -/
def svcDmaAllowed (s : State) (inst : Nat) : Bool := decide (inst = pf) || (decide (inst < pf) && (sweptRecord s inst).svcDma)

/-- Whether a channel may use a space under an instance (R278). -/
def spaceAllowed (s : State) (ch inst : Nat) (space : BitVec 2) : Bool :=
  match space.toNat with
  | 0 => isPfCh ch && decide (inst = pf)
  | 1 => isServiceCh ch && svcDmaAllowed s inst
  | 2 => isServiceCh ch
  | _ => true

/-- MODE (R279). -/
def execInsnMode (ch : Nat) (s : State) : Result :=
  .next (onInsn ch 0xB s (fun w c =>
    let inst := insnImm w % 8192
    let src : BitVec 2 := BitVec.ofNat 2 (insnImm w >>> 13)
    let dst : BitVec 2 := BitVec.ofNat 2 (insnImm w >>> 15)
    if !insnFOnly w 0 then faultInsn ch .malformed s
    else if !spaceAllowed s ch inst src || !spaceAllowed s ch inst dst then faultInsn ch .permission s
    else retireCh ch { c with inst := inst, src := src, dst := dst } s))

/-- FENCE (R277): the channel waits until its earlier writes have left. -/
def execInsnFence (ch : Nat) (s : State) : Result :=
  .next (onInsn ch 0xC s (fun w c =>
    if !insnFOnly w 0x20000 then faultInsn ch .malformed s
    else setCh ch { c with waiting := some (.fence (nbit w.toNat 17)) } s))

/-- The flushing read of a FENCE has come back. -/
def finishFence (ch : Nat) (r : ReadReply) (s : State) : State :=
  let c := getCh s ch
  match r with
  | .got _ => if c.aborting then s else retireCh ch c s
  | .failed st => if c.aborting then s else faultCh ch st 1 (BitVec.ofNat 64 ((c.lastWrite.map Prod.snd).getD 0)) s
  | .stall => if c.lastWrite.all (fun w => maySend s w.1) then s else holdCh ch s
  | .wait => s

/-- FENCE_DONE (R277): the earlier writes have left the engine; with FLUSH a zero-length read to the last write address follows, whose
end is `r`. -/
def execFenceDone (ch : Nat) (r : ReadOutcome) (s : State) : Result :=
  let c := getCh s ch
  let under := s.hep.tags.any (fun e => decide (e.2.purpose = .fence ch))
  match c.waiting with
  | some (.fence flush) =>
    if c.aborting || under then .next s
    else match flush, c.lastWrite with
      | true, some (fn, a) =>
        let (rep, s1) := hostRead fn [(a, 0)] r (.fence ch) [] s
        .next (finishFence ch rep s1)
      | _, _ => .next (retireCh ch c s)
  | _ => .next s

/-- HALT (R284): the channel waits until every write has left the engine. -/
def execInsnHalt (ch : Nat) (s : State) : Result :=
  .next (onInsn ch 0xD s (fun w c => if insnFOnly w 0 then setCh ch { c with waiting := some .halt } s else faultInsn ch .malformed s))

/-- HALT_DONE (R284): IDLE, DMA_DONEn and the notification. -/
def execHaltDone (ch : Nat) (s : State) : Result :=
  let c := getCh s ch
  if c.waiting = some .halt && !c.aborting then .next (notifyOwner ch 0 (setChBit (rDMA_DONE 0) ch true (idleCh ch 1 s)))
  else .next s

/-- DMA_CH_CTL.ERR of a channel. -/
def setChErr (ch : Nat) (b : Bool) (s : State) : State := setCh ch { getCh s ch with err := b } s

/-- START (R275, R291): accepted in IDLE with a program inside the owner's area. -/
def startCh (p : Party) (ch : Nat) (s : State) : State :=
  let c := getCh s ch
  let (lo, hi) := areaOf ch
  if !ownsCh p ch then s
  else if c.state ≠ .idle || c.base < lo || decide (hi < c.last) || decide (c.last < c.base) then setChErr ch true s
  else
    let th := match p with | .service g => some g | _ => none
    let ini := Channel.init ch
    let c0 := if c.modeWritten then c else { c with inst := ini.inst, src := ini.src, dst := ini.dst }
    let c1 := { c0 with state := .run, pc := c.base, loops := [], ahead := [], waiting := none, xfer := none, fault := none }
    setCh ch { c1 with endCode := 0, err := false, lastWrite := none, thread := th, orphan := false, aborting := false } s

/-- CHANNEL_START (R275). -/
def execChannelStart (p : Party) (ch : Nat) (s : State) : Result := .next (startCh p ch s)

/-- RESUME (R288): the instruction at PC is executed again; with PAUSE set the channel goes to PAUSED. -/
def resumeCh (p : Party) (ch : Nat) (s : State) : State :=
  let c := getCh s ch
  if !ownsCh p ch then s
  else if c.state ≠ .faulted then setChErr ch true s
  else
    let s1 := setChBit (rDMA_FAULTED 0) ch false s
    let st : ChState := if c.pauseReq then .paused else .run
    let s2 := setCh ch { c with state := st, fault := none, err := false, waiting := none, xfer := none } s1
    if c.pauseReq then incr cDMA_PAUSES s2 else s2

/-- CHANNEL_RESUME (R288). -/
def execChannelResume (p : Party) (ch : Nat) (s : State) : Result := .next (resumeCh p ch s)

/-- Whether a read of a channel is outstanding and not past its time-out. -/
def chReading (s : State) (ch : Nat) : Bool :=
  s.hep.tags.any (fun e => !e.2.quarantined && !e.2.abandoned
    && (decide (e.2.purpose = .burst ch) || decide (e.2.purpose = .load ch) || decide (e.2.purpose = .fence ch)))

/-- ABORT (R285): refused in IDLE. -/
def abortCh (p : Party) (ch : Nat) (s : State) : State :=
  let c := getCh s ch
  if !ownsCh p ch then s
  else if c.state = .idle then setChErr ch true s
  else if chReading s ch then setCh ch { c with aborting := true, err := false } s
  else if c.state = .faulted || c.state = .paused then setChErr ch false (idleCh ch 2 s)
  else setCh ch { c with aborting := true, err := false } s

/-- CHANNEL_ABORT (R285). -/
def execChannelAbort (p : Party) (ch : Nat) (s : State) : Result := .next (abortCh p ch s)

/-- CHANNEL_ABORT_DONE (R285): every outstanding read of the channel has returned or timed out. -/
def execChannelAbortDone (ch : Nat) (s : State) : Result :=
  if (getCh s ch).aborting && !chReading s ch then .next (idleCh ch 2 s) else .next s

/-- PAUSE set (R285). -/
def pauseCh (p : Party) (ch : Nat) (s : State) : State :=
  if ownsCh p ch then setCh ch { getCh s ch with pauseReq := true, err := false } s else s

/-- CHANNEL_PAUSE_SET (R285). -/
def execChannelPauseSet (p : Party) (ch : Nat) (s : State) : Result := .next (pauseCh p ch s)

/-- Whether a channel stands at an instruction or burst boundary with nothing read and unwritten (R285). -/
def Channel.atBoundary (c : Channel) : Bool :=
  (match c.xfer with | none => true | some x => !x.issued && x.data.isNone && !x.granted)
    && (match c.waiting with | none => true | some (.req _) => true | some (.time _ _) => true | some (.burst _) => true | _ => false)

/-- CHANNEL_PAUSED (R285): the channel has reached a boundary. -/
def execChannelPaused (ch : Nat) (s : State) : Result :=
  let c := getCh s ch
  if c.pauseReq && !c.aborting && (c.state = .run || c.state = .wait) && c.atBoundary then
    .next (incr cDMA_PAUSES (setCh ch { c with state := .paused, ahead := [] } s))
  else .next s

/-- PAUSE cleared (R285): the instruction at PC goes on from the boundary, a WAIT TIME with its full time. -/
def unpauseCh (p : Party) (ch : Nat) (s : State) : State :=
  let c := getCh s ch
  if !ownsCh p ch then s
  else if c.state = .paused then
    setCh ch { c with pauseReq := false, err := false, state := .run, waiting := none, xfer := none } s
  else
    let s1 := setCh ch { c with pauseReq := false, err := false } s
    match c.waiting with
    | some (.req line) => serveLine line 512 s1
    | some (.burst line) => serveLine line 512 s1
    | _ => s1

/-- CHANNEL_PAUSE_CLEAR (R285). -/
def execChannelPauseClear (p : Party) (ch : Nat) (s : State) : Result := .next (unpauseCh p ch s)

/-- A write of DMA_CH_CTL: PAUSE, and one command; more than one acts as ABORT alone. -/
def writeChCtl (p : Party) (ch : Nat) (v : Word) (s : State) : State :=
  let cmds := fld v 0 3
  if cmds = 0 || cmds = 1 || cmds = 2 || cmds = 4 then
    let s1 := if bit v 3 then pauseCh p ch s else unpauseCh p ch s
    match cmds with
    | 1 => startCh p ch s1
    | 2 => resumeCh p ch s1
    | 4 => abortCh p ch s1
    | _ => s1
  else abortCh p ch s

/-- Whether C0–C7, DMA_CH_PROG and DMA_CH_MODE may be written in a state (R275); DMA_CH_MODE in IDLE only. -/
def chWritable (st : ChState) : Bool := decide (st = .idle) || decide (st = .paused) || decide (st = .faulted)

/-- A write of the owner to a channel's registers: refused with ERR in a running channel (R275). -/
def writeChReg (p : Party) (ch : Nat) (ok : Bool) (f : Channel → Channel) (s : State) : State :=
  if !ownsCh p ch then s
  else if !ok then setChErr ch true s
  else setCh ch { f (getCh s ch) with err := false } s

/-- Device time between two assertions of a timer (DMA_TMR_CFG). -/
def timerPeriod (s : State) (n : Nat) : Nat := regFld s (rDMA_TMR_CFG n) 0 30

/-- DMA_TIMER_EXPIRY (R281): the period of a running timer elapses. -/
def execDmaTimerExpiry (n : Nat) (s : State) : Result :=
  match mfind s.dma.timers n with
  | none => .next s
  | some t =>
    let s1 := reachTime t s
    .next (assertLine n { s1 with dma := { s1.dma with timers := minsert s1.dma.timers n (t + timerPeriod s n) } })

/-- A timer configuration has been written: a timer that starts, or restarts with a new period, counts from now (R281). -/
def timerWritten (n : Nat) (s : State) : State :=
  if bit (getReg s (rDMA_TMR_CFG n)) 31 then
    { s with dma := { s.dma with timers := minsert s.dma.timers n (s.now + timerPeriod s n) } }
  else { s with dma := { s.dma with timers := merase s.dma.timers n } }

/-- Whether a party may assert a line by DMA_REQ_SET (R281). -/
def ownsLine (p : Party) (line : Nat) : Bool :=
  match p with
  | .host => decide (64 ≤ line) && decide (line < 96)
  | .service _ => decide (96 ≤ line) && decide (line < 128)
  | .crater => false

/-- DMA_REQ_SET is written (R281, R291). -/
def writeReqSet (p : Party) (line : Nat) (s : State) : State := if ownsLine p line then assertLine line s else s

/-- REQ_SET_WRITE (R281). -/
def execReqSetWrite (p : Party) (line : Nat) (s : State) : Result := .next (writeReqSet p line s)

/-- Whether a party may write a program word (R274). -/
def ownsWord (p : Party) (n : Nat) : Bool :=
  match p with
  | .host => decide (n < 2048)
  | .service _ => decide (2048 ≤ n)
  | .crater => false

/-- Word `n` is about to be rewritten while a channel runs (R274). An instruction that it has begun goes on as it was. A word that it
reaches within its next 4 may have been fetched already: which is a free value. -/
def keepFetched (n : Nat) (e : Nat × Channel) (s : State) : State :=
  let c := e.2
  if (c.state ≠ .run && c.state ≠ .wait) || n < c.pc || c.pc + 4 < n || (mfind c.ahead n).isSome then s
  else
    let begun := decide (n = c.pc) && (c.xfer.isSome || c.waiting.isSome)
    let (k, s1) := takeFree s
    if begun then setCh e.1 { c with ahead := minsert c.ahead n (pmemAt s n) } s
    else if (Config.freeDWord k).getLsbD 0 then setCh e.1 { c with ahead := minsert c.ahead n (pmemAt s n) } s1
    else s1

/-- A word of the program memory is written. -/
def setPmem (n : Nat) (w : DWord) (s : State) : State :=
  let s1 := forEach (keepFetched n) s.dma.chans s
  { s1 with dma := { s1.dma with pmem := mset zero64 s1.dma.pmem n w } }

/-- A write of DMA_PMEM_HI stores the word and increments ADDR (R274). -/
def writePmemHi (p : Party) (hi : Word) (s : State) : State :=
  let n := fld (getView s p rDMA_PMEM_ADDR) 0 13
  let s1 := setView p rDMA_PMEM_HI hi s
  let w := join64 hi (getView s p rDMA_PMEM_LO)
  let s2 := if ownsWord p n then setPmem n w s1 else s1
  setView p rDMA_PMEM_ADDR (putFld 0 13 (n + 1)) s2

/-- PMEM_WORD_WRITE (R274). -/
def execPmemWordWrite (p : Party) (hi : Word) (s : State) : Result := .next (writePmemHi p hi s)

/-- A read of DMA_PMEM_LO: the low half of the word at ADDR; the high half is latched. -/
def readPmemLo (p : Party) (s : State) : Word × State :=
  let w := pmemAt s (fld (getView s p rDMA_PMEM_ADDR) 0 13)
  (lo32 w, { s with latch := mset (fun _ => 0) s.latch (viewKey p rDMA_PMEM_LO) (hi32 w) })

/-- A read of DMA_PMEM_HI: the latched half; ADDR is incremented. -/
def readPmemHi (p : Party) (s : State) : Word × State :=
  let n := fld (getView s p rDMA_PMEM_ADDR) 0 13
  (mget (fun _ => 0) s.latch (viewKey p rDMA_PMEM_LO), setView p rDMA_PMEM_ADDR (putFld 0 13 (n + 1)) s)

/-- PMEM_HI_READ (R274). -/
def execPmemHiRead (p : Party) (s : State) : Result :=
  let (v, s1) := readPmemHi p s
  .next (returnValue p rDMA_PMEM_HI v s1)

/-- The program channels of the PF stop without a notification (R289). -/
def stopPfChannels (s : State) : State :=
  forEach (fun ch s => if (getCh s ch).state = .idle then s else idleCh ch 2 s) (span 448 32) s

end Sys2Proof.Machine
end

