-- ==== Sys2Proof/Machine/Mailboxes.lean ====
section
/-! DEFINITION. Mailboxes and doorbells (18_mailboxes.md). MBNn is channel n, MBSn is channel 32 + n. -/

namespace Sys2Proof.Machine

/-- The parties that hold an end of a channel (R420). -/
inductive MbxEnd where
  | host | service | management | crater
deriving DecidableEq, Repr

/-- The end that a party holds. -/
def endOf : Party → MbxEnd
  | .host => .host
  | .service _ => .service
  | .crater => .crater

/-- A channel after reset. -/
def MbxChan.init : MbxChan :=
  { word := 0, loNear := 0, loFar := 0, full := false, turn := false, empty := false, err := false, peerResetHost := false,
    peerResetSvc := false, emptyEn := false, db := 0, dbMask := 0, thread := 0, vector := 0 }

/-- A channel. -/
def getMbx (s : State) (ch : Nat) : MbxChan := mget (fun _ => MbxChan.init) s.mbx.chans ch

/-- The state with a channel replaced. -/
def setMbx (ch : Nat) (c : MbxChan) (s : State) : State :=
  { s with mbx := { s.mbx with chans := mset (fun _ => MbxChan.init) s.mbx.chans ch c } }

/-- A secure channel, MBS0–MBS6. -/
def isSecure (ch : Nat) : Bool := decide (32 ≤ ch) && decide (ch < 39)

/-- The party of a secure channel (R420). -/
def secureParty (ch : Nat) : MbxEnd := if ch < 36 then .host else if ch < 38 then .service else .management

/-- The sender of a channel's words and doorbells; on a secure channel the party, which sends requests (R420). -/
def mbxSender (ch : Nat) : MbxEnd := if ch < 16 then .host else if ch < 32 then .service else secureParty ch

/-- The end that words and doorbells go to: the receiver of an MBN channel, the party of a secure one, for answers (R420). -/
def mbxReceiver (ch : Nat) : MbxEnd := if ch < 16 then .service else if ch < 32 then .host else secureParty ch

/-- Whether an end is named for a channel (R420). MBS7 is never used. -/
def mbxNamed (e : MbxEnd) (ch : Nat) : Bool :=
  decide (ch < 39) && (decide (e = mbxSender ch) || decide (e = mbxReceiver ch) || (isSecure ch && decide (e = .crater)))

/-- The notification of an end (R420): a PF vector, an event of the thread that the channel names, nothing for the others. -/
def mbxNotify (e : MbxEnd) (ch : Nat) (s : State) : State :=
  let c := getMbx s ch
  match e with
  | .host => sendMsix pf c.vector.toNat s
  | .service => raiseThread c.thread.toNat 4 s
  | .management => s
  | .crater => s

/-- A write that is refused (R421). -/
def mbxRefuse (ch : Nat) (s : State) : State := incr cMBX_OVERRUN (setMbx ch { getMbx s ch with err := true } s)

/-- MBX_WORD_LO is written: kept at its end until HI commits it (R421). -/
def writeMbxLo (e : MbxEnd) (ch : Nat) (v : Word) (s : State) : State :=
  let c := getMbx s ch
  if !mbxNamed e ch then s
  else if e = mbxSender ch then setMbx ch { c with loNear := v } s
  else if e = .crater then setMbx ch { c with loFar := v } s
  else s

/-- A committed word is counted. -/
def mbxCommitted (ch : Nat) (c : MbxChan) (s : State) : State := incr cMBX_MSGS (setMbx ch c s)

/-- Doorbell bits are set; unmasked ones notify the receiver (R423). -/
def setDoorbell (ch : Nat) (v : Word) (s : State) : State :=
  let c := getMbx s ch
  let s1 := setMbx ch { c with db := c.db ||| v } s
  if v &&& c.dbMask = 0 then s1 else mbxNotify (mbxReceiver ch) ch s1

/-- Crater's answer to a request that it has read (R422). An answer that a reset discards is not written (R426). -/
def answerRequest (ch : Nat) (w : DWord) (s : State) : State :=
  let s1 := { s with mbx := { s.mbx with taken := merase s.mbx.taken ch, discard := s.mbx.discard.filter (fun k => decide (k ≠ ch)) } }
  if s.mbx.discard.contains ch then s1
  else setDoorbell ch 1 (mbxCommitted ch { getMbx s1 ch with word := w, full := true } s1)

/-- A write of MBX_WORD_HI (R421, R422). -/
def commitWord (e : MbxEnd) (ch : Nat) (hi : Word) (s : State) : State :=
  let c := getMbx s ch
  if !mbxNamed e ch then s
  else if isSecure ch then
    if e = .crater then
      (if c.turn && !c.full && (mfind s.mbx.taken ch).isSome then answerRequest ch (join64 hi c.loFar) s else mbxRefuse ch s)
    else if c.full || c.turn then mbxRefuse ch s
    else
      let s1 := mbxCommitted ch { c with word := join64 hi c.loNear, full := true, turn := true } s
      { s1 with mbx := { s1.mbx with requests := s1.mbx.requests ++ [ch] } }
  else if e ≠ mbxSender ch then s
  else if c.full then mbxRefuse ch s
  else mbxNotify (mbxReceiver ch) ch (mbxCommitted ch { c with word := join64 hi c.loNear, full := true } s)

/-- MBX_WORD_COMMIT (R421). -/
def execMbxWordCommit (p : Party) (ch : Nat) (hi : Word) (s : State) : Result := .next (commitWord (endOf p) ch hi s)

/-- FULL falls to 0: EMPTY at the sender's end, which is notified when EMPTY_EN is set (R424). -/
def wordReleased (ch : Nat) (s : State) : State :=
  let c := getMbx s ch
  let s1 := setMbx ch { c with full := false, empty := true } s
  if c.emptyEn then mbxNotify (mbxSender ch) ch s1 else s1

/-- Whether the word of a secure channel is an answer: its request has been read. -/
def holdsAnswer (s : State) (ch : Nat) : Bool :=
  let c := getMbx s ch
  c.full && c.turn && !s.mbx.requests.contains ch

/-- A word or answer is released (R421, R422). -/
def releaseWord (e : MbxEnd) (ch : Nat) (s : State) : State :=
  let c := getMbx s ch
  if !mbxNamed e ch || !c.full then s
  else if isSecure ch then
    (if e ≠ .crater && holdsAnswer s ch then setMbx ch { c with full := false, turn := false } s else s)
  else if e = mbxReceiver ch then wordReleased ch s else s

/-- MBX_RELEASE (R424). -/
def execMbxRelease (p : Party) (ch : Nat) (s : State) : Result := .next (releaseWord (endOf p) ch s)

/-- A write of MBX_DB_SET (R422, R423): by the sender; on a secure channel by Crater alone. -/
def writeDbSet (e : MbxEnd) (ch : Nat) (v : Word) (s : State) : State :=
  if !mbxNamed e ch then s
  else if isSecure ch then (if e = .crater then setDoorbell ch v s else s)
  else if e = mbxSender ch then setDoorbell ch v s else s

/-- MBX_DB_SET (R423). -/
def execMbxDbSet (p : Party) (ch : Nat) (v : Word) (s : State) : Result := .next (writeDbSet (endOf p) ch v s)

/-- A write of MBX_DB clears the bits written as 1 (R423). -/
def writeDb (e : MbxEnd) (ch : Nat) (v : Word) (s : State) : State :=
  let c := getMbx s ch
  if mbxNamed e ch && e = mbxReceiver ch then setMbx ch { c with db := c.db &&& ~~~v } s else s

/-- A write of MBX_DB_MASK: a MASK bit written as 1 whose DB bit is set notifies at once (R423). -/
def writeDbMask (e : MbxEnd) (ch : Nat) (v : Word) (s : State) : State :=
  let c := getMbx s ch
  if mbxNamed e ch && e = mbxReceiver ch then
    let s1 := setMbx ch { c with dbMask := v } s
    if v &&& c.db = 0 then s1 else mbxNotify e ch s1
  else s

/-- MBX_DB_MASK_WRITE (R423). -/
def execMbxDbMaskWrite (p : Party) (ch : Nat) (v : Word) (s : State) : Result := .next (writeDbMask (endOf p) ch v s)

/-- EMPTY_EN is written by the sender; setting it while EMPTY is 1 notifies at once (R424). -/
def writeEmptyEn (e : MbxEnd) (ch : Nat) (on : Bool) (s : State) : State :=
  let c := getMbx s ch
  if mbxNamed e ch && e = mbxSender ch then
    let s1 := setMbx ch { c with emptyEn := on } s
    if on && c.empty then mbxNotify e ch s1 else s1
  else s

/-- EMPTY_EN_WRITE (R424). -/
def execEmptyEnWrite (p : Party) (ch : Nat) (s : State) : Result := .next (writeEmptyEn (endOf p) ch true s)

/-- A write of MBX_CH_CTL (R421, R424): RELEASE first, then EMPTY_EN. -/
def writeMbxCtl (e : MbxEnd) (ch : Nat) (v : Word) (s : State) : State :=
  let s1 := if bit v 0 then releaseWord e ch s else s
  writeEmptyEn e ch (bit v 1) s1

/-- Value of MBX_CH_STATUS at an end. -/
def mbxStatus (e : MbxEnd) (c : MbxChan) : Word :=
  putBit 0 c.full ||| putBit 1 c.turn ||| putBit 2 c.empty ||| putBit 3 c.err
    ||| putBit 4 (match e with | .service => c.peerResetSvc | _ => c.peerResetHost)

/-- A write of MBX_CH_STATUS clears EMPTY, ERR and PEER_RESET where written as 1. EMPTY belongs to the sender's end. -/
def writeMbxStatus (e : MbxEnd) (ch : Nat) (v : Word) (s : State) : State :=
  let c := getMbx s ch
  if !mbxNamed e ch || e = .crater then s
  else
    let c1 := { c with empty := c.empty && !(bit v 2 && decide (e = mbxSender ch)), err := c.err && !bit v 3 }
    let c2 := match e with
      | .service => { c1 with peerResetSvc := c1.peerResetSvc && !bit v 4 }
      | _ => { c1 with peerResetHost := c1.peerResetHost && !bit v 4 }
    setMbx ch c2 s

/-- A write of MBX_CH_CFG: each end writes the field of its own notification. -/
def writeMbxCfg (e : MbxEnd) (ch : Nat) (v : Word) (s : State) : State :=
  let c := getMbx s ch
  if !mbxNamed e ch then s
  else match e with
    | .host => setMbx ch { c with vector := BitVec.ofNat 11 (fld v 16 11) } s
    | .service => setMbx ch { c with thread := BitVec.ofNat 8 (fld v 0 8) } s
    | _ => s

/-- A channel that a reset clears (R426): FULL, DB and MASK; a secure one loses its request, and an answer under way is discarded. -/
def clearMbx (ch : Nat) (s : State) : State :=
  let s1 := setMbx ch { getMbx s ch with full := false, turn := false, db := 0, dbMask := 0 } s
  let discard := if (mfind s1.mbx.taken ch).isSome then s1.mbx.discard ++ [ch] else s1.mbx.discard
  clearLatches (fun o => o = rMBX_WORD ch + 4)
    { s1 with mbx := { s1.mbx with requests := s1.mbx.requests.filter (fun k => decide (k ≠ ch)), discard := discard } }

/-- PF FLR or PCIe reset of the PF (R426). -/
def resetMbxHost (s : State) : State :=
  let s1 := forEach clearMbx (span 32 4) (forEach clearMbx (span 0 32) s)
  forEach (fun ch s => mbxNotify .service ch (setMbx ch { getMbx s ch with peerResetSvc := true } s)) (span 0 32) s1

/-- Service cluster reset or core power-down (R426). -/
def resetMbxService (s : State) : State :=
  let s1 := forEach clearMbx (span 36 2) (forEach clearMbx (span 0 32) s)
  forEach (fun ch s => mbxNotify .host ch (setMbx ch { getMbx s ch with peerResetHost := true } s)) (span 0 32) s1

/-- Crater restart (R426): every secure channel is cleared, and requests not yet answered receive no answer. -/
def resetMbxCrater (s : State) : State :=
  let clear := fun (ch : Nat) (s : State) =>
    let s1 := clearMbx ch s
    setMbx ch { getMbx s1 ch with peerResetHost := true, peerResetSvc := true } s1
  let s2 := forEach clear (span 32 7) s
  { s2 with mbx := { s2.mbx with requests := [], taken := [], discard := [] } }

/-- Whether the SMBus port answers (R517): in P0–P2, Refuge mode and the recovery hold. -/
def smbAnswers (s : State) : Bool := decide (s.pcr.phase = .running) && decide (s.pcr.power ≠ .p3)

/-- The device sends an MCTP response (R532); it is kept until the next request, should arbitration be lost. -/
def smbRespond (bs : Bytes) (s : State) : State :=
  emit (.smbus bs) { s with mbx := { s.mbx with smbResponse := some bs, smbRetries := 0 } }

/-- A request over MCTP is acted on when the port answers. -/
def onMctp (f : State → State) (s : State) : Result := .next (if smbAnswers s then f s else s)

/-- MCTP_WRITE (R427): both halves of a word on MBS6. -/
def execMctpWrite (word : DWord) (s : State) : Result :=
  onMctp (fun s =>
    let c := getMbx s 38
    let ok := !c.full && !c.turn
    let s1 := commitWord .management 38 (hi32 word) (writeMbxLo .management 38 (lo32 word) s)
    smbRespond [if ok then 0 else 1] s1) s

/-- MCTP_READ (R427): completion code, status and word; EMPTY is cleared at the management end. -/
def execMctpRead (s : State) : Result :=
  onMctp (fun s =>
    let c := getMbx s 38
    let st := (if c.full then 1 else 0) + (if c.turn then 2 else 0) + (if c.empty then 4 else 0)
    smbRespond ([0, BitVec.ofNat 8 st] ++ toLe 8 c.word.toNat) (setMbx 38 { c with empty := false } s)) s

/-- MCTP_RELEASE (R427). -/
def execMctpRelease (s : State) : Result := onMctp (fun s => smbRespond [0] (releaseWord .management 38 s)) s

/-- SMB_ERRSRC_READ (R532): completion code 0 and the byte, which the read clears. -/
def execSmbErrsrcRead (s : State) : Result :=
  onMctp (fun s => smbRespond [0, s.mbx.smbErrsrc] { s with mbx := { s.mbx with smbErrsrc := 0 } }) s

/-- SMB_ARBITRATION_LOST (R532): a response that loses arbitration is sent again up to three times, then discarded. -/
def execSmbArbitrationLost (s : State) : Result :=
  match s.mbx.smbResponse with
  | none => .next s
  | some bs =>
    if s.mbx.smbRetries < 3 then
      .next (emit (.smbus bs) { s with mbx := { s.mbx with smbRetries := s.mbx.smbRetries + 1, smbErrsrc := s.mbx.smbErrsrc ||| 1 } })
    else .next { s with mbx := { s.mbx with smbResponse := none, smbErrsrc := s.mbx.smbErrsrc ||| 3 } }

/-- SMB_SCL_TIMEOUT (R517): both lines are released, and a partial packet is discarded. -/
def execSmbSclTimeout (s : State) : Result :=
  if smbAnswers s then .next { s with mbx := { s.mbx with smbResponse := none, smbErrsrc := s.mbx.smbErrsrc ||| 4 } } else .next s

end Sys2Proof.Machine
end

