-- ==== Sys2Proof/Machine/Pools.lean ====
section
/-! DEFINITION. The buffer pool manager (12_buffer_pools.md): requests, waits, fallbacks, frees, quotas and rebuilds. -/

namespace Sys2Proof.Machine

/-- Bytes of a buffer by the SIZE code of POOL_CFG (R292). -/
def poolBytes (code : Nat) : Nat :=
  match code with
  | 1 => 256 | 2 => 512 | 3 => 1024 | 4 => 2048 | 5 => 4096 | 6 => 9216 | 7 => 16384 | _ => 0

/-- A pool that the image does not set. -/
def Pool.none_ : Pool :=
  { size := 0, hbm := false, fallback := 0, noFallback := true, use := 0, count := 0, lsMin := 0, coreMin := 0, svcMin := 0, stack := [],
    fresh := 0, lost := 0 }

/-- A pool. -/
def getPool (s : State) (n : Nat) : Pool := (mfind s.pool.pools n).getD Pool.none_

/-- The state with a pool replaced. -/
def setPool (n : Nat) (p : Pool) (s : State) : State := { s with pool := { s.pool with pools := minsert s.pool.pools n p } }

/-- Free buffers of a pool. -/
def Pool.free (p : Pool) : Nat := p.stack.length + (p.count - p.fresh)

/-- The first free buffer (POOL_HEADn). -/
def Pool.head (p : Pool) : Nat := match p.stack with | b :: _ => b | [] => p.fresh

/-- The pool with its first free buffer taken. -/
def Pool.take (p : Pool) : Pool :=
  match p.stack with
  | _ :: bs => { p with stack := bs }
  | [] => { p with fresh := p.fresh + 1 }

/-- Bit of a purpose in USE. -/
def useBit : PoolPurpose → Nat
  | .netRx => 0
  | .netTx => 0
  | .stor => 1
  | .svc => 2
  | .core => 3

/-- The first-choice pool of a request (R294). -/
def firstChoice (s : State) (purpose : PoolPurpose) (len : Nat) : Option Nat :=
  (List.range 16).find? (fun n =>
    let p := getPool s n
    p.use.getLsbD (useBit purpose) && decide (0 < poolBytes p.size) && decide (len ≤ poolBytes p.size))

/-- Groups with reserved minima (R298). -/
inductive PoolGroup where
  | ls | core | svc | tenant
deriving DecidableEq, Repr

/-- The group of a request, or of a held buffer. A class-7 request is an LS request, whatever its purpose (R293). -/
def groupOf (purpose : PoolPurpose) (ls : Bool) : PoolGroup :=
  if ls then .ls else match purpose with | .core => .core | .svc => .svc | _ => .tenant

/-- The buffers in use of one pool. -/
def heldIn (s : State) (n : Nat) : List HeldBuffer := (s.pool.held.filter (fun e => decide (e.1 / 2 ^ 24 = n))).map Prod.snd

/-- MIN of a group in a pool. -/
def Pool.minOf (p : Pool) : PoolGroup → Nat
  | .ls => p.lsMin
  | .core => p.coreMin
  | .svc => p.svcMin
  | .tenant => 0

/-- The unused minimum of a group (R298). -/
def unusedMin (s : State) (n : Nat) (g : PoolGroup) : Nat :=
  (getPool s n).minOf g - ((heldIn s n).filter (fun h => decide (groupOf h.purpose h.ls = g))).length

/-- Quotas from reset: the VF defaults. -/
def PoolQuota.initial : PoolQuota := { netRx := 16384, netTx := 16384, stor := 65536 }

/-- Quotas of an instance as written. -/
def quotaOf (s : State) (inst : Nat) : PoolQuota := mget (fun _ => PoolQuota.initial) s.pool.quotas inst

/-- The quota in force: the network quotas of a VF shed at level 2 or 3 are 0 (R301). -/
def quotaInForce (s : State) (inst : Nat) (purpose : PoolPurpose) : Nat :=
  let q := quotaOf s inst
  let net := if 2 ≤ shedAt s .pool inst then 0 else 1
  match purpose with
  | .netRx => q.netRx * net
  | .netTx => q.netTx * net
  | _ => q.stor

/-- Units of 256 bytes that an instance holds for a purpose. -/
def heldUnits (s : State) (inst : Nat) (purpose : PoolPurpose) : Nat :=
  (s.pool.held.filter (fun e => decide (e.2.inst = inst) && decide (e.2.purpose = purpose) && !e.2.ls)).foldl
    (fun n e => n + poolBytes (getPool s (e.1 / 2 ^ 24)).size / 256) 0

/-- What a judgement of R298 gives. -/
inductive Judgement where
  | ok | quota | empty
deriving DecidableEq, Repr

/-- The judgement of R298 at a pool. A pool under REBUILD grants nothing. -/
def judge (s : State) (r : PoolReq) (n : Nat) : Judgement :=
  let p := getPool s n
  let g := groupOf r.purpose r.ls
  let units := poolBytes p.size / 256
  let above := decide (quotaInForce s r.inst r.purpose < heldUnits s r.inst r.purpose + units)
  if s.pool.service && decide (g = .tenant) && decide (r.inst ≤ pf) && above then .quota
  else
    let keep := (([PoolGroup.ls, .core, .svc].filter (fun h => decide (h ≠ g))).map (unusedMin s n)).foldl (· + ·) 0
    if s.pool.rebuilding = some n || decide (p.free < keep + 1) then .empty else .ok

/-- The answer to a request. -/
def replyPool (id : Nat) (a : PoolAnswer) (s : State) : State :=
  { s with pool := { s.pool with replies := s.pool.replies ++ [{ id := id, answer := a }] } }

/-- The list of a pool is cut behind the buffer just taken (R296). -/
def cutList (n : Nat) (s : State) : State :=
  let p := getPool s n
  evPool 0 (setPool n { p with stack := [], fresh := p.count, lost := p.lost + p.free } s)

/-- A storage instance goes on once a buffer is granted to it (R300). -/
def endDeferral (r : PoolReq) (s : State) : State :=
  if r.purpose = .stor then { s with pool := { s.pool with deferred := s.pool.deferred.filter (fun i => decide (i ≠ r.inst)) } } else s

/-- A buffer is granted from a pool; its link is read for the new head (R295, R296). -/
def grant (r : PoolReq) (n : Nat) (s : State) : State :=
  let p := getPool s n
  let b := p.head
  let h : HeldBuffer := { inst := r.inst, purpose := r.purpose, ls := r.ls }
  let s0 := if p.hbm then hbmBlockRead r.link s else s
  let s1 := setPool n p.take (incr (cPOOL_ALLOCS n) s0)
  let s2 := { s1 with pool := { s1.pool with held := minsert s1.pool.held (2 ^ 24 * n + b) h } }
  let s3 := match r.link with
    | .clean => s2
    | .corrected => incr (cPOOL_LINK_CORR n) s2
    | .uncorrectable => cutList n s2
  replyPool r.id (.granted n b) (endDeferral r s3)

/-- The transmit jobs of an instance are held until it asks again (R300). -/
def holdTx (inst : Nat) (s : State) : State :=
  { s with pool := { s.pool with txHeld := minsert s.pool.txHeld inst (s.now + regFld s rPOOL_CTL 0 14) } }

/-- The storage work of an instance is deferred (R300). -/
def deferStor (inst : Nat) (s : State) : State :=
  if s.pool.deferred.contains inst then s else { s with pool := { s.pool with deferred := s.pool.deferred ++ [inst] } }

/-- What a refusal does besides the answer (R300): a receive frame is dropped, an LS or CORE frame is dropped with an event, a transmit
job is held and storage work deferred. -/
def refuseEffects (r : PoolReq) (n : Nat) (s : State) : State :=
  if r.ls || r.purpose = .core then evPool 1 (incr (cPOOL_LS_DROP n) s)
  else match r.purpose with
    | .netRx => incr (cPOOL_RX_DROP n) s
    | .netTx => holdTx r.inst s
    | .stor => deferStor r.inst s
    | _ => s

/-- POOL_REQUEST (R299): steps 1 to 3. A request for which no pool qualifies is refused (R294). In Refuge mode the pools serve CORE only
(20_reset_power_clocks.md, R458 and R459): every other request is refused. -/
def execPoolRequest (r : PoolReq) (s : State) : Result :=
  match firstChoice s r.purpose r.len with
  | none => .next (replyPool r.id .malformed s)
  | some n =>
    if s.pcr.refuge && decide (r.purpose ≠ .core) then
      .next (replyPool r.id .poolEmpty (refuseEffects r n (incr (cPOOL_EMPTY_REFUSE n) s)))
    else match judge s r n with
    | .ok => .next (grant r n s)
    | .quota => .next (replyPool r.id .poolEmpty (refuseEffects r n (incr (cPOOL_QUOTA_REFUSE n) s)))
    | .empty => .next { s with pool := { s.pool with waits := s.pool.waits ++ [{ req := r, pool := n, since := s.now }] } }

/-- The fallback pool is judged once (R299 steps 4 and 5). In Refuge mode an HBM fallback is not judged. -/
def tryFallback (w : PoolWait) (s : State) : State :=
  let p := getPool s w.pool
  let f := p.fallback
  let none_ := refuseEffects w.req w.pool (incr (cPOOL_EMPTY_REFUSE w.pool) s)
  if p.noFallback || (s.pcr.refuge && (getPool s f).hbm) then replyPool w.req.id .poolEmpty none_
  else match judge s w.req f with
    | .ok => incr (cPOOL_FALLBACK f) (grant w.req f s)
    | .quota => replyPool w.req.id .poolEmpty (refuseEffects w.req w.pool (incr (cPOOL_QUOTA_REFUSE f) s))
    | .empty => replyPool w.req.id .poolEmpty none_

/-- A wait ends: the time that it took is counted. -/
def endWait (w : PoolWait) (s : State) : State :=
  let s1 := { s with pool := { s.pool with waits := s.pool.waits.filter (fun v => decide (v.req.id ≠ w.req.id)) } }
  addCtr (cPOOL_WAIT_NS_SUM w.pool) (s.now - w.since) s1

/-- POOL_WAIT_EXPIRY (R299): POOL_CTL.WAIT_NS has passed for a waiting request. -/
def execPoolWaitExpiry (id : Nat) (s : State) : Result :=
  match s.pool.waits.find? (fun w => decide (w.req.id = id)) with
  | none => .next s
  | some w => .next (tryFallback w (endWait w (reachTime (w.since + regFld s rPOOL_CTL 0 14) s)))

/-- Order in which waiting requests are granted: LS, then CORE, then the others in round robin by instance (R301). -/
def waitRank (w : PoolWait) : Nat := match groupOf w.req.purpose w.req.ls with | .ls => 0 | .core => 1 | _ => 2

/-- The next waiting request of a pool that can be granted. -/
def nextWait (s : State) (n : Nat) : Option PoolWait :=
  let ws := s.pool.waits.filter (fun w => decide (w.pool = n) && decide (judge s w.req n = .ok))
  let rest := ws.filter (fun w => waitRank w = 2)
  let after := fun (w : PoolWait) => decide (mget (fun _ => 0) s.pool.lastInst n < w.req.inst)
  let insts := rest.map (fun w => w.req.inst)
  let inst := ((rest.filter after).map (fun w => w.req.inst)).min?.or insts.min?
  (ws.filter (fun w => waitRank w = 0) ++ ws.filter (fun w => waitRank w = 1) ++ rest.filter (fun w => some w.req.inst = inst)).head?

/-- The round robin of a pool goes on from the instance just served (R301). -/
def noteServed (w : PoolWait) (s : State) : State :=
  if waitRank w = 2 then { s with pool := { s.pool with lastInst := minsert s.pool.lastInst w.pool w.req.inst } } else s

/-- Buffers that have become grantable go to the requests that wait for the pool. -/
def serveWaits (n : Nat) : Nat → State → State
  | 0, s => s
  | fuel + 1, s =>
    match nextWait s n with
    | none => s
    | some w => serveWaits n fuel (noteServed w (grant w.req n (endWait w s)))

/-- BUFFER_FREE (R301): the last reader of a buffer has finished with it. -/
def execBufferFree (pool buffer : Nat) (s : State) : Result :=
  let key := 2 ^ 24 * pool + buffer
  match mfind s.pool.held key with
  | none => .next s
  | some h =>
    let p := getPool s pool
    let s1 := setPool pool { p with stack := buffer :: p.stack } s
    let txHeld := if h.purpose = .netTx && !h.ls then merase s1.pool.txHeld h.inst else s1.pool.txHeld
    .next (serveWaits pool s.pool.waits.length { s1 with pool := { s1.pool with held := merase s1.pool.held key, txHeld := txHeld } })

/-- POOL_CTL.ERR. -/
def setPoolErr (b : Bool) (s : State) : State := setRegFld rPOOL_CTL 30 1 (if b then 1 else 0) s

/-- REBUILD (R296): refused while a buffer of the pool is in use; ignored while one runs (R541). -/
def startRebuild (p : Party) (pool : Nat) (s : State) : State :=
  if isCrater p || s.pool.rebuilding.isSome then s
  else if (heldIn s pool).length ≠ 0 then setPoolErr true s
  else setPoolErr false { s with pool := { s.pool with rebuilding := some pool, rebuildAt := s.now } }

/-- POOL_REBUILD (R296): POOL_CTL is written with a pool and REBUILD. -/
def execPoolRebuild (p : Party) (pool : Nat) (s : State) : Result :=
  .next (startRebuild p (pool % 16) (if isCrater p then s else setRegFld rPOOL_CTL 16 4 pool s))

/-- REBUILD_DONE (R296, R302): all buffers of the pool are in a new list, at least 1 µs after the command. -/
def execRebuildDone (pool : Nat) (s0 : State) : Result :=
  if s0.pool.rebuilding ≠ some pool then .next s0
  else
    let s := reachTime (s0.pool.rebuildAt + us 1) s0
    let p := getPool s pool
    let s1 := setPool pool { p with stack := [], fresh := 0, lost := 0 } s
    .next (serveWaits pool s.pool.waits.length { s1 with pool := { s1.pool with rebuilding := none } })

/-- The quota entry of an instance as the data registers hold it. -/
def quotaBytes (s : State) (inst : Nat) : Bytes :=
  let q := quotaOf s inst
  toLe 4 q.netRx ++ toLe 4 q.netTx ++ toLe 4 q.stor ++ toLe 4 (heldUnits s inst .netRx) ++ toLe 4 (heldUnits s inst .netTx)
    ++ toLe 4 (heldUnits s inst .stor)

/-- An operation on the quotas of the instance in POOL_IND_ADDR. Bits [31:24] of every data register are reserved, and a 1 in one of them
refuses the entry (R6). -/
def poolIndOp (p : Party) (op : TableOp) (s : State) : TableReply × State :=
  let inst := fld (getView s p rPOOL_IND_ADDR) 0 13
  let d := viewBytes s p (rPOOL_IND_DATA 0) 6
  let q : PoolQuota := { netRx := leAt d 0 3, netTx := leAt d 4 3, stor := leAt d 8 3 }
  if pf < inst then (refuse 1, s)
  else if op = .read then (readBack inst (quotaBytes s inst), s)
  else if [3, 7, 11, 15, 19, 23].any (fun k => decide (byteAt d k ≠ 0)) then (refuse 3, s)
  else if q.netRx = 0 || q.netTx = 0 || q.stor = 0 then (refuse 3, s)
  else (wrote inst, { s with pool := { s.pool with quotas := mset (fun _ => PoolQuota.initial) s.pool.quotas inst q } })

/-- POOL_IND_READ (R301). -/
def execPoolIndRead (p : Party) (s : State) : Result :=
  let (r, s1) := poolIndOp p .read s
  .next (showReply p rPOOL_IND_CTL (rPOOL_IND_DATA 0) 6 .read r s1)

/-- POOL_IND_WRITE (R301): quotas are written by the PF and by service firmware (R303). -/
def execPoolIndWrite (p : Party) (s : State) : Result :=
  if isCrater p then .next s
  else
    let (r, s1) := poolIndOp p .write s
    .next (showReply p rPOOL_IND_CTL (rPOOL_IND_DATA 0) 6 .write r s1)

end Sys2Proof.Machine
end

