-- ==== Sys2Proof/Machine/Queues.lean ====
section
/-! DEFINITION. Queue pairs (R250–R265, R542): doorbells, completion entries and interrupts, jobs, and queue resets. Positions count
descriptors and entries since the queue was configured. -/

namespace Sys2Proof.Machine

/-- Queue of an admin ring. -/
def adminQp (svcRing : Bool) : Nat := if svcRing then svcRingQp else 0

/-- The state with a queue pair replaced. -/
def setQueue (qp : Nat) (q : Queue) (s : State) : State :=
  { s with wqm := { s.wqm with queues := mset (fun _ => Queue.init) s.wqm.queues qp q } }

/-- Descriptors in the SQ. -/
def Queue.sqSize (q : Queue) : Nat := 2 ^ q.sqLog2

/-- Free slots of the SQ (R252). -/
def Queue.freeSlots (q : Queue) : Nat := q.sqSize - (q.tail - q.freed)

/-- Bytes written for a queue into its function's memory; those of the service ring into service-cluster memory (R266). -/
def queueStore (qp addr : Nat) (bs : Bytes) (ro : Bool) (s : State) : State :=
  if qp = svcRingQp then svcStore none addr bs s else hostWrite (getQueue s qp).inst addr bs ro s

/-- The completion interrupt of a queue is sent: its CQ is disarmed and all entries are signalled (R262). -/
def sendInterrupt (qp : Nat) (s : State) : State :=
  let q := getQueue s qp
  sendMsix q.inst q.vector (incr cWQM_INTR_SENT (setQueue qp { q with armed := false, unsignalled := 0, firstUnsig := none } s))

/-- Byte 3 of a completion entry: PHASE, FRAME_FIRST, FRAME_LAST, TSTAMP and QERR (R258, R259). -/
def entryFlags (q : Queue) (r : JobResult) : Nat :=
  (if q.written / q.cqSize % 2 = 0 then 1 else 0) + (if r.first then 2 else 0) + (if r.last then 4 else 0)
    + (if r.tstamp then 8 else 0) + (if r.qerr then 16 else 0)

/-- A completion entry (R258). -/
def entryBytes (q : Queue) (lastPos : Nat) (r : JobResult) : Bytes :=
  toLe 2 (lastPos % q.sqSize) ++ [r.status, BitVec.ofNat 8 (entryFlags q r)] ++ toLe 4 r.count.toNat ++ toLe 8 r.value.toNat

/-- SIGNAL of a job (R255). -/
def Job.signal (j : Job) : Bool := nbit (byteAt j.lastDesc 1) 4

/-- BARRIER of a job (R255). -/
def Job.barrierBit (j : Job) : Bool := nbit (byteAt j.lastDesc 1) 3

/-- TAG that a descriptor list returns: bytes 16–23 of the LAST descriptor, 0 where it is inline (R258). -/
def descTag (ds : List Bytes) : DWord :=
  match ds.getLast? with
  | some d => if nbit (byteAt d 1) 5 then 0 else BitVec.ofNat 64 (leAt d 16 8)
  | none => 0

/-- A result without a time: VALUE is the TAG (R258). -/
def plainResult (ds : List Bytes) (st : Status) (count : Nat) : JobResult :=
  { status := BitVec.ofNat 8 st.code, count := BitVec.ofNat 32 count, value := descTag ds, tstamp := false, qerr := false, first := true,
    last := true }

/-- A failing result (R264). -/
def failedResult (ds : List Bytes) (st : Status) : JobResult := { plainResult ds st 0 with qerr := true }

/-- Whether an interrupt condition of R262 holds once an entry has been written. -/
def interruptDueFor (q : Queue) (signal qerr : Bool) : Bool :=
  q.armed && (decide (q.modCount ≤ q.unsignalled) || decide (q.modUs = 0) || signal || qerr)

/-- The result of a job as its queue reports it: an admin command that fails or is flushed has VALUE 0 (R258, R267). -/
def reported (q : Queue) (j : Job) (r : JobResult) : JobResult :=
  if q.kind = .admin && decide (128 ≤ byteAt j.lastDesc 0) && (r.qerr || r.status = 1) then { r with value := 0 } else r

/-- The entry of the first job of a queue is written (R258–R262, R264). -/
def writeEntry (qp : Nat) (q : Queue) (j : Job) (r0 : JobResult) (rest : List Job) (s : State) : State :=
  let r := reported q j r0
  let addr := q.cqBase + 16 * (q.written % q.cqSize)
  let s1 := queueStore qp addr (entryBytes q j.lastPos r) false s
  let q1 := { q with jobs := rest, written := q.written + 1, freed := j.lastPos + 1, unsignalled := q.unsignalled + 1,
                     firstUnsig := some (q.firstUnsig.getD s.now) }
  let q2 := if r.qerr then { q1 with state := .error, qerr := some (j.lastPos % q.sqSize, r.status) } else q1
  let s2 := incr cWQM_CPL_WRITTEN (setQueue qp q2 s1)
  let s3 := if r.status = 13 then incr cWQM_SHED s2 else if r.status = 1 then incr cWQM_FLUSHED s2 else s2
  let s4 := if r.qerr then evWqm 0 s3 else s3
  if qp = svcRingQp then raiseThread 0 5 s4
  else if interruptDueFor q2 j.signal r.qerr then sendInterrupt qp s4 else s4

/-- Whether a queue may write entries: behind a failing completion it writes none but those of its reset (R264); after a refused doorbell
the jobs in execution still write theirs (R252, R265). -/
def Queue.mayWrite (q : Queue) : Bool :=
  match q.state with
  | .run => true
  | .error => q.qerr.isNone || (match q.resets with | r :: _ => r.started | [] => false)
  | .disabled => false

/-- The entries of finished jobs are written in order, while the CQ has room (R23, R260, R261). -/
def writeEntries (qp : Nat) : Nat → State → State
  | 0, s => s
  | fuel + 1, s =>
    let q := getQueue s qp
    match q.jobs with
    | [] => s
    | j :: rest =>
      match j.phase with
      | .done r => if q.mayWrite && !q.cqFull && !j.barrier then writeEntries qp fuel (writeEntry qp q j r rest s) else s
      | _ => s

/-- The state of an LS queue pair when it is set up: RUN, its CQ armed (R542). -/
def lsContext (s : State) (qp : Nat) : Option Queue := (mfind s.wqm.lsImage qp).map (fun q => { q with state := .run, armed := true })

/-- Commands of the storage engine that a queue has issued lose their owner: their ends are not reported to it. -/
def orphanCommands (qp : Nat) (s : State) : State :=
  let f := fun (_ : Nat) (c : StorCmd) => match c.owner with
    | .queue p _ => if p = qp then { c with owner := .gone } else c
    | .jnl _ _ => if qp = 0 then { c with owner := .gone } else c
    | _ => c
  { s with str := { s.str with cmds := mmap f s.str.cmds } }

/-- An admin job that finishes: the ring, and its result. -/
structure AdminEnd where
  ring : Bool
  status : Status
  count : Nat
  value : DWord
deriving DecidableEq, Repr

/-- The result of an admin command (R267): COUNT and VALUE as the command gives them. -/
def adminResult (st : Status) (count : Nat) (value : DWord) (qerr : Bool) : JobResult :=
  { status := BitVec.ofNat 8 st.code, count := BitVec.ofNat 32 count, value := value, tstamp := false, qerr := qerr, first := true,
    last := true }

/-- The job at position `pos` is marked finished when it has not finished before. -/
def markDone (pos : Nat) (r : JobResult) : List Job → List Job
  | [] => []
  | j :: js =>
    if j.lastPos = pos then (match j.phase with | .done _ => j :: js | _ => { j with phase := .done r } :: js) else j :: markDone pos r js

/-- The resets of a queue pair that can end do so (R265): a first one whose FLUSHED entries are all written, and every one that finds
the queue DISABLED. Answers the admin commands that complete. -/
def endResets : List QueueResetReq → QueueState → Bool → Nat → List AdminEnd × List QueueResetReq × QueueState
  | [], st, _, _ => ([], [], st)
  | r :: rs, st, empty, tail =>
    let finished := r.started && empty
    if st = .disabled || finished then
      let st1 := if st = .disabled || r.disable then .disabled else .run
      let rs1 := match rs with | n :: ns => { n with tail := tail } :: ns | [] => []
      let (ends, left, st2) := endResets rs st1 false tail
      let left1 := if left.length = rs.length then rs1 else left
      match r.ring with
      | some g => ({ ring := g, status := .ok, count := r.flushed, value := 0 } :: ends, left1, st2)
      | none => (ends, left1, st2)
    else ([], r :: rs, st)

/-- A queue pair after its entries have been written: resets that have ended, and the admin commands that complete with them. -/
def endQueueResets (qp : Nat) (s : State) : List AdminEnd × State :=
  let q := getQueue s qp
  let (ends, left, st) := endResets q.resets q.state q.jobs.isEmpty q.tail
  if left.length = q.resets.length then ([], s)
  else if st = .disabled then
    let keep := { Queue.init with resets := left }
    let s1 := setQueue qp keep s
    (ends, if qp = 0 then setRegFld rWQM_ADMIN_CFG 0 1 0 s1 else s1)
  else (ends, setQueue qp { q with resets := left, state := st, qerr := none } s)

/-- A ring whose ENABLE has been cleared is DISABLED once no command is under way (R266). -/
def settleClosing (qp : Nat) (s : State) : State :=
  let ring := decide (qp = svcRingQp)
  let q := getQueue s qp
  let busy := q.jobs.any (fun j => match j.phase with | .waiting => false | _ => true)
  if s.wqm.closing.contains ring && !busy then
    setQueue qp Queue.init { s with wqm := { s.wqm with closing := s.wqm.closing.filter (fun r => decide (r ≠ ring)) } }
  else s

/-- A queue pair is brought up to date: entries that can be written are, and what that ends ends. -/
def settleQueueOnce (qp : Nat) (s : State) : List AdminEnd × State :=
  let s1 := writeEntries qp ((getQueue s qp).jobs.length) s
  let (ends, s2) := endQueueResets qp s1
  (ends, if qp = 0 || qp = svcRingQp then settleClosing qp s2 else s2)

/-- The command under way on an admin ring completes. -/
def endAdmin (e : AdminEnd) (s : State) : State :=
  let qp := adminQp e.ring
  let q := getQueue s qp
  match q.current with
  | none => s
  | some j =>
    if j.phase ≠ .executing then s
    else
      let r := adminResult e.status e.count e.value false
      (settleQueueOnce qp (setQueue qp { q with jobs := markDone j.lastPos r q.jobs } s)).2

/-- A queue pair is brought up to date, with the admin commands that complete through it. -/
def settleQueue (qp : Nat) (s : State) : State :=
  let (ends, s1) := settleQueueOnce qp s
  forEach endAdmin ends s1

/-- A job finishes with a result. -/
def finishJob (qp pos : Nat) (r : JobResult) (s : State) : State :=
  let q := getQueue s qp
  settleQueue qp (setQueue qp { q with jobs := markDone pos r q.jobs } s)

/-- A job that wrote data to host memory, `last` being the host address of the last byte written, finishes: with BARRIER, after a flushing
read there (R220, R260). -/
def finishWriter (qp pos last : Nat) (r : JobResult) (s : State) : State :=
  let q := getQueue s qp
  match q.jobs.find? (fun j => decide (j.lastPos = pos)) with
  | some j =>
    if j.barrierBit && qp ≠ svcRingQp then
      let jobs := (markDone pos r q.jobs).map (fun k => if k.lastPos = pos then { k with barrier := true } else k)
      settleQueue qp (flushRead q.inst last (.barrier qp pos) [] (setQueue qp { q with jobs := jobs } s))
    else finishJob qp pos r s
  | none => s

/-- The command under way on an admin ring completes, having written data up to host address `last`, or none (R220, R260). -/
def endAdminWriter (e : AdminEnd) (last : Option Nat) (s : State) : State :=
  let qp := adminQp e.ring
  match (getQueue s qp).current, last with
  | some j, some a => if j.phase = .executing then finishWriter qp j.lastPos a (adminResult e.status e.count e.value false) s else s
  | _, _ => endAdmin e s

/-- The flushing read of a BARRIER has come back: its entry may be written, or the job fails (R220, R223). -/
def barrierBack (qp pos : Nat) (st : Option Status) (s : State) : State :=
  let q := getQueue s qp
  let fix := fun (j : Job) =>
    if j.lastPos = pos && j.barrier then
      { j with barrier := false, phase := (match st with | some e => .done (failedResult j.descs e) | none => j.phase) }
    else j
  settleQueue qp (setQueue qp { q with jobs := q.jobs.map fix } s)

/-- A job fails at a descriptor: it becomes the last job of the queue until a reset (R264). -/
def addFailure (qp pos : Nat) (ds : List Bytes) (st : Status) (s : State) : State :=
  let q := getQueue s qp
  let j : Job := { lastPos := pos, descs := ds, phase := .done (failedResult ds st), data := [], barrier := false }
  settleQueue qp (setQueue qp { q with jobs := q.jobs ++ [j], chain := [], fetched := pos + 1 } s)

/-- Tail and doorbell values are numbers modulo 2^32. -/
def ringDelta (v cur : Nat) : Nat := (v + 2 ^ 32 - cur % 2 ^ 32) % 2 ^ 32

/-- A doorbell is refused: the queue goes to ERROR (R252). -/
def doorbellOverflow (qp : Nat) (s : State) : State := evWqm 1 (setQueue qp { getQueue s qp with state := .error } s)

/-- A write of SQ_TAIL (R252, R265). -/
def writeSqTail (qp : Nat) (v : Word) (s : State) : State :=
  let q := getQueue s qp
  let d := ringDelta v.toNat q.tail
  if q.state = .disabled || d = 0 then s
  else if d ≤ q.freeSlots then setQueue qp { q with tail := q.tail + d } s
  else doorbellOverflow qp s

/-- A write of CQ_HEAD (R252, R261): entries that waited for room are written. -/
def writeCqHead (qp : Nat) (v : Word) (s : State) : State :=
  let q := getQueue s qp
  let d := ringDelta v.toNat q.cqHead
  if q.state = .disabled then s
  else if q.cqHead + d ≤ q.written then settleQueue qp (setQueue qp { q with cqHead := q.cqHead + d } s)
  else evWqm 1 s

/-- A write of CQ_ARM (R262): entries beyond CQ_HEAD send the vector at once. -/
def writeCqArm (qp : Nat) (v : Word) (s : State) : State :=
  let q := getQueue s qp
  if q.state = .disabled || !bit v 0 then s
  else
    let s1 := setQueue qp { q with armed := true } s
    if q.cqHead < q.written then sendInterrupt qp s1 else s1

/-- Position of the first descriptor whose job has not started (R257). -/
def Queue.unstarted (q : Queue) : Nat :=
  match q.jobs.find? (fun j => decide (j.phase = .waiting)) with
  | some j => j.lastPos + 1 - j.descs.length
  | none => q.fetched - q.chain.length

/-- A Geyser write (R257): a write of tail + 1 with the descriptor pushed, when one of the 4 push slots is free. A slot is in use until the
job of its descriptor has started. -/
def writeGeyser (qp : Nat) (desc : Bytes) (s : State) : State :=
  let q := getQueue s qp
  let used := mfilter (fun k _ => decide (q.unstarted ≤ k)) q.pushed
  if q.state = .disabled then s
  else if q.freeSlots = 0 then doorbellOverflow qp s
  else if used.length < 4 then
    incr cWQM_GEYSER_PUSH (setQueue qp { q with tail := q.tail + 1, pushed := minsert used q.tail (slice desc 0 64) } s)
  else incr cWQM_GEYSER_FALLBACK (setQueue qp { q with tail := q.tail + 1, pushed := used } s)

/-- TotalVFs (R209). -/
def totalVfs (s : State) : Nat := if s.ident.role = .standalone then 4096 else min 4096 (256 * busesPer s - 1)

/-- VFs in effect (VFM_STATUS.NUM_VFS). -/
def vfsInEffect (s : State) : Nat := if s.hep.vfEnable then s.hep.numVfs.toNat else 0


/-- Whether a function's doorbell slot of a queue pair has effect (R251, R504, R542). -/
def mayRing (s : State) (fn qp : Nat) : Bool :=
  decide (qp < 65536) && memEnabled s fn && !(getFn s fn).d3hot
    && (if fn = pf then decide (qp = 0) || inQueueRange s pf qp || ((getQueue s qp).ls && decide ((getQueue s qp).inst = pf))
        else decide (fn < vfsInEffect s) && inQueueRange s fn qp)

/-- SQ_TAIL_WRITE (R252). -/
def execSqTailWrite (fn qp : Nat) (v : Word) (s : State) : Result := .next (if mayRing s fn qp then writeSqTail qp v s else s)

/-- CQ_HEAD_WRITE (R261). -/
def execCqHeadWrite (fn qp : Nat) (v : Word) (s : State) : Result := .next (if mayRing s fn qp then writeCqHead qp v s else s)

/-- CQ_ARM_WRITE (R262). -/
def execCqArmWrite (fn qp : Nat) (v : Word) (s : State) : Result := .next (if mayRing s fn qp then writeCqArm qp v s else s)

/-- GEYSER_WRITE (R257). -/
def execGeyserWrite (fn qp : Nat) (desc : Bytes) (s : State) : Result := .next (if mayRing s fn qp then writeGeyser qp desc s else s)

/-- MODERATION_TIMER_EXPIRY (R262): MOD_US has run since the first unsignalled entry. -/
def execModerationTimerExpiry (qp : Nat) (s : State) : Result :=
  let q := getQueue s qp
  match q.firstUnsig with
  | none => .next s
  | some t => if q.armed && 0 < q.unsignalled then .next (sendInterrupt qp (reachTime (t + us q.modUs) s)) else .next s

end Sys2Proof.Machine
end

