-- ==== Sys2Proof/Machine/Jobs.lean ====
section
/-! DEFINITION. Descriptors and jobs (R253–R260), queue resets (R265), LS queue pairs (R542) and the setting up of the admin rings
(R266). -/

namespace Sys2Proof.Machine

/-- The state with the function state of an instance replaced. -/
def setFnS (inst : Nat) (f : Fn) (s : State) : State :=
  { s with vfm := { s.vfm with fns := mset (fun _ => Fn.init) s.vfm.fns inst f } }

/-- FIRST. -/
def descFirst (d : Bytes) : Bool := nbit (byteAt d 1) 0
/-- LAST. -/
def descLast (d : Bytes) : Bool := nbit (byteAt d 1) 1
/-- RO. -/
def descRo (d : Bytes) : Bool := nbit (byteAt d 1) 2
/-- CLASS. -/
def descClass (d : Bytes) : Nat := byteAt d 2 % 8
/-- Whether every byte of a descriptor from 8 on outside the ranges (offset, length) is 0 (R264). -/
def onlyFields (d : Bytes) (fs : List (Nat × Nat)) : Bool :=
  (List.range 56).all (fun i => decide (byteAt d (i + 8) = 0) || fs.any (fun f => decide (f.1 ≤ i + 8) && decide (i + 8 < f.1 + f.2)))

/-- The fields of an admin command (R267): whether ADDR and LEN carry something, the least and greatest LEN, and the parameters. -/
def adminFields (op : Nat) : Option (Nat × Nat × List (Nat × Nat)) :=
  match op with
  | 0x80 => some (0, 0, [(16, 11), (28, 20)])
  | 0x81 => some (0, 0, [(16, 3)])
  | 0x82 => some (64, 64, [(8, 8), (16, 2)])
  | 0x83 => some (0, 0, [(16, 3)])
  | 0x84 => some (0, 0, [(16, 3), (20, 32)])
  | 0x85 => some (0, 0, [(16, 4)])
  | 0x86 => some (1, 256, [(8, 8), (16, 3), (20, 4)])
  | 0x87 => some (1, 256, [(8, 8), (16, 3), (20, 4)])
  | 0x88 => some (128, 128, [(8, 8)])
  | 0x89 => some (128, 128, [(8, 8)])
  | 0x8A => some (1088, 1088, [(8, 8), (16, 2)])
  | 0x8B => some (0, 0, [(16, 2)])
  | 0x8C => some (64, 64, [(8, 8), (16, 2), (24, 12)])
  | 0x8D => some (1, 16777216, [(8, 16)])
  | 0x8E => some (0, 0, [(16, 1), (18, 2)])
  | 0x8F => some (0, 0, [(16, 1)])
  | _ => none

/-- A body that its opcode allows (R254, R256, R267). -/
def bodyOk (kind : QueueType) (d : Bytes) : Bool :=
  let len := descLen d
  if descOp d = 0 then decide (len = 0) && onlyFields d [(16, 8)]
  else match kind, descOp d with
    | .tx, 1 =>
      if descInline d then decide (1 ≤ len) && decide (len ≤ 56) && onlyFields d [(8, len)]
      else decide (1 ≤ len) && decide (len ≤ 16384) && onlyFields d [(8, 16)]
    | .rx, 2 => decide (64 ≤ len) && decide (len ≤ 16384) && decide (len % 64 = 0) && onlyFields d [(8, 16)]
    | .stor, 3 =>
      decide (len ≤ 1048576) && decide (1 ≤ leAt d 32 4) && (decide (byteAt d 36 = 1) || decide (byteAt d 36 = 2))
        && decide (byteAt d 37 ≠ 0) && onlyFields d [(8, 30)]
    | .admin, op =>
      match adminFields op with
      | some (lo, hi, fs) => decide (lo ≤ len) && decide (len ≤ hi) && onlyFields d fs
      | none => false
    | _, _ => false

/-- A descriptor that its queue accepts by itself (R253, R264): reserved bits 0, an opcode of the queue type, INLINE only in TX_FRAME,
CLASS 7 only on an LS queue. -/
def descOk (q : Queue) (d : Bytes) : Bool :=
  let cls7 := (q.kind = .tx || q.kind = .stor) && descFirst d && decide (descClass d = 7) && !q.ls
  decide (byteAt d 1 < 64) && decide (byteAt d 2 < 8) && decide (byteAt d 3 = 0) && (!descInline d || decide (descOp d = 1)) && !cls7
    && bodyOk q.kind d

/-- Whether a descriptor fits the open chain (R255): a NOP, and any job but a TX_FRAME, is a single descriptor. -/
def chainOk (q : Queue) (d : Bytes) : Bool :=
  let open_ := !q.chain.isEmpty
  if descOp d ≠ 1 then descFirst d && descLast d && !open_
  else
    let total := (q.chain ++ [d]).foldl (fun n e => n + descLen e) 0
    decide (descFirst d ≠ open_) && decide (total ≤ 16384) && (descLast d || decide (q.chain.length + 1 < 32))

/-- A descriptor is handed to its job (R253, R255, R264). -/
def takeDescriptor (qp pos : Nat) (d : Bytes) (s : State) : State :=
  let q := getQueue s qp
  let chain := q.chain ++ [d]
  if !descOk q d || !chainOk q d then addFailure qp pos chain .malformed s
  else
    let q1 := { q with fetched := pos + 1 }
    if descLast d then
      let j : Job := { lastPos := pos, descs := chain, phase := .waiting, data := [], barrier := false }
      setQueue qp { q1 with chain := [], jobs := q.jobs ++ [j] } s
    else setQueue qp { q1 with chain := chain } s

/-- The read of a descriptor has come back (R253, R264). A queue that has stopped fetching in the meantime reads it again later. -/
def descriptorBack (qp pos : Nat) (r : ReadReply) (s : State) : State :=
  let q := getQueue s qp
  if q.state ≠ .run || !q.resets.isEmpty || q.fetched ≠ pos || q.failed then s
  else match r with
    | .got d => takeDescriptor qp pos d (incr cWQM_DESC_FETCHED s)
    | .failed st => addFailure qp pos q.chain st s
    | _ => s

/-- Whether a descriptor of a queue can be fetched at once: what its read needs is there too (R33, R204, R239). -/
def fetchNow (s : State) (qp : Nat) (q : Queue) : Bool :=
  canFetch s qp q && (qp = svcRingQp || (mfind q.pushed q.fetched).isSome
    || (!readBlocked s q.inst && !readTokenBlocked s q.inst (.descriptor qp q.fetched)))

/-- The instances with a descriptor to fetch: in EMERGENCY and HOLDOVER those of LS queues ahead of all others (R60, R253). -/
def fetchWork (s : State) : List Nat :=
  let all := s.wqm.queues.filter (fun e => fetchNow s e.1 e.2)
  let ls := if (levelAt s .wqm).emergent then all.filter (fun e => e.2.ls) else []
  ((if ls.isEmpty then all else ls).map (fun e => e.2.inst)).eraseDups

/-- In EMERGENCY and HOLDOVER another LS queue is fetched first (R60, R253). -/
def lsFetchFirst (s : State) (q : Queue) : Bool :=
  !q.ls && (levelAt s .wqm).emergent && s.wqm.queues.any (fun e => e.2.ls && fetchNow s e.1 e.2)

/-- A job goes into execution. -/
def beginJob (qp pos : Nat) (s : State) : State :=
  let q := getQueue s qp
  setQueue qp { q with jobs := q.jobs.map (fun j => if j.lastPos = pos then { j with phase := .executing } else j) } s

/-- The frame of a chain, from its inline bytes and the bytes read for the other segments (R255, R256). -/
def gatherFrame : List Bytes → Bytes → Bytes
  | [], _ => []
  | d :: ds, bs =>
    if descInline d then slice d 8 (descLen d) ++ gatherFrame ds bs
    else slice bs 0 (descLen d) ++ gatherFrame ds (bs.drop (descLen d))

/-- The host DMA port of an instance: H0 for even, H1 for odd ones. -/
def hostPort (inst : Nat) : Nat := inst % 2

/-- A host-transmitted frame waits for its egress pass (R20). -/
def hostTransmit (inst : Nat) (bs : Bytes) (s : State) : State :=
  let h := hostPort inst
  let f := newFrame bs (20 + h) inst true s.now
  { s with flp := { s.flp with hostTx := mset (fun _ => []) s.flp.hostTx h (mget (fun _ => []) s.flp.hostTx h ++ [f]) } }

/-- The frame read of a TX_FRAME job has come back: the frame is passed on and the job completes, or it fails (R258, R260, R264). -/
def txBack (qp pos : Nat) (r : ReadReply) (s : State) : State :=
  let q := getQueue s qp
  match q.jobs.find? (fun j => decide (j.lastPos = pos)) with
  | none => s
  | some j =>
    match r with
    | .got bs =>
      let f := gatherFrame j.descs bs
      let r0 := plainResult j.descs .ok f.length
      let r1 := if q.tstamp then { r0 with tstamp := true, value := BitVec.ofNat 64 s.now } else r0
      finishJob qp pos r1 (hostTransmit q.inst f s)
    | .failed st => finishJob qp pos (failedResult j.descs st) s
    | .wait => beginJob qp pos s
    | .stall => s

/-- TX_FRAME (R260): the frame of the next job of a transmit queue is read when the turn of its instance has come (R273); `r` is how the
read of its segments in host memory ends. A shed job completes with SHED (R62); one whose instance was refused a buffer waits (R300). -/
def execTxFrame (qp : Nat) (r : ReadOutcome) (s : State) : Result :=
  let q := getQueue s qp
  match nextJob s qp 1 with
  | none => .next s
  | some j =>
    if queueShed s q then .next (finishJob qp j.lastPos (plainResult j.descs .shed 0) s)
    else if txHeld s q then .next s
    else match hostSegments j.descs, issueTurn s q.inst with
      | [], _ => .next (txBack qp j.lastPos (.got []) s)
      | _, none => .next s
      | ps, some t =>
        let (rep, s1) := hostRead q.inst ps r (.jobData qp j.lastPos) [] (spendIssue t s)
        .next (txBack qp j.lastPos rep s1)

/-- DESC_NOP (R254): the next job of a queue is a NOP. -/
def execDescNop (qp : Nat) (s : State) : Result :=
  match nextJob s qp 0 with
  | some j => .next (finishJob qp j.lastPos (plainResult j.descs .ok 0) s)
  | none => .next s

/-- The transmit and storage jobs of shed queues that have been fetched and not begun complete with SHED (R60, R62). -/
def completeShed (qp : Nat) (s : State) : State :=
  let q := getQueue s qp
  if !queueShed s q || q.state ≠ .run || q.failed then s
  else
    let hit := fun (j : Job) => decide (j.phase = .waiting) && (descOp j.lastDesc = 1 || descOp j.lastDesc = 3)
    let n := (q.jobs.filter (fun j => hit j && descOp j.lastDesc = 3)).length
    let fix := fun (j : Job) => if hit j then { j with phase := .done (plainResult j.descs .shed 0) } else j
    let s1 := addCtr cSTR_SHED_CMDS n (addCtr cSTR_CMDS_ERR n (addCtr cSTR_CMDS_DONE n s))
    settleQueue qp (setQueue qp { q with jobs := q.jobs.map fix } s1)

/-- The posted buffers that a frame of `len` bytes takes: jobs in ring order, none when those fetched do not suffice. -/
def takeBuffers : Nat → List Job → Option (List (Job × Nat))
  | 0, _ => some []
  | _, [] => none
  | len, j :: js =>
    if j.phase = .waiting && descOp j.lastDesc = 2 then
      let n := min len (descLen j.lastDesc)
      if n = len then some [(j, n)] else (takeBuffers (len - n) js).map (fun l => (j, n) :: l)
    else takeBuffers len js

/-- The parts of a frame are written into its buffers, each with its own entry (R258). -/
def fillBuffers (qp : Nat) (q : Queue) (at_ : Nat) (first : Bool) : List (Job × Nat) → Bytes → State → State
  | [], _, s => s
  | (j, n) :: js, bs, s =>
    let d := j.lastDesc
    let s1 := queueStore qp (descAddr d) (bs.take n) (roAllowed s q.inst (descRo d)) s
    let r0 := plainResult j.descs .ok n
    let r1 := { r0 with first := first, last := js.isEmpty }
    let r2 := if q.tstamp then { r1 with tstamp := true, value := BitVec.ofNat 64 at_ } else r1
    fillBuffers qp q at_ false js (bs.drop n) (finishWriter qp j.lastPos (descAddr d + n - 1) r2 s1)

/-- A receive frame is dropped at the pool of its size (R22, R303). -/
def dropAtPool (len : Nat) (s : State) : State :=
  match firstChoice s .netRx len with
  | some n => incr (cPOOL_RX_DROP n) s
  | none => s

/-- Whether a receive queue takes frames: RUN, no reset, no failed job, room in its CQ (R261, R264, R265). -/
def rxOpen (q : Queue) : Bool := decide (q.kind = .rx) && decide (q.state = .run) && q.resets.isEmpty && !q.failed && !q.cqFull

/-- A frame for a receive queue of an instance is delivered or dropped (R22, R218, R240, R258); `none` while descriptors that may give
it room are still to be fetched, or while no work token or queue channel is free for it (R33, R239, R272). -/
def deliverRx (f : Frame) (s : State) : Option State :=
  let rec_ := getRecord s f.inst
  let qp := rec_.queueBase + f.qsel
  let q := getQueue s qp
  let fn := getFn s f.inst
  if (getFnS s f.inst).state ≠ .run then some (incr (instCtr f.inst 0) s)
  else if !fn.mayIssue || fn.flrFrom.isSome || decide (rec_.queueCount ≤ f.qsel) || !rxOpen q then some (dropAtPool f.bytes.length s)
  else match takeBuffers f.bytes.length q.jobs with
    | some bs =>
      if noToken s q.ls || (!q.ls && tokensSpent s f.inst) || decide (384 ≤ queueChannels s) then none
      else some (fillBuffers qp q f.rxAt true bs f.bytes s)
    | none => if q.fetched < q.tail then none else some (dropAtPool f.bytes.length s)

/-- The first frame that can be delivered or dropped now, with those left: a frame that waits delays only its own instance (R239). -/
def deliverFirst (s : State) : List Nat → List Frame → Option (State × List Frame)
  | _, [] => none
  | waits, f :: fs =>
    match if waits.contains f.inst then none else deliverRx f s with
    | some s1 => some (s1, fs)
    | none => (deliverFirst s (f.inst :: waits) fs).map (fun r => (r.1, f :: r.2))

/-- RX_FRAME_DELIVER (R258): the oldest frame that has left H0 or H1 and that its instance can take goes to its receive queue. -/
def execRxFrameDeliver (hport : Nat) (s : State) : Result :=
  let h := 20 + hport % 2
  match deliverFirst s [] (mget (fun _ => []) s.sinks h) with
  | none => .next s
  | some (s1, rest) => .next { s1 with sinks := mset (fun _ => []) s1.sinks h rest }

/-- Whether a queue pair is one that the image sets up (R542), also while it has lost its context. -/
def isLsPair (s : State) (qp : Nat) : Bool := (mfind s.wqm.lsImage qp).isSome

/-- A QUEUE_RESET begins, waits behind another, or ends at once on a DISABLED queue (R265, R542). Answers the status of one that is
refused or complete. -/
def startReset (qp : Nat) (disable : Bool) (ring : Option Bool) (s : State) : Option Status × State :=
  let q := getQueue s qp
  if isLsPair s qp && disable then (some .permission, s)
  else if q.state = .disabled && q.resets.isEmpty then (some .ok, s)
  else
    let r : QueueResetReq := { disable := disable, ring := ring, tail := q.tail, started := false, flushed := 0 }
    (none, setQueue qp { q with resets := q.resets ++ [r] } s)

/-- A command of WQM_QCTL (R265, R541): QP is written, and the reset of it begins. -/
def qctlReset (p : Party) (qp : Nat) (disable : Bool) (s : State) : State :=
  let busy := !(getQueue s (regFld s rWQM_QCTL 0 16)).resets.isEmpty
  let svc := match p with | .service _ => true | _ => false
  if busy then s
  else
    let s1 := setRegFld rWQM_QCTL 0 16 qp s
    if svc && qp = 0 then setRegFld rWQM_QCTL 30 1 1 s1
    else
      let (st, s2) := startReset qp disable none s1
      setRegFld rWQM_QCTL 30 1 (if st = some .permission then 1 else 0) s2

/-- QCTL_RESET_MODE0 (R265). -/
def execQctlResetMode0 (p : Party) (qp : Nat) (s : State) : Result := .next (qctlReset p (qp % 65536) false s)

/-- QCTL_RESET_MODE1 (R265). -/
def execQctlResetMode1 (p : Party) (qp : Nat) (s : State) : Result := .next (qctlReset p (qp % 65536) true s)

/-- The posted descriptors that a reset finds unfetched: pushed copies and ring reads, in order, up to the first read that fails. A read that
is never answered fails with its completion timeout; none where the function has disabled it (R224). -/
def unfetched (s : State) (qp : Nat) (q : Queue) : Nat → Nat → List ReadOutcome → Option (List Bytes × Bool)
  | 0, _, _ => some ([], false)
  | n + 1, pos, rs =>
    let more := fun (d : Bytes) (l : List ReadOutcome) => (unfetched s qp q n (pos + 1) l).map (fun x => (d :: x.1, x.2))
    match mfind q.pushed pos with
    | some d => more d rs
    | none =>
      if qp = svcRingQp then more (svcLoad s (q.sqBase + 64 * (pos % q.sqSize)) 64) rs
      else match rs with
        | .data d :: l => more (slice d 0 64) l
        | .pending :: _ => (cplTimeout s q.inst).map (fun _ => ([], true))
        | [] => none
        | _ :: _ => some ([], true)

/-- Jobs to be returned FLUSHED, delimited by LAST alone (R265): `pos` is the position of the first of the descriptors, `chain` what is
open before it. Answers what stays open at the end. -/
def flushJobs : Nat → List Bytes → List Bytes → List Job × List Bytes
  | _, chain, [] => ([], chain)
  | pos, chain, d :: ds =>
    let c := chain ++ [d]
    if descLast d then
      let j : Job := { lastPos := pos, descs := c, phase := .done (plainResult c .flushed 0), data := [], barrier := false }
      let (js, open_) := flushJobs (pos + 1) [] ds
      (j :: js, open_)
    else flushJobs (pos + 1) c ds

/-- The fetched jobs of a queue as a reset returns them (R264, R265): those that have finished keep their results up to a failing one, and
everything behind a failure (`failed`), like everything not begun, is FLUSHED. -/
def flushFetched : Bool → List Job → List Job
  | _, [] => []
  | failed, j :: js =>
    let gone := { j with phase := .done (plainResult j.descs .flushed 0), barrier := false }
    match j.phase with
    | .done r => (if failed then gone else j) :: flushFetched (failed || r.qerr) js
    | _ => gone :: flushFetched failed js

/-- The entry that stands for every descriptor from the first failed read on, with the index of the last posted descriptor; its VALUE
is not stated. -/
def unreadJob (s : State) (tail : Nat) : Job :=
  let r0 := plainResult [] .flushed 0
  { lastPos := tail - 1, descs := [], phase := .done { r0 with value := Config.freeDWord s.freeUsed }, data := [], barrier := false }

/-- Step 3 of a QUEUE_RESET (R265): every remaining job up to the tail at its commit is returned FLUSHED. -/
def flushQueue (qp : Nat) (q : Queue) (req : QueueResetReq) (rest : List QueueResetReq) (ds : List Bytes) (broken : Bool) (s : State) : State :=
  let kept := flushFetched q.qerr.isSome q.jobs
  let (js, open_) := flushJobs q.fetched q.chain ds
  let (_, s1) := takeFree s
  let cut : List Job :=
    if broken then [unreadJob s req.tail]
    else if open_.isEmpty then []
    else [{ lastPos := req.tail - 1, descs := open_, phase := .done (plainResult open_ .flushed 0), data := [], barrier := false }]
  let jobs := kept ++ js ++ cut
  let n := (jobs.filter (fun j => match j.phase with | .done r => decide (r.status = 1) | _ => false)).length
  let req1 := { req with started := true, flushed := n }
  let q1 := { q with jobs := jobs, chain := [], fetched := req.tail, pushed := mfilter (fun k _ => decide (req.tail ≤ k)) q.pushed,
                     resets := req1 :: rest }
  let reads := ((span q.fetched ds.length).filter (fun pos => (mfind q.pushed pos).isNone)).length
  settleQueue qp (addCtr cWQM_DESC_FETCHED reads (orphanCommands qp (setQueue qp q1 (if broken then s1 else s))))

/-- A ring read that is never answered ends with its completion timeout, counted from its issue, and its tag is quarantined (R224). -/
def ringTimeout (qp pos fn : Nat) (s : State) : State :=
  match cplTimeout s fn with
  | some t => timeOutTag (freeTag s) fn (reachTime (s.now + t) (useTag (freeTag s) fn 64 64 [] (.descriptor qp pos) [] s))
  | none => s

/-- The ring reads of a reset for `n` descriptors from position `pos` on: one after another under one tag, each answered before the next one
leaves, up to the first that fails. One that comes back poisoned is logged in its function (R222). -/
def ringReads (qp : Nat) (q : Queue) : Nat → Nat → List ReadOutcome → State → State
  | 0, _, _, s => s
  | n + 1, pos, rs, s =>
    if qp = svcRingQp then s
    else if (mfind q.pushed pos).isSome then ringReads qp q n (pos + 1) rs s
    else
      let s1 := hostOut (.hostRead q.inst (q.sqBase + 64 * (pos % q.sqSize)) 64 (freeTag s)) s
      match rs with
      | .data _ :: l => ringReads qp q n (pos + 1) l s1
      | .poisoned :: _ => logPoisoned q.inst s1
      | .pending :: _ => ringTimeout qp pos q.inst s1
      | _ => s1

/-- QUEUE_RESET_DRAINED (R265): the jobs in execution have finished; `ring` holds the reads of the posted descriptors not yet fetched. -/
def execQueueResetDrained (qp : Nat) (ring : List ReadOutcome) (s : State) : Result :=
  let q := getQueue s qp
  match q.resets with
  | [] => .next s
  | req :: rest =>
    let busy := (q.qerr.isNone && (q.jobs.takeWhile (fun j => match j.phase with | .done r => !r.qerr | _ => true)).any
      (fun j => decide (j.phase = .executing) || j.barrier)) || fetchOut s qp q
    let n := req.tail - q.fetched
    if req.started || busy || (0 < n && qp ≠ svcRingQp && readBlocked s q.inst) then .next s
    else match unfetched s qp q n q.fetched ring with
      | none => .next s
      | some (ds, broken) => .next (flushQueue qp q req rest ds broken (ringReads qp q n q.fetched ring s))

/-- How the resets of a queue pair that is disabled under them end (R265): the one under way with FLUSHED, its COUNT the FLUSHED entries
written, `left` being those that are not; one that waited finds the queue pair DISABLED, or empty, and nothing to flush. -/
def cutEnds (left : Nat) : List QueueResetReq → List AdminEnd
  | [] => []
  | r :: rs =>
    let first := match r.ring with
      | some g => [{ ring := g, status := .flushed, count := r.flushed - left, value := 0 }]
      | none => []
    first ++ rs.filterMap (fun w => w.ring.map (fun g => { ring := g, status := .ok, count := 0, value := 0 }))

/-- The resets of a queue pair that has been disabled under them end (R265); `q` is the queue pair as it was. -/
def cutResets (qp : Nat) (q : Queue) (s : State) : State :=
  let left := (q.jobs.filter (fun j => match j.phase with | .done r => decide (r.status = 1) | _ => false)).length
  forEach (fun e s => if adminQp e.ring = qp then s else endAdmin e s) (cutEnds left q.resets) s

/-- A queue pair loses its context (R225, R265): it is DISABLED, or as its image record sets it up when it is an LS queue pair (R542). -/
def clearQueue (qp : Nat) (s : State) : State :=
  cutResets qp (getQueue s qp) (setQueue qp ((lsContext s qp).getD Queue.init) (orphanCommands qp s))

/-- Whether a read serves a queue pair. -/
def readOf (qp : Nat) (e : TagEntry) : Bool :=
  match e.purpose with
  | .descriptor p _ => decide (p = qp)
  | .jobData p _ => decide (p = qp)
  | .barrier p _ => decide (p = qp)
  | _ => false

/-- An uncorrectable error in the context of a queue pair (R265, R271): DISABLED, no further entries, its resets end with FLUSHED, and
what comes back for it later is discarded. -/
def loseContext (qp : Nat) (s : State) : State :=
  evWqm 2 (cutResets qp (getQueue s qp) (setQueue qp Queue.init (orphanCommands qp (abandonReads (readOf qp) s))))

/-- The turn in which an instance may fetch now, if it may (R239, R253). -/
def fetchTurn (s : State) (inst : Nat) : Option Turn := (turnOf s s.wqm.turn (fetchWork s)).filter (fun t => decide (t.cur = inst))

/-- The next descriptor of a queue whose turn has come is fetched; `r` is how a read of host memory ends. A pushed descriptor needs no
read (R257), the service ring lies in service-cluster memory. -/
def fetchOne (qp : Nat) (q : Queue) (r : ReadOutcome) (s : State) : State :=
  let addr := q.sqBase + 64 * (q.fetched % q.sqSize)
  match mfind q.pushed q.fetched with
  | some d => takeDescriptor qp q.fetched d s
  | none =>
    if qp = svcRingQp then descriptorBack qp q.fetched (if inSvcMemory s addr 64 then .got (svcLoad s addr 64) else .failed .xlateFault) s
    else
      let (rep, s1) := hostRead q.inst [(addr, 64)] r (.descriptor qp q.fetched) [] s
      descriptorBack qp q.fetched rep s1

/-- DESCRIPTOR_FETCH (R239, R253): the next descriptor of a queue is fetched when the turn of its instance has come; `ctx` is the ECC result
of its context, `r` how a read of host memory ends. -/
def execDescriptorFetch (qp : Nat) (r : ReadOutcome) (ctx : EccResult) (s : State) : Result :=
  let q := getQueue s qp
  if ctx = .uncorrectable && q.state ≠ .disabled && qp ≠ svcRingQp then .next (loseContext qp s)
  else if !fetchNow s qp q || lsFetchFirst s q then .next s
  else match fetchTurn s q.inst with
    | none => .next s
    | some t => .next (fetchOne qp q r { s with wqm := { s.wqm with turn := t.spend } })

/-- LS_QUEUE_RESTORE (R542): an LS queue pair that has lost its context is set up again from its image record. -/
def execLsQueueRestore (qp : Nat) (s : State) : Result :=
  match lsContext s qp with
  | some q => .next (if (getQueue s qp).state = .disabled then setQueue qp q s else s)
  | none => .next s

/-- The context that an admin ring takes when ENABLE takes effect (R266). -/
def ringContext (svcRing : Bool) (s : State) : Queue :=
  let cfg := if svcRing then rWQM_SVCQ_CFG else rWQM_ADMIN_CFG
  let sq := if svcRing then rWQM_SVCQ_SQ else rWQM_ADMIN_SQ
  let cq := if svcRing then rWQM_SVCQ_CQ else rWQM_ADMIN_CQ
  let base := fun r => (getReg64 s r).toNat / 4096 * 4096
  let q := { Queue.init with state := .run, kind := .admin, inst := if svcRing then 4098 else pf }
  { q with sqLog2 := regFld s cfg 4 4 + 4, cqLog2 := regFld s cfg 8 4 + 4, sqBase := base sq, cqBase := base cq,
           vector := regFld s cfg 16 11, armed := !svcRing }

/-- A size field of an admin ring after a write: 13 to 15 are reserved, as SQ_LOG2 and CQ_LOG2 lie in 4–16 (R250, R7). -/
def ringSize (old v : Word) (lo : Nat) : Nat := if fld v lo 4 ≤ 12 then fld v lo 4 else fld old lo 4

/-- A write of WQM_ADMIN_CFG or WQM_SVCQ_CFG (R266): the sizes only while the ring is DISABLED; VECTOR at any time; setting ENABLE when
CQ_SIZE is not below SQ_SIZE; clearing it. -/
def writeRingCfg (svcRing : Bool) (v : Word) (s : State) : State :=
  let cfg := if svcRing then rWQM_SVCQ_CFG else rWQM_ADMIN_CFG
  let qp := adminQp svcRing
  let old := getReg s cfg
  let free := decide ((getQueue s qp).state = .disabled) && !bit old 0
  let new0 := if free then setFld (setFld old 4 4 (ringSize old v 4)) 8 4 (ringSize old v 8) else old
  let new1 := setFld new0 16 11 (fld v 16 11)
  let s1 := setReg cfg new1 s
  if bit v 0 then
    if free && decide (fld new1 4 4 ≤ fld new1 8 4) then
      let s2 := setRegFld cfg 0 1 1 s1
      setQueue qp (ringContext svcRing s2) s2
    else setQueue qp { getQueue s1 qp with vector := (if bit old 0 then fld new1 16 11 else (getQueue s1 qp).vector) } s1
  else if bit old 0 then
    let s2 := setRegFld cfg 0 1 0 s1
    settleClosing qp { s2 with wqm := { s2.wqm with closing := s2.wqm.closing ++ [svcRing] } }
  else s1

/-- Whether a party may set up an admin ring (R499). -/
def ownsRing (p : Party) (svcRing : Bool) : Bool :=
  match p with
  | .host => !svcRing
  | .service _ => svcRing
  | .crater => true

/-- ADMIN_CFG_WRITE (R266). -/
def execAdminCfgWrite (p : Party) (svcRing : Bool) (v : Word) (s : State) : Result :=
  .next (if ownsRing p svcRing then writeRingCfg svcRing v s else s)

end Sys2Proof.Machine
end

