-- ==== Sys2Proof/Machine/Switch.lean ====
section
/-! DEFINITION. The switch core (03_switch_core.md): admission, spill, Slalom, the priority plane, the Tephra ring. -/

namespace Sys2Proof.Machine

/-- Cells of the cell buffer (R75). -/
def bufferCells : Nat := 393216

/-- A VOQ. -/
def Voq.empty : Voq := { spill := false, frames := [] }

/-- Key of a VOQ. -/
def voqKey (i o c : Nat) : Nat := 182 * i + 7 * o + c

/-- A VOQ of an input, output and class. -/
def getVoq (s : State) (i o c : Nat) : Voq := mget (fun _ => Voq.empty) s.swc.voqs (voqKey i o c)

/-- The state with a VOQ replaced. -/
def setVoq (i o c : Nat) (q : Voq) (s : State) : State :=
  { s with swc := { s.swc with voqs := mset (fun _ => Voq.empty) s.swc.voqs (voqKey i o c) q } }

/-- The tag of a cell (R73): bits [119:0], then the ECC, whose code is not stated. `mc` says that it crosses from a multicast queue. ACTION_PTR,
an index that the rule does not tie to anything else, is a free value of the frame's arrival number (log entry 67). -/
def cellTag (f : Frame) (arr k : Nat) (mc spilled : Bool) : BitVec 128 :=
  let n := ceilDiv f.bytes.length 256
  let last := decide (n ≤ k + 1)
  let valid := if last then f.bytes.length - 256 * (n - 1) else 256
  let dest := match f.dest with | .group g _ => g | .unicast sp cid => sp + 32 * cid | .none => 0
  let w := (if k = 0 then 1 else 0) + (if last then 2 else 0) + valid % 256 * 2 ^ 2 + f.srcSp * 2 ^ 10 + (if mc then 2 ^ 15 else 0)
    + dest * 2 ^ 16 + f.cls * 2 ^ 32 + f.inst * 2 ^ 35 + k * 2 ^ 48 + (if spilled then 2 ^ 54 else 0) + (if f.mirror ≠ 0 then 2 ^ 55 else 0)
  let hi := (Config.actionPtr arr).toNat * 2 ^ 56 + (if k = 0 then f.bytes.length * 2 ^ 80 else 0) + f.hash.toNat * 2 ^ 96
  let body := BitVec.ofNat 120 (w + hi)
  Config.tagCheck body ++ body

/-- The tag of the next cell that a frame of a VOQ sends. -/
def Stored.tag (f : Stored) : BitVec 128 := cellTag f.frame f.arr f.sent false f.spilled

/-- The tag of the cell at the head of a multicast queue. -/
def McStored.tag (f : McStored) : BitVec 128 := cellTag f.frame f.arr f.sent true false

/-- A multicast queue of an input and class. -/
def getMcq (s : State) (i c : Nat) : List McStored := mget (fun _ => []) s.swc.mcqs (7 * i + c)

/-- The state with a multicast queue replaced. -/
def setMcq (i c : Nat) (q : List McStored) (s : State) : State :=
  { s with swc := { s.swc with mcqs := mset (fun _ => []) s.swc.mcqs (7 * i + c) q } }

/-- Cells of a frame of a VOQ that are on die. -/
def dieCells (f : Stored) : Nat := if f.place = .die then f.cells - f.sent else 0

/-- ing_count[o][c]: cells on die for an output and class, over all inputs (R75). -/
def ingCount (s : State) (o c : Nat) : Nat :=
  ((s.swc.voqs.filter (fun e => e.1 % 182 = 7 * o + c)).map (fun e => (e.2.frames.map dieCells).sum)).sum

/-- Cells of a multicast queue (R75). -/
def mcCount (s : State) (i c : Nat) : Nat := ((getMcq s i c).map (fun f => f.cells - f.sent)).sum

/-- Cells held behind the outputs. -/
def egressTotal (s : State) : Nat := (s.swc.egressCells.map Prod.snd).sum

/-- SWC_FREE_CELLS. -/
def freeCells (s : State) : Nat := bufferCells - (s.swc.ingressCells + egressTotal s)

/-- SWC_BUF_CFG.PORT_MIN. -/
def portMin (s : State) : Nat := regFld s rSWC_BUF_CFG 0 16

/-- Unused minima of the inputs other than `i` (R75). -/
def unusedMinima (s : State) (i : Nat) : Nat :=
  ((List.range 26).map (fun j => if j = i then 0 else portMin s - mget (fun _ => 0) s.swc.inputDie j)).sum

/-- Default instance quota (SWC_IND_DATA). -/
def Quota.init : Quota := { ondie := 65536, spill := 4194304 }

/-- Quota of an instance. -/
def getQuota (s : State) (v : Nat) : Quota := mget (fun _ => Quota.init) s.swc.quotas v

/-- A count in a table changed by adding and taking away. -/
def shiftCount (m : Map Nat) (k add sub : Nat) : Map Nat := mset (fun _ => 0) m k (mget (fun _ => 0) m k + add - sub)

/-- Cells of input `i` and instance `v` on die, changed by adding and taking away. -/
def moveDie (i v add sub : Nat) (s : State) : State :=
  { s with swc := { s.swc with inputDie := shiftCount s.swc.inputDie i add sub, instDie := shiftCount s.swc.instDie v add sub,
                               ingressCells := s.swc.ingressCells + add - sub } }

/-- Cells of instance `v` in the spill region, changed by adding and taking away. -/
def moveSpill (v add sub : Nat) (s : State) : State :=
  { s with swc := { s.swc with instSpill := shiftCount s.swc.instSpill v add sub, spillUsed := s.swc.spillUsed + add - sub } }

/-- Cells of the spill region (SWC_SPILL_CFG.SIZE_GIB). -/
def regionCells (s : State) : Nat := regFld s rSWC_SPILL_CFG 0 6 * 4194304

/-- Where a frame goes in the switch core of this device: nowhere, to one output, or to the outputs of a port set. -/
inductive Outputs where
  | lost
  | one (o : Nat) (f : Frame)
  | set (ports : Nat) (f : Frame)
deriving DecidableEq, Repr

/-- The outputs of a frame: a frame that crosses this device follows its ROUTE, one for another device takes its path, a multicast
frame takes the port set as it stands (R90, R367, R369). A multicast frame from another device stays here; of a host-transmitted one, whose
copies for this device have been made, only the Gondola ports are left (R20). -/
def frameOutputs (s : State) (f : Frame) : Outputs :=
  let transit := match f.fab with | some b => !isOwnCid s b.dst | none => false
  if transit then
    match f.fab.bind (fun b => b.route[b.hop]?) with
    | some k => .one (16 + k) f
    | none => .lost
  else
    match f.dest with
    | .none => .lost
    | .unicast sp cid =>
      if isOwnCid s cid then .one sp f
      else match fabricTo s cid f with
        | some b => match b.route[0]? with | some k => .one (16 + k) { f with fab := some b } | none => .lost
        | none => .lost
    | .group g _ =>
      let ps := mget (fun _ => 0) s.swc.portSets g
      let ps1 := if f.fab.isSome then ps - (ps &&& 0xF0000) else if f.host && ps ≠ 0 then ps &&& 0xF0000 else ps
      .set ps1 { f with dest := .group g ps1 }

/-- A frame that is not admitted: counted as a copy lost, or in DROP_TAIL of its input (R75, R92). -/
def tailDrop (i : Nat) (f : Frame) (s : State) : State :=
  if f.mirror ≠ 0 then incr cSWC_TEPHRA_DROP s else incr (cSWC_DROP_TAIL i) s

/-- A frame admitted at an input. -/
def countAdmit (i n : Nat) (s : State) : State := incr (cSWC_FRAMES_IN i) (addCtr (cSWC_CELLS_IN i) n s)

/-- The next arrival number, taken. -/
def takeArrival (s : State) : Nat × State := (s.swc.nextArr, { s with swc := { s.swc with nextArr := s.swc.nextArr + 1 } })

/-- Admission of a unicast frame of class 0–6 (R75). A spill region of size 0 has no room: a spillable frame dropped there raises SPILL_FULL
(DESIGN CHOICE, log entry 67: R95 does not say whether such a region counts as full). -/
def admitUnicast (i o : Nat) (f : Frame) (s : State) : State :=
  let n := cellsOf f
  let c := f.cls
  let v := f.inst
  let q := getVoq s i o c
  let room := decide (n + unusedMinima s i ≤ freeCells s)
  let ondie := decide (ingCount s o c + n ≤ regFld s (rSWC_ING_LIMIT c) 0 19)
    && decide (mget (fun _ => 0) s.swc.instDie v + n ≤ (getQuota s v).ondie) && room
  let a := takeArrival s
  let stored : Stored := { frame := f, cells := n, sent := 0, place := .die, bad := false, spilled := false, since := s.now, arr := a.1 }
  let spillable := decide (c ≤ 5) && f.mirror = 0 && bit (getReg s rSWC_SPILL_CFG) (8 + c)
  let regionRoom := decide (s.swc.spillUsed + n ≤ regionCells s)
  if !q.spill && ondie then
    countAdmit i n (moveDie i v n 0 (setVoq i o c { q with frames := q.frames ++ [stored] } a.2))
  else if spillable && regionRoom && decide (mget (fun _ => 0) s.swc.instSpill v + n ≤ (getQuota s v).spill)
      && decide (s.swc.writeQueue + n ≤ 1024) then
    let s1 := setVoq i o c { spill := true, frames := q.frames ++ [{ stored with place := .hbm }] } a.2
    let s2 := moveSpill v n 0 { s1 with swc := { s1.swc with writeQueue := s1.swc.writeQueue + n } }
    addCtr (cSWC_SPILL_CELLS i) n (countAdmit i n s2)
  else
    let s1 := tailDrop i f s
    if spillable && !regionRoom then evSwc 2 s1 else s1

/-- The outputs of a port set that the port mode uses (R91). -/
def usedPorts (s : State) (ps : Nat) : Nat :=
  ((List.range 26).map (fun o => if nbit ps o && outputUsed s o then 2 ^ o else 0)).sum

/-- Admission of a multicast frame of class 0–6: no spill; an empty port set makes it a tail drop (R75, R90, R91). -/
def admitMulticast (i ps : Nat) (f : Frame) (s : State) : State :=
  let n := cellsOf f
  let c := f.cls
  let v := f.inst
  let used := usedPorts s ps
  let ondie := decide (mcCount s i c + n ≤ regFld s (rSWC_ING_LIMIT c) 0 19)
    && decide (mget (fun _ => 0) s.swc.instDie v + n ≤ (getQuota s v).ondie) && decide (n + unusedMinima s i ≤ freeCells s)
  if ps = 0 then tailDrop i f s
  else if used = 0 then s
  else if !ondie then tailDrop i f s
  else
    let r := openCopies (match f.dest with | .group g _ => g | _ => 0) used f s
    let stored : McStored := { frame := r.1, cells := n, sent := 0, ports := used, residue := used, bad := 0, arr := s.swc.nextArr }
    countAdmit i n (moveDie i v n 0 (setMcq i c (getMcq s i c ++ [stored]) r.2))

/-- Staging of an input in use, in cells: 64 KiB are 256 cells (R86). -/
def stagedCells (s : State) (i : Nat) : Nat := ((mget (fun _ => []) s.swc.staging i).map Staged.cells).sum

/-- Admission of a class-7 frame into the LS staging of its input (R86). -/
def admitLs (i outs : Nat) (f : Frame) (s : State) : State :=
  let n := cellsOf f
  if outs = 0 then s
  else if 256 < stagedCells s i + n then evSwc 0 (incr (cSWC_LS_DROP i) s)
  else
    let r := match f.dest with | .group g _ => openCopies g outs f s | _ => (f, s)
    let q := mget (fun _ => []) s.swc.staging i
    let e : Staged := { frame := r.1, cells := n, outs := outs }
    { r.2 with swc := { r.2.swc with staging := mset (fun _ => []) r.2.swc.staging i (q ++ [e]) } }

/-- A frame's first cell reaches the switch core at input `i` (R75, R76, R86, R90). A destination that cannot be reached loses the
frame (R39); an output that the port mode does not use drops it (R95). DESIGN CHOICE (log entry 67), where R86, R91 and R95 give no answer: a
class-7 frame for an unused output counts in DROP_OTHER of the input too, and a multicast frame whose set bits are all unused leaves no
copy and no count. The copy of an egress mirror keeps the time at which its frame was admitted (R92). -/
def admitFrame (i : Nat) (f0 : Frame) (s : State) : State :=
  let f := if f0.mirror = 2 && !f0.host then f0 else { f0 with admitAt := s.now }
  match frameOutputs s f with
  | .lost => evSwc 7 (incr (cSWC_DROP_LOST_DEST i) s)
  | .one o g =>
    if !outputUsed s o then incr (cSWC_DROP_OTHER i) s
    else if g.cls = 7 then admitLs i (2 ^ o) g s
    else admitUnicast i o g s
  | .set ps g =>
    if g.cls = 7 then (if ps = 0 then tailDrop i g s else admitLs i (usedPorts s ps) g s)
    else admitMulticast i ps g s

/-- The oldest frame at an input, if there is one, is admitted. -/
def admitAt (i : Nat) (s : State) : State :=
  match mget (fun _ => []) s.swc.arrivals i with
  | [] => s
  | f :: rest => admitFrame i f { s with swc := { s.swc with arrivals := mset (fun _ => []) s.swc.arrivals i rest } }

/-- The inputs in the order of admission: from the pointer on, upward and wrapping (R76). -/
def admitOrder (s : State) : List Nat := (List.range 26).map (fun k => (s.swc.admitPtr + k) % 26)

/-- SWITCH_ADMIT (R75, R76): the frames that reach the switch core in one cell time at the inputs named, in the order of the
admission pointer. -/
def execSwitchAdmit (inputs : List Nat) (s : State) : Result :=
  .next (forEach admitAt ((admitOrder s).filter (fun i => inputs.contains i)) s)

/-- Index of the oldest frame of a VOQ in a place. -/
def firstIn (p : Place) (fs : List Stored) : Option Nat := fs.findIdx? (fun f => f.place = p)

/-- SPILL_READBACK_SELECT (R78): the reader selects the oldest spilled frame of a VOQ while its ingress count lies below the limit less
the hysteresis. -/
def execSpillReadbackSelect (i o c : Nat) (s : State) : Result :=
  let q := getVoq s i o c
  match firstIn .hbm q.frames with
  | none => .next s
  | some k =>
    if ingCount s o c + regFld s rSWC_SPILL_CFG 16 16 < regFld s (rSWC_ING_LIMIT c) 0 19 then
      .next (setVoq i o c { q with frames := q.frames.modify k (fun f => { f with place := .reading, since := s.now }) } s)
    else .next s

/-- A VOQ leaves spill mode once none of its frames is in HBM (R78). -/
def settleVoq (q : Voq) : Voq := { q with spill := q.frames.any (fun f => f.place ≠ .die) }

/-- SPILL_READ_RETURN (R79, R80): the selected frame is back in the cell buffer, no sooner than 0.4 µs after its selection, or is dropped on
an uncorrectable error. -/
def execSpillReadReturn (i o c : Nat) (ecc : EccResult) (s : State) : Result :=
  let q := getVoq s i o c
  match firstIn .reading q.frames with
  | none => .next s
  | some k =>
    match q.frames[k]? with
    | none => .next s
    | some f =>
      let s1 := moveSpill f.frame.inst 0 f.cells (hbmBlockRead ecc (reachTime (f.since + 400) s))
      if ecc = .uncorrectable then
        .next (evSwc 3 (incr (cSWC_DROP_SPILL_ECC i) (setVoq i o c (settleVoq { q with frames := q.frames.eraseIdx k }) s1)))
      else
        .next (moveDie i f.frame.inst f.cells 0
          (setVoq i o c (settleVoq { q with frames := q.frames.modify k (fun f => { f with place := .die, spilled := true }) }) s1))

/-- Whether an output lets a new frame of a class start (R77). SP25 needs an eligible engine (R148). -/
def outputOpen (s : State) (o c : Nat) (f : Frame) : Bool :=
  decide (mget (fun _ => 0) s.swc.egressCells (16 * o + c) < regFld s (rSWC_EGR_LIMIT c) 0 19)
    && (o ≠ 25 || (bestEngine s f.bytes.length).isSome)

/-- The head of a VOQ, when it can send a cell. -/
def voqHead (s : State) (i o c : Nat) : Option Stored :=
  match (getVoq s i o c).frames with
  | f :: _ => if f.place = .die && (decide (0 < f.sent) || outputOpen s o c f.frame) then some f else none
  | [] => none

/-- The class from which input `i` would send a unicast cell to output `o`: class 6 first, then the cell that arrived first (R82). -/
def unicastClass (s : State) (i o : Nat) : Option Nat :=
  if (voqHead s i o 6).isSome then some 6
  else
    ((List.range 6).foldl (fun b c =>
      match voqHead s i o c with
      | none => b
      | some f => match b with
        | some (_, a) => if f.arr < a then some (c, f.arr) else b
        | none => some (c, f.arr)) (none : Option (Nat × Nat))).map Prod.fst

/-- The class whose multicast queue an input serves: class 6 first, then the frame that arrived first. The head cell of that queue is the
input's one multicast cell, and while no output takes it the other multicast queues wait (DESIGN CHOICE, log entry 67: R81–R83 speak of the
head multicast cell of an input and do not say which of its queues gives it). -/
def multicastClass (s : State) (i : Nat) : Option Nat :=
  match getMcq s i 6 with
  | _ :: _ => some 6
  | [] =>
    ((List.range 6).foldl (fun b c =>
      match getMcq s i c with
      | [] => b
      | f :: _ => match b with
        | some (_, a) => if f.arr < a then some (c, f.arr) else b
        | none => some (c, f.arr)) (none : Option (Nat × Nat))).map Prod.fst

/-- Whether the head multicast cell of an input may go to output `o`. -/
def mcWants (s : State) (i o : Nat) : Bool :=
  match multicastClass s i with
  | none => false
  | some c =>
    match getMcq s i c with
    | f :: _ => nbit f.residue o && (decide (0 < f.sent) || outputOpen s o c f.frame)
    | [] => false

/-- What an input asks of an output: a unicast class, and whether its multicast cell wants it. -/
structure SlalomAsk where
  uc : Option Nat
  mc : Bool
  mcCls : Nat
deriving DecidableEq, Repr

/-- The request of an input to an output. -/
def slalomAsk (s : State) (i o : Nat) : SlalomAsk :=
  { uc := unicastClass s i o, mc := mcWants s i o, mcCls := (multicastClass s i).getD 0 }

/-- A request of any kind. -/
def SlalomAsk.any (a : SlalomAsk) : Bool := a.uc.isSome || a.mc

/-- A class-6 request. -/
def SlalomAsk.six (a : SlalomAsk) : Bool := a.uc = some 6 || (a.mc && a.mcCls = 6)

/-- What an input sends in a cell time. -/
inductive SlalomSend where
  | uc (o c : Nat)
  | mc (outs : List Nat) (c : Nat)
deriving DecidableEq, Repr

/-- The match as it grows: requests by 26 × input + output, what each matched input sends, matched outputs, the pointers, inputs that
received a unicast and a multicast grant. -/
structure Slalom where
  asks : Nat → SlalomAsk
  sends : List (Nat × SlalomSend)
  outsDone : List Nat
  gptr6 : Map Nat
  gptr : Map Nat
  aptr : Map Nat
  ucSeen : List Nat
  mcSeen : List Nat

/-- The first element at or after `p`, counting upward mod 26. -/
def firstFrom (p : Nat) (xs : List Nat) : Option Nat :=
  ((List.range 26).map (fun k => (p + k) % 26)).find? (fun x => xs.contains x)

/-- The grant of an output in one iteration, and whether it is a class-6 grant (R81). -/
def slalomGrant (m : Slalom) (o : Nat) : Option (Nat × Bool) :=
  if m.outsDone.contains o then none
  else
    let free := (List.range 26).filter (fun i => !m.sends.any (fun x => x.1 = i))
    let reqs := free.filter (fun i => (m.asks (26 * i + o)).any)
    let six := reqs.filter (fun i => (m.asks (26 * i + o)).six)
    if six.isEmpty then (firstFrom (mget (fun _ => 0) m.gptr o) reqs).map (·, false)
    else (firstFrom (mget (fun _ => 0) m.gptr6 o) six).map (·, true)

/-- The acceptance of an input in one iteration (R81). `grants` pairs an output with whether its grant is a class-6 grant. A grant of an output
that the input asks for by a VOQ and by its multicast cell is a grant of both kinds (DESIGN CHOICE, log entry 67: the pseudocode does not
say which). Both kinds of grant reach the input whatever it accepts. -/
def slalomAccept (turn : Nat → Nat) (first : Bool) (i : Nat) (grants : List (Nat × Bool)) (m : Slalom) : Slalom :=
  if grants.isEmpty then m
  else
    let six := grants.any Prod.snd
    let gs := (if six then grants.filter Prod.snd else grants).map Prod.fst
    let ucs := gs.filter (fun o => let a := m.asks (26 * i + o); if six then a.uc = some 6 else a.uc.isSome)
    let mcs := gs.filter (fun o => let a := m.asks (26 * i + o); a.mc && (!six || a.mcCls = 6))
    let m1 := { m with ucSeen := if grants.any (fun g => (m.asks (26 * i + g.1)).uc.isSome) then i :: m.ucSeen else m.ucSeen,
                       mcSeen := if grants.any (fun g => (m.asks (26 * i + g.1)).mc) then i :: m.mcSeen else m.mcSeen }
    let bump := fun (p : Map Nat) (outs : List Nat) => outs.foldl (fun p o => mset (fun _ => 0) p o ((i + 1) % 26)) p
    let useMc := !mcs.isEmpty && (turn i = 1 || ucs.isEmpty)
    match (if useMc then none else firstFrom (mget (fun _ => 0) m.aptr i) ucs) with
    | none =>
      if mcs.isEmpty then m1
      else
        { m1 with sends := m1.sends ++ [(i, .mc mcs (m.asks (26 * i + mcs.headD 0)).mcCls)], outsDone := m1.outsDone ++ mcs,
                  gptr6 := if first && six then bump m1.gptr6 mcs else m1.gptr6,
                  gptr := if first && !six then bump m1.gptr mcs else m1.gptr }
    | some a =>
      { m1 with sends := m1.sends ++ [(i, .uc a ((m.asks (26 * i + a)).uc.getD 0))], outsDone := m1.outsDone ++ [a],
                gptr6 := if first && six then bump m1.gptr6 [a] else m1.gptr6,
                gptr := if first && !six then bump m1.gptr [a] else m1.gptr,
                aptr := if first then mset (fun _ => 0) m1.aptr i ((a + 1) % 26) else m1.aptr }

/-- One iteration: every unmatched output grants, then every unmatched input accepts (R81). -/
def slalomIterate (turn : Nat → Nat) (first : Bool) (m : Slalom) : Slalom :=
  let grants := (List.range 26).filterMap (fun o => (slalomGrant m o).map (fun g => (g.1, o, g.2)))
  (List.range 26).foldl (fun m i =>
    slalomAccept turn first i ((grants.filter (fun g => g.1 = i)).map (fun g => (g.2.1, g.2.2))) m) m

/-- Inputs that both kinds of grant have reached in the cell time (R81). -/
def Slalom.both (m : Slalom) : List Nat := (List.range 26).filter (fun i => m.ucSeen.contains i && m.mcSeen.contains i)

/-- The match of one cell time: three iterations (R81, R82). -/
def slalomMatch (s : State) : Slalom :=
  let table := (List.range 676).map (fun k => slalomAsk s (k / 26) (k % 26))
  let m0 : Slalom :=
    { asks := fun k => table.getD k { uc := none, mc := false, mcCls := 0 }, sends := [], outsDone := [],
      gptr6 := s.swc.gptr6, gptr := s.swc.gptr, aptr := s.swc.aptr, ucSeen := [], mcSeen := [] }
  let turn := fun i => mget (fun _ => 0) s.swc.mcTurn i
  slalomIterate turn false (slalomIterate turn false (slalomIterate turn true m0))

/-- Copies of a group frame behind a Gondola port: one for each remote device that holds a member and whose path starts on that
link (R369). -/
def fabricCopies (s : State) (o : Nat) (f : Frame) : List Frame :=
  match f.dest with
  | .group g _ =>
    (remoteMembers s g).filterMap (fun d =>
      match fabricTo s d f with
      | some b => if b.route[0]? = some (o - 16) then some { f with fab := some b } else none
      | none => none)
  | _ => [f]

/-- A multicast frame behind a Gondola port: its copies, or MC_EMPTY where no remote device holds a member (R119, R369). -/
def arriveFabric (o : Nat) (f : Frame) (s : State) : State :=
  match f.dest, f.fab with
  | .group g _, none => if (remoteMembers s g).isEmpty then emptyOutput (egressPipe o) s else forEach (enqueueOut o) (fabricCopies s o f) s
  | _, _ => enqueueOut o f s

/-- A frame behind SP25: a multicast frame leaves its copies there, or MC_EMPTY (R119). -/
def arriveCipher (f : Frame) (s : State) : State :=
  match f.dest with
  | .group g _ =>
    let ms := frameMembers s g f
    let s1 := closeCopies 25 f (keepMembers ms f s)
    match memberCopies s ms 25 f with
    | [] => emptyOutput (egressPipe 25) s1
    | cs => forEach (enqueueOut 25) cs s1
  | _ => enqueueOut 25 f s

/-- A frame is wholly behind output `o`. A mirror copy waits for the Tephra ring. Frames for a Gondola port or for SP25, and
host-transmitted frames, have no pass after the switch (R16, R20); the others wait for theirs. -/
def arriveOutput (o : Nat) (f : Frame) (s : State) : State :=
  let n := cellsOf f
  let release := fun s => if f.cls = 7 then moveLsCells o 0 n s else moveEgressCells o f.cls 0 n s
  if f.mirror ≠ 0 then { s with swc := { s.swc with tephra := s.swc.tephra ++ [f] } }
  else if 16 ≤ o && o < 20 then arriveFabric o f (release s)
  else if o = 25 then arriveCipher f (release s)
  else if f.host then enqueueOut o f (release s)
  else if f.cls = 7 then
    { s with swc := { s.swc with lsIn := mset (fun _ => []) s.swc.lsIn o (mget (fun _ => []) s.swc.lsIn o ++ [f]) } }
  else
    { s with swc := { s.swc with egressIn := mset (fun _ => []) s.swc.egressIn o (mget (fun _ => []) s.swc.egressIn o ++ [f]) } }

/-- A frame whose last cell has reached an output: delivered, or dropped at reassembly for a double-bit tag error (R74). -/
def reassemble (o : Nat) (f : Frame) (bad : Bool) (s : State) : State :=
  if bad then evSwc 4 (incr (cSWC_DROP_OTHER o) (moveEgressCells o f.cls 0 (cellsOf f) (closeCopies o f s))) else arriveOutput o f s

/-- The tag of the cell at an output has the ECC result named (R74). -/
def tagEcc (tags : List TagError) (o : Nat) : EccResult :=
  match tags.find? (fun t => t.output = o) with
  | some t => t.ecc
  | none => .clean

/-- A corrected tag error is counted (R74). -/
def countTag (e : EccResult) (s : State) : State := if e = .corrected then incr cSWC_TAG_CORR s else s

/-- The cell of a unicast match crosses (R82). -/
def crossUnicast (tags : List TagError) (i o c : Nat) (s : State) : State :=
  let q := getVoq s i o c
  match q.frames with
  | [] => s
  | f :: rest =>
    let e := tagEcc tags o
    let bad := f.bad || e = .uncorrectable
    let s1 := incr (cSWC_CELLS_OUT o) (countTag e (moveEgressCells o c 1 0 (moveDie i f.frame.inst 0 1 s)))
    if f.cells ≤ f.sent + 1 then reassemble o f.frame bad (setVoq i o c (settleVoq { q with frames := rest }) s1)
    else setVoq i o c { q with frames := { f with sent := f.sent + 1, bad := bad } :: rest } s1

/-- The cell of a multicast match crosses to one output. -/
def crossMcOutput (tags : List TagError) (f : McStored) (c o : Nat) (s : State) : State :=
  let e := tagEcc tags o
  let s1 := incr (cSWC_CELLS_OUT o) (countTag e (moveEgressCells o c 1 0 s))
  if f.cells ≤ f.sent + 1 then reassemble o f.frame (nbit f.bad o || e = .uncorrectable) s1 else s1

/-- The cell of a multicast match crosses (R83): it leaves its queue once its residue set is empty. -/
def crossMulticast (tags : List TagError) (i c : Nat) (outs : List Nat) (s : State) : State :=
  match getMcq s i c with
  | [] => s
  | f :: rest =>
    let s1 := forEach (crossMcOutput tags f c) outs s
    let took := (outs.map (2 ^ ·)).sum
    let badNow := ((outs.filter (fun o => tagEcc tags o = .uncorrectable)).map (2 ^ ·)).sum
    let f1 := { f with residue := f.residue - took, bad := f.bad ||| badNow }
    if f1.residue ≠ 0 then setMcq i c (f1 :: rest) s1
    else
      let s2 := moveDie i f.frame.inst 0 1 s1
      if f.cells ≤ f.sent + 1 then setMcq i c rest s2
      else setMcq i c ({ f1 with sent := f.sent + 1, residue := f.ports } :: rest) s2

/-- One input sends what it matched. -/
def crossSend (tags : List TagError) (x : Nat × SlalomSend) (s : State) : State :=
  match x.2 with
  | .uc o c => crossUnicast tags x.1 o c s
  | .mc outs c => crossMulticast tags x.1 c outs s

/-- A frame at the head of a VOQ of a Gondola port whose destination device is lost is dropped (R39, R95). -/
def dropLostHead (k : Nat) (s : State) : State :=
  let i := k / 182
  let o := k % 182 / 7
  let c := k % 7
  let q := getVoq s i o c
  match q.frames with
  | f :: rest =>
    let lost := match f.frame.fab with | some b => decide (16 ≤ o) && decide (o < 20) && !isReachable s b.dst | none => false
    if lost && f.sent = 0 && f.place = .die then
      evSwc 7 (incr (cSWC_DROP_LOST_DEST i)
        (moveDie i f.frame.inst 0 f.cells (setVoq i o c (settleVoq { q with frames := rest }) s)))
    else s
  | [] => s

/-- Cells that leave the spill write queue for HBM in a cell time: 5,241 bytes at the 1,638 GB/s of R15, half of that while the
emergency cap is in force (R60, R79). -/
def spillDrain (s : State) : Nat := if (levelAt s .swc).emergent then 10 else 20

/-- SLALOM_CELL_TIME (R76, R78, R81–R83): lost destinations at VOQ heads are dropped, the match is made, its cells cross, the
admission pointer advances and the spill write queue drains. -/
def execSlalomCellTime (tags : List TagError) (s : State) : Result :=
  let s0 := forEach dropLostHead (s.swc.voqs.map Prod.fst) s
  let m := slalomMatch s0
  let turns := m.both.foldl (fun t i => mset (fun _ => 0) t i (1 - mget (fun _ => 0) t i)) s0.swc.mcTurn
  let sw := { s0.swc with gptr6 := m.gptr6, gptr := m.gptr, aptr := m.aptr, mcTurn := turns }
  let sw := { sw with admitPtr := (s0.swc.admitPtr + 1) % 26, writeQueue := s0.swc.writeQueue - spillDrain s0 }
  let s1 := { s0 with swc := sw }
  .next (settlePfc (forEach (crossSend tags) m.sends s1))

/-- The admission meter of an output: full after reset (R88). -/
def Meter.full : Meter := { credit := 262144, at_ := 0 }

/-- Credit of a meter in bytes: 160 Gb/s are 20 bytes in each ns (R88). -/
def meterCredit (s : State) (o : Nat) : Nat :=
  let m := mget (fun _ => Meter.full) s.swc.meters o
  min 262144 (m.credit + 20 * (s.now - m.at_))

/-- The state with a meter's credit set at the present. -/
def setMeter (o x : Nat) (s : State) : State :=
  { s with swc := { s.swc with meters := mset (fun _ => Meter.full) s.swc.meters o { credit := x, at_ := s.now } } }

/-- The staged frames of an input without output `o` in the `k`-th; a frame that no output is left to take leaves (R89). -/
def unstage (q : List Staged) (k o : Nat) : List Staged :=
  (q.modify k (fun f => { f with outs := f.outs - 2 ^ o })).filter (fun f => f.outs ≠ 0)

/-- LS_STAGING_HEAD (R74, R86–R89): the plane arbiter of output `o` takes the next staged frame, round robin by input. The meter takes the
frame's length or the frame is dropped; it then needs room in the LS queue of the output. `tags` are the ECC results of its cells' tags. -/
def execLsStagingHead (o : Nat) (tags : List EccResult) (s : State) : Result :=
  let has := fun i => (mget (fun _ => []) s.swc.staging i).any (fun f => nbit f.outs o)
  match firstFrom (mget (fun _ => 0) s.swc.lsPtr o) ((List.range 26).filter has) with
  | none => .next s
  | some i =>
    let q := mget (fun _ => []) s.swc.staging i
    match q.findIdx? (fun f => nbit f.outs o) with
    | none => .next s
    | some k =>
      match q[k]? with
      | none => .next s
      | some f =>
        let s1 := { s with swc := { s.swc with staging := mset (fun _ => []) s.swc.staging i (unstage q k o),
                                               lsPtr := mset (fun _ => 0) s.swc.lsPtr o ((i + 1) % 26) } }
        let len := f.frame.bytes.length
        if meterCredit s o < len then .next (evSwc 1 (incr (cSWC_LS_OVERCAP o) (closeCopies o f.frame s1)))
        else
          let s2 := forEach countTag (tags.take f.cells) (setMeter o (meterCredit s o - len) s1)
          if 8192 < mget (fun _ => 0) s.swc.lsCells o + f.cells then .next (evSwc 0 (incr (cSWC_LS_DROP o) (closeCopies o f.frame s2)))
          else if (tags.take f.cells).contains .uncorrectable then .next (evSwc 4 (incr (cSWC_DROP_OTHER o) (closeCopies o f.frame s2)))
          else .next (arriveOutput o f.frame (moveLsCells o f.cells 0 (incr (cSWC_LS_FRAMES o) s2)))

/-- Bytes of a Tephra slot (SWC_TEPHRA_CFG.SLOT). -/
def tephraSlot (s : State) : Nat := 128 * 2 ^ regFld s rSWC_TEPHRA_CFG 2 3

/-- Entries of the Tephra ring. -/
def tephraEntries (s : State) : Nat := 2 ^ regFld s rSWC_TEPHRA_CFG 8 5

/-- Whether the Tephra ring is full (R93): PROD − CONS equals the slot count. After an overwrite the difference exceeds it, so that the ring
is not full in the rule's words, and later entries go in without a count until the host has moved CONS (DESIGN CHOICE, log entry 67: R93
does not say what follows an overwrite). -/
def tephraFull (s : State) : Bool :=
  ((getReg s rSWC_TEPHRA_PROD - getReg s rSWC_TEPHRA_CONS).toNat = tephraEntries s)

/-- A Tephra entry (R92). -/
def tephraEntry (s : State) (f : Frame) : Bytes :=
  let slot := tephraSlot s
  let cap := min f.bytes.length (slot - 32)
  let rule := match f.rule with | some n => BitVec.ofNat 32 n | none => Config.tephraDefaultRule (byteAt f.record 0)
  slice (toLe 8 s.swc.tephraSeq.toNat ++ toLe 8 f.admitAt ++ toLe 2 f.origLen ++ toLe 2 cap ++ toLe 1 f.srcSp ++ toLe 1 f.dstSp
    ++ toLe 1 (f.copyCls + 16 * f.mirror) ++ toLe 1 (if cap < f.origLen then 1 else 0) ++ toLe 2 f.inst ++ toLe 2 0
    ++ toLe 4 rule.toNat ++ f.bytes.take cap) 0 slot

/-- TEPHRA_ENTRY_WRITE (R92, R93, R95): the oldest copy at SP20 is written into the ring, or discarded when the ring is full in STOP
mode. A copy that arrives while the ring is disabled is discarded. With the PF's Bus Master Enable clear the copies stay. -/
def execTephraEntryWrite (s : State) : Result :=
  match s.swc.tephra with
  | [] => .next s
  | f :: rest =>
    if !(getFn s pf).mayIssue then .next s
    else
      let cfg := getReg s rSWC_TEPHRA_CFG
      let s1 := moveEgressCells 20 0 0 (cellsOf f) { s with swc := { s.swc with tephra := rest } }
      if !bit cfg 0 then .next (incr cSWC_TEPHRA_DROP s1)
      else if tephraFull s && !bit cfg 1 then .next (evSwc 5 (incr cSWC_TEPHRA_DROP s1))
      else
        let s2 := if tephraFull s then evSwc 6 (incr cSWC_TEPHRA_DROP s1) else s1
        let base := (getReg64 s rSWC_TEPHRA_BASE_LO).toNat
        let at_ := base + (s.swc.tephraSeq.toNat % tephraEntries s) * tephraSlot s
        let s3 := hostWrite pf at_ (tephraEntry s f) false s2
        .next (setReg rSWC_TEPHRA_PROD (getReg s rSWC_TEPHRA_PROD + 1)
          { s3 with swc := { s3.swc with tephraSeq := s3.swc.tephraSeq + 1 } })

/-- TEPHRA_CFG_WRITE (R93): SLOT and LOG2_ENTRIES are ignored while ENABLE is 1, a reserved encoding leaves its field (R7), and
setting ENABLE resets PROD and SEQ. -/
def tephraCfgWrite (v : Word) (s : State) : State :=
  let old := getReg s rSWC_TEPHRA_CFG
  let on := bit old 0
  let slot := if on || 4 < fld v 2 3 then fld old 2 3 else fld v 2 3
  let log2 := if on || fld v 8 5 < 6 || 20 < fld v 8 5 then fld old 8 5 else fld v 8 5
  let new := putBit 0 (bit v 0) ||| putBit 1 (bit v 1) ||| putFld 2 3 slot ||| putFld 8 5 log2
  let s1 := setReg rSWC_TEPHRA_CFG new s
  if bit v 0 && !on then setReg rSWC_TEPHRA_PROD 0 { s1 with swc := { s1.swc with tephraSeq := 0 } } else s1

/-- TEPHRA_CFG_WRITE. -/
def execTephraCfgWrite (_p : Party) (v : Word) (s : State) : Result := .next (tephraCfgWrite v s)

/-- An operation on a table of SWC (R18, R25, R90): 0 group port sets, 1 instance quotas. ERR_CODE follows R268. -/
def swcTable (crater : Bool) (op : TableOp) (table index : Nat) (d : Bytes) (s : State) : TableReply × State :=
  if 2 ≤ table then (refuse 3, s)
  else if (if table = 0 then 65536 else 4128) ≤ index then (refuse 1, s)
  else
    match op with
    | .read =>
      let q := getQuota s index
      (readBack index (if table = 0 then toLe 4 (mget (fun _ => 0) s.swc.portSets index) ++ toLe 4 0 else toLe 4 q.ondie ++ toLe 4 q.spill), s)
    | .write =>
      if table = 0 && index < 1024 && !crater then (refuse 2, s)
      else if table = 0 then
        if leAt d 0 4 < 2 ^ 26 && restZero d 4 then
          (wrote index, { s with swc := { s.swc with portSets := mset (fun _ => 0) s.swc.portSets index (leAt d 0 4) } })
        else (refuse 3, s)
      else if leAt d 0 4 < 2 ^ 19 && leAt d 4 4 < 2 ^ 28 && restZero d 8 then
        (wrote index, { s with swc := { s.swc with quotas := mset (fun _ => Quota.init) s.swc.quotas index { ondie := leAt d 0 4, spill := leAt d 4 4 } } })
      else (refuse 3, s)
    | .insert => (refuse 3, s)
    | .delete => (refuse 3, s)

/-- An operation through a view's SWC_IND registers; SWC_IND_CTL shows ERR without a code. -/
def swcIndirect (p : Party) (op : TableOp) (s : State) : State :=
  let a := getView s p rSWC_IND_ADDR
  let d := viewBytes s p rSWC_IND_DATA_LO 2
  let r := swcTable (isCrater p) op (fld a 16 4) (fld a 0 16) d s
  let s1 := setView p rSWC_IND_CTL (putBit 30 (decide (r.1.code ≠ 0))) r.2
  if r.1.code = 0 && op = .read then setViewWords p rSWC_IND_DATA_LO (bytesToWords 2 r.1.data) s1 else s1

/-- SWC_IND_READ (R541). -/
def execSwcIndRead (p : Party) (s : State) : Result := .next (swcIndirect p .read s)
/-- SWC_IND_WRITE (R90). -/
def execSwcIndWrite (p : Party) (s : State) : Result := .next (swcIndirect p .write s)

end Sys2Proof.Machine
end

