-- ==== Sys2Proof/Machine/Ethernet.lean ====
section
/-! DEFINITION. The Ethernet ports: reception and station filters, synthesisers and recalibration, transmit holds and LS
redirection, timestamps (13_ethernet_ports.md). -/

namespace Sys2Proof.Machine

/-- Whether a frame is moved to the LS queue of port `n` from another port. -/
def movedFrames (s : State) (n from_ : Nat) : Bool := (mget (fun _ => []) s.swc.lsQueue n).any (fun f => f.movedFrom = some from_)

/-- One LS frame moves to the alternate's LS queue (R313): counted, charged to the alternate's admission meter, and subject to the
room of that queue (R86, R88). -/
def moveLsFrame (port alt : Nat) (f : Frame) (s : State) : State :=
  let len := f.bytes.length
  let s1 := incr (cETH_LS_REDIRECT port) s
  if meterCredit s1 alt < len then evSwc 1 (incr (cSWC_LS_OVERCAP alt) s1)
  else
    let s2 := setMeter alt (meterCredit s1 alt - len) s1
    if 8192 < mget (fun _ => 0) s2.swc.lsCells alt + cellsOf f then evSwc 0 (incr (cSWC_LS_DROP alt) s2)
    else enqueueOut alt { f with movedFrom := some port } s2

/-- Every LS frame of a redirecting port moves in order to its alternate (R313); a frame that was moved here stays, and so do all while the
mode does not use the alternate, which carries no traffic (R17). -/
def redirectLs (port : Nat) (s : State) : State :=
  let p := getPort s port
  match p.redirecting, p.alt with
  | true, some alt =>
    let q := mget (fun _ => []) s.swc.lsQueue port
    let go := q.filter (fun f => f.movedFrom.isNone)
    if go.isEmpty || !outputUsed s alt then s
    else
      let cells := (go.map cellsOf).sum
      let s1 := { s with swc := { s.swc with lsQueue := mset (fun _ => []) s.swc.lsQueue port (q.filter (fun f => f.movedFrom.isSome)) } }
      let s2 := forEach (moveLsFrame port alt) go (moveLsCells port 0 cells s1)
      if p.lsMoved then s2 else evEth 2 (setPort port { getPort s2 port with lsMoved := true } s2)
  | _, _ => s

/-- Redirection ends when the port may transmit again and no frame moved from it waits at the alternate (R313). -/
def endRedirect (port : Nat) (s : State) : State :=
  let p := getPort s port
  let waiting := match p.alt with | some a => movedFrames s a port | none => false
  if p.redirecting && portOpen s port && !waiting then setPort port { p with redirecting := false } s else s

/-- The ports' redirections brought up to date: waiting LS frames move, and redirections that are over end. -/
def settleRedirects (s : State) : State := forEach (fun n s => endRedirect n (redirectLs n s)) (List.range 16) s

/-- TXHOLD_LIMIT (R313): a hold has lasted LIMIT_US. -/
def execTxholdLimit (port : Nat) (s : State) : Result :=
  let p := getPort s port
  match p.holdFrom with
  | none => .next s
  | some t =>
    if p.overLimit then .next s
    else
      let s1 := reachTime (t + us (regFld s (rETH_TXHOLD_LIMIT port) 0 17)) s
      let s2 := evEth 1 (setPort port { p with overLimit := true, redirecting := p.redirecting || p.alt.isSome } s1)
      .next (redirectLs port s2)

/-- The synthesiser of a group changes state; the holds of its ports follow (R311). -/
def setSynth (g : Nat) (x : Synth) (s : State) : State :=
  settlePfc (settleRedirects (refreshHolds g (setLaneGroup g { laneGroup s g with synth := x, since := s.now } s)))

/-- The synthesiser is READY: a calibration has ended here. -/
def synthReady (g : Nat) (s : State) : State :=
  setSynth g .ready (setLaneGroup g { laneGroup s g with calAt := s.now, calTemp := s.pcr.tempC, dueFrom := none } s)

/-- SYNTH_LOCK (R311): no sooner than 1 ms after NOT_READY was entered. -/
def execSynthLock (group : Nat) (s : State) : Result :=
  let g := laneGroup s group
  if g.mode = .down || g.synth ≠ .notReady || 4 ≤ group then .next s else .next (synthReady group (reachTime (g.since + ms 1) s))

/-- SYNTH_LOCK_TIMEOUT (R311): no lock within 20 ms. -/
def execSynthLockTimeout (group : Nat) (s : State) : Result :=
  let g := laneGroup s group
  if g.mode = .down || g.synth ≠ .notReady || 4 ≤ group then .next s
  else .next (evEth 0 (setSynth group .fault (reachTime (g.since + ms 20) s)))

/-- SYNTH_RELOCK_ATTEMPT (R311): every 1 s in FAULT. -/
def execSynthRelockAttempt (group : Nat) (s : State) : Result :=
  let g := laneGroup s group
  if g.mode = .down || g.synth ≠ .fault then .next s else .next (setSynth group .notReady (reachTime (g.since + ms 1000) s))

/-- A recalibration falls due (R314). -/
def recalFallsDue (g : Nat) (s : State) : State :=
  let x := laneGroup s g
  if x.mode = .down || x.synth ≠ .ready || x.dueFrom.isSome then s else setLaneGroup g { x with dueFrom := some s.now, startFrom := s.now } s

/-- RECAL_DUE (R314): 10 min after the last calibration ended. -/
def execRecalDue (group : Nat) (s : State) : Result :=
  let g := laneGroup s group
  if g.mode = .down || g.synth ≠ .ready || g.dueFrom.isSome then .next s
  else .next (recalFallsDue group (reachTime (g.calAt + ms 600000) s))

/-- A due recalibration starts (R311). -/
def startRecal (g : Nat) (s : State) : State :=
  setSynth g .calibrating (setLaneGroup g { laneGroup s g with dueFrom := none } s)

/-- Whether the LS queues of a group are empty. -/
def lsEmpty (s : State) (g : Nat) : Bool := (span (4 * g) 4).all (fun n => (mget (fun _ => []) s.swc.lsQueue n).isEmpty)

/-- RECAL_START (R314, R315): at a boundary at which the group's LS queues are empty, or 10 ms after the recalibration could start; it
is deferred in EMERGENCY and HOLDOVER. -/
def execRecalStart (group : Nat) (s : State) : Result :=
  let g := laneGroup s group
  match g.dueFrom with
  | none => .next s
  | some _ =>
    if g.synth ≠ .ready || (levelAt s .eth).emergent then .next s
    else if lsEmpty s group then .next (startRecal group s)
    else .next (startRecal group (reachTime (g.startFrom + ms 10) s))

/-- RECAL_VERIFIED (R311): no sooner than 10 µs after the start. -/
def execRecalVerified (group : Nat) (s : State) : Result :=
  let g := laneGroup s group
  if g.synth ≠ .calibrating then .next s else .next (synthReady group (reachTime (g.since + us 10) s))

/-- RECAL_TIMEOUT (R311): not verified within 40 µs. -/
def execRecalTimeout (group : Nat) (s : State) : Result :=
  let g := laneGroup s group
  if g.synth ≠ .calibrating then .next s else .next (setSynth group .notReady (reachTime (g.since + us 40) s))

/-- RECAL_DEFER_EXPIRY (R315): a deferral reaches 60 s, and the recalibration starts. -/
def execRecalDeferExpiry (group : Nat) (s : State) : Result :=
  let g := laneGroup s group
  match g.dueFrom with
  | none => .next s
  | some t =>
    if g.synth ≠ .ready || !(levelAt s .eth).emergent then .next s
    else .next (startRecal group (reachTime (t + ms 60000) s))

/-- Drift of a group in °C since its last calibration. -/
def driftOf (s : State) (g : Nat) : Int := s.pcr.tempC - (laneGroup s g).calTemp

/-- A deferred recalibration whose drift has reached 20 °C starts at once (R315). -/
def forceRecal (g : Nat) (s : State) : State :=
  let x := laneGroup s g
  if x.dueFrom.isSome && x.synth = .ready && (levelAt s .eth).emergent && decide (20 ≤ (driftOf s g).natAbs) then evEth 5 (startRecal g s) else s

/-- A recalibration that an emergency deferred could start from now on: its wait for empty LS queues begins (R314, R315). -/
def endDeferredRecal (g : Nat) (s : State) : State :=
  let x := laneGroup s g
  if x.dueFrom.isSome then setLaneGroup g { x with startFrom := s.now } s else s

/-- A junction sample at the lane groups (R314, R315): 8 °C of drift make a recalibration due. -/
def sampleDrift (g : Nat) (s : State) : State :=
  forceRecal g (if (laneGroup s g).synth = .ready && decide (8 ≤ (driftOf s g).natAbs) then recalFallsDue g s else s)

/-- ETH_LINK_CHANGE (R312, R323). -/
def execEthLinkChange (port : Nat) (up : Bool) (s : State) : Result :=
  let p := getPort s port
  if 16 ≤ port || !p.inUse || !p.powered || p.link = up then .next s
  else .next (settlePfc (settleRedirects (evEth 3 (refreshHold port (setPort port { p with link := up } s)))))

/-- The rate bucket of a station path brought up to the present: `rate` frames per second, burst 64 (R309). -/
def fillBucket (b : RateBucket) (rate now : Nat) : RateBucket := { tokens := min (64 * 1000000000) (b.tokens + rate * (now - b.at_)), at_ := now }

/-- One frame taken from a bucket, none when it holds less than one. -/
def takeBucket (b : RateBucket) (rate now : Nat) : Option RateBucket :=
  let c := fillBucket b rate now
  if c.tokens < 1000000000 then none else some { c with tokens := c.tokens - 1000000000 }

/-- Whether an address is a valid station entry of a port (R308). -/
def stationHit (s : State) (port : Nat) (mac : Nat) : Bool :=
  (getPort s port).stations.any (fun e => e.2.valid && decide (e.2.mac.toNat = mac))

/-- Whether a frame is an EMSG frame (R308). -/
def isEmsgFrame (s : State) (bs : Bytes) : Bool :=
  decide (etherType bs = s.alp.etype.toNat) || (s.alp.udpPort ≠ 0 && decide (udpDport bs = s.alp.udpPort.toNat))

/-- Whether a frame is a PTP frame (R308). -/
def isPtpFrame (bs : Bytes) : Bool := (ptpOff bs).isSome

/-- The 64 bytes of the EMSG in a frame. -/
def emsgPayload (s : State) (bs : Bytes) : Bytes :=
  slice bs (if etherType bs = s.alp.etype.toNat then l3Off bs else l4Off bs + 8) 64

/-- A station hit that is an EMSG frame: admitted to the Crater path, whose check is the EMSG command's, or dropped (R309). -/
def stationEmsg (port : Nat) (s : State) : State :=
  let p := getPort s port
  match takeBucket p.craterRate 1024 s.now with
  | some b => setPort port { p with craterRate := b } s
  | none => incr (cETH_STN_DROP port) s

/-- The receive timestamp that a frame of a port carries with RX_TS_EN set: PTP time at its first bit, seconds and nanoseconds (R317,
R318). -/
def rxStamp (port : Nat) (f : RxFrame) (s : State) : Option (Nat × Nat) :=
  let t := { s with now := f.at_ }
  if bit (getReg s (rETH_PTP_CFG port)) 0 then some (ptpSeconds t, ptpNanos t) else none

/-- A PTP station frame goes to SP24 as class 6 with its receive timestamp, or is dropped (R308, R309). -/
def stationPtp (port : Nat) (f : RxFrame) (s : State) : State :=
  let p := getPort s port
  match takeBucket p.ptpRate 131072 s.now with
  | some b =>
    let fr := { newFrame f.bytes port 4098 false f.at_ with cls := 6, dest := .unicast 24 s.ident.cid, stamp := rxStamp port f s }
    toSwitch fr (setPort port { p with ptpRate := b } s)
  | none => incr (cETH_STN_DROP port) s

/-- The MAC checks of R306: what is counted for a frame, and whether it is good. -/
def macCheck (port : Nat) (f : RxFrame) (s : State) : Bool × State :=
  let tooLong := overMtu s port f.bytes.length (hasVlan f.bytes)
  let short := decide (f.bytes.length + 4 < 64)
  let s1 := addCtr (cETH_FEC_CORR port) f.fecCorr s
  let s2 := if f.fecUncorr then incr (cETH_FEC_UNCORR port) s1 else s1
  let s3 := if f.fecUncorr || !f.fcsGood then incr (cETH_RX_FCS_ERR port) s2 else s2
  let s4 := if short then incr (cETH_RX_UNDERSIZE port) s3 else s3
  let s5 := if tooLong then incr (cETH_RX_OVERSIZE port) s4 else s4
  let good := !(f.fecUncorr || !f.fcsGood || short || tooLong)
  (good, if good then incr (cETH_RX_FRAMES port) (addCtr (cETH_RX_BYTES port) (f.bytes.length + 4) s5) else s5)

/-- The eight times of a PFC frame. -/
def pfcTimes (bs : Bytes) : List Nat := (List.range 8).map (fun k => beAt bs (18 + 2 * k) 2)

/-- A good frame is sorted (R307, R308): MAC control, station EMSG and PTP, or the port's ingress pipeline. In Refuge mode only EMSG
station frames of E0 are taken (R459). -/
def sortFrame (port : Nat) (f : RxFrame) (s : State) : State :=
  let control := decide (etherType f.bytes = 0x8808)
  if control && decide (beAt f.bytes 14 2 = 1) then incr (cETH_PAUSE_RX port) s
  else if control && decide (beAt f.bytes 14 2 = 0x0101) then pfcReceived port (BitVec.ofNat 8 (beAt f.bytes 16 2)) (pfcTimes f.bytes) s
  else
    let hit := stationHit s port (beAt f.bytes 0 6)
    let s1 := if hit then incr (cETH_STN_HITS port) s else s
    if hit && isEmsgFrame s f.bytes then stationEmsg port s1
    else if s.pcr.refuge then s1
    else if hit && isPtpFrame f.bytes then stationPtp port f s1
    else toIngress (ingressPipe port) { newFrame f.bytes port 0 false f.at_ with stamp := rxStamp port f s1 } s1

/-- ETH_FRAME_RECEIVE (R306–R309). -/
def execEthFrameReceive (port : Nat) (f : RxFrame) (s : State) : Result :=
  let p := getPort s port
  if 16 ≤ port || !p.inUse || !p.powered || !p.link then .next s
  else
    let r := macCheck port f s
    .next (if r.1 then sortFrame port f r.2 else r.2)

/-- An empty station entry. -/
def Station.empty : Station := { mac := 0, valid := false }

/-- Port and entry that a view has selected. -/
def stationSel (s : State) (p : Party) : Nat × Nat := let v := getView s p rETH_STN_SEL; (fld v 4 4, fld v 0 4)

/-- A write of ETH_STN_HI (R310): LO and HI are committed to the selected entry as one change. -/
def writeStation (p : Party) (hi : Word) (s : State) : State :=
  let (port, entry) := stationSel s p
  let s1 := setView p rETH_STN_HI (hi &&& 0x1FFFF) s
  let refused := decide (entry < 4) && !isCrater p
  let s2 := setView p rETH_STN_SEL (setFld (getView s1 p rETH_STN_SEL) 30 1 (if refused then 1 else 0)) s1
  if refused then s2
  else
    let mac : BitVec 48 := BitVec.ofNat 48 (fld hi 0 16 * 2 ^ 32 + (getView s p rETH_STN_LO).toNat)
    let x := getPort s2 port
    setPort port { x with stations := mset (fun _ => Station.empty) x.stations entry { mac := mac, valid := bit hi 16 } } s2

/-- STATION_ENTRY_WRITE (R310). -/
def execStationEntryWrite (p : Party) (hi : Word) (s : State) : Result := .next (writeStation p hi s)

/-- A read of ETH_STN_LO (R310): the selected entry is loaded, and its high half latched. -/
def readStation (p : Party) (s : State) : Word × State :=
  let (port, entry) := stationSel s p
  let e := mget (fun _ => Station.empty) (getPort s port).stations entry
  let lo := BitVec.ofNat 32 e.mac.toNat
  let hi := BitVec.ofNat 32 (e.mac.toNat / 2 ^ 32) ||| putBit 16 e.valid
  (lo, setView p rETH_STN_HI hi (setView p rETH_STN_LO lo s))

/-- STN_LO_READ (R310). -/
def execStnLoRead (p : Party) (s : State) : Result :=
  let r := readStation p s
  .next (returnValue p rETH_STN_LO r.1 r.2)

/-- A read of ETH_TS_INFO (R319): the oldest capture leaves the FIFO, and its time words are latched for the reader. -/
def popCapture (p : Party) (port : Nat) (s : State) : Word × State :=
  let x := getPort s port
  match x.captures with
  | [] => (0, s)
  | c :: rest =>
    let v := putFld 0 16 c.seqId.toNat ||| putFld 16 4 c.msgType.toNat ||| putFld 20 8 c.domain.toNat ||| putBit 31 true
    let latch := fun (l : Map Word) (off : Nat) (w : Word) => mset (fun _ => 0) l (viewKey p off) w
    let l1 := latch s.latch (rETH_TS_NS port) c.ns
    let l2 := latch l1 (rETH_TS_SEC_LO port) (BitVec.ofNat 32 c.sec.toNat)
    let l3 := latch l2 (rETH_TS_SEC_HI port) (BitVec.ofNat 32 (c.sec.toNat / 2 ^ 32))
    (v, setPort port { x with captures := rest } { s with latch := l3 })

/-- TS_INFO_POP (R319). -/
def execTsInfoPop (p : Party) (port : Nat) (s : State) : Result :=
  let r := popCapture p port s
  .next (returnValue p (rETH_TS_INFO port) r.1 r.2)

/-- The departure time written into a Sync, its UDP checksum made good (R320). -/
def stampSync (s : State) (bs : Bytes) : Bytes :=
  match ptpOff bs with
  | some p => fixUdpSum (patch bs (p + 34) (toBe 6 (ptpSeconds s) ++ toBe 4 (ptpNanos s)))
  | none => bs

/-- A capture of a PTP event message that leaves (R319). -/
def captureTx (port : Nat) (bs : Bytes) (s : State) : State :=
  match ptpOff bs with
  | none => s
  | some p =>
    let x := getPort s port
    if 4 ≤ byteAt bs p % 16 then s
    else if 64 ≤ x.captures.length then evEth 4 (incr (cETH_TS_OVF port) s)
    else
      let c : TsCapture :=
        { seqId := BitVec.ofNat 16 (beAt bs (p + 30) 2), msgType := BitVec.ofNat 4 (byteAt bs p % 16), domain := BitVec.ofNat 8 (byteAt bs (p + 4)),
          sec := BitVec.ofNat 48 (ptpSeconds s), ns := BitVec.ofNat 32 (ptpNanos s) }
      setPort port { x with captures := x.captures ++ [c] } s

/-- A frame leaves on the wire of an Ethernet port (R317–R320). -/
def wireOut (port : Nat) (f : Frame) (s : State) : State :=
  let oneStep := bit (getReg s (rETH_PTP_CFG port)) 2
  let bs := if oneStep && !f.sync && isOneStep f.bytes then stampSync s f.bytes else f.bytes
  let s1 := if oneStep && f.sync then incr (cETH_PTP_1STEP_SKIP port) s else s
  let s2 := if bit (getReg s1 (rETH_PTP_CFG port)) 1 then captureTx port bs s1 else s1
  emit (.ethTx port bs) (incr (cETH_TX_FRAMES port) (addCtr (cETH_TX_BYTES port) (bs.length + 4) s2))

/-- A VOQ of a port that the mode no longer uses is emptied: the number of its frames, and the state. -/
def emptyVoq (port k : Nat) (s : State) : State :=
  let q := mget (fun _ => Voq.empty) s.swc.voqs k
  let drop := fun (f : Stored) (s : State) =>
    if f.place = .die then moveDie (k / 182) f.frame.inst 0 (f.cells - f.sent) s else moveSpill f.frame.inst 0 f.cells s
  addCtr (cETH_TXHOLD_DROP port) q.frames.length
    (forEach drop q.frames { s with swc := { s.swc with voqs := merase s.swc.voqs k } })

/-- A frame of a multicast queue goes on without a port: the cell whose last output that was leaves, and the frame with its last output. -/
def McStored.without (f : McStored) (port : Nat) : Option McStored :=
  let ports := f.ports - (f.ports &&& 2 ^ port)
  let residue := f.residue - (f.residue &&& 2 ^ port)
  if ports = 0 then none
  else if residue ≠ 0 then some { f with ports := ports, residue := residue }
  else if f.cells ≤ f.sent + 1 then none
  else some { f with ports := ports, residue := ports, sent := f.sent + 1 }

/-- The multicast queues give up a port: the cells on die of input and instance follow. -/
def emptyMcq (port k : Nat) (s : State) : State :=
  let q := mget (fun _ => []) s.swc.mcqs k
  let drop := fun (f : McStored) (s : State) =>
    if !nbit f.ports port then s
    else
      let left := match f.without port with | some g => g.cells - g.sent | none => 0
      incr (cETH_TXHOLD_DROP port) (closeCopies port f.frame (moveDie (k / 7) f.frame.inst 0 (f.cells - f.sent - left) s))
  let keep := q.filterMap (fun f => if nbit f.ports port then f.without port else some f)
  forEach drop q { s with swc := { s.swc with mcqs := mset (fun _ => []) s.swc.mcqs k keep } }

/-- The staged LS frames of an input give up a port. -/
def emptyStaging (port i : Nat) (s : State) : State :=
  let q := mget (fun _ => []) s.swc.staging i
  let hit := q.filter (fun f => nbit f.outs port)
  let keep := (q.map (fun f => { f with outs := f.outs - (f.outs &&& 2 ^ port) })).filter (fun f => f.outs ≠ 0)
  addCtr (cETH_TXHOLD_DROP port) hit.length (forEach (fun f s => closeCopies port f.frame s) hit
    { s with swc := { s.swc with staging := mset (fun _ => []) s.swc.staging i keep } })

/-- The frames queued for a port that the mode no longer uses are discarded (R17, R491): in the VOQs, the multicast queues and the LS staging,
and behind the output. -/
def discardQueued (port : Nat) (s0 : State) : State :=
  let s1 := forEach (emptyVoq port) ((s0.swc.voqs.map Prod.fst).filter (fun k => k % 182 / 7 = port)) s0
  let s2 := forEach (emptyMcq port) (s1.swc.mcqs.map Prod.fst) s1
  let s := forEach (emptyStaging port) (s2.swc.staging.map Prod.fst) s2
  let gone := s.swc.egress.filter (fun e => decide (e.1 / 65536 / 16 = port))
  let inPass := mget (fun _ => []) s.swc.egressIn port ++ mget (fun _ => []) s.swc.lsIn port
  let n := (gone.map (fun e => e.2.length)).sum + (mget (fun _ => []) s.swc.lsQueue port).length + inPass.length
  let cells := mfilter (fun k _ => decide (k / 16 ≠ port)) s.swc.egressCells
  let swc := { s.swc with egress := mfilter (fun k _ => decide (k / 65536 / 16 ≠ port)) s.swc.egress, egressCells := cells,
                          lsQueue := merase s.swc.lsQueue port, lsCells := merase s.swc.lsCells port,
                          egressIn := merase s.swc.egressIn port, lsIn := merase s.swc.lsIn port }
  addCtr (cETH_TXHOLD_DROP port) n (forEach (closeCopies port) inPass { s with swc := swc })

/-- One port follows the mode of its group (R17, R305, R462, R491); in Refuge mode E0 alone runs. A port that a power state powers down keeps its frames and is held. -/
def fitPort (port : Nat) (s : State) : State :=
  let g := laneGroup s (port / 4)
  let p := getPort s port
  let powered := decide (g.mode ≠ .down) && (!s.pcr.refuge || port = 0)
  let use := if powered then modeUses g.mode port else modeUses g.imageMode port
  let s1 := setPort port { p with inUse := use, powered := powered, link := p.link && powered && use } s
  if p.inUse && !use then discardQueued port (setPort port { getPort s1 port with holdFrom := none, overLimit := false, redirecting := false } s1) else s1

/-- A group changes its mode: a speed change (R304, R311). -/
def changeMode (g : Nat) (m : GroupMode) (s : State) : State :=
  let x := laneGroup s g
  if x.mode = m then s
  else
    let s1 := setLaneGroup g { x with mode := m, synth := .notReady, since := s.now, dueFrom := none } s
    settleRedirects (refreshHolds g (forEach fitPort (span (4 * g) 4) s1))

/-- The mode that power state and boot mode give a group (R305, R460). -/
def modeFor (s : State) (g : Nat) : GroupMode :=
  if s.pcr.refuge then (if g = 0 then .four100 else .down)
  else match powerSchedule s with
    | .p2 => if g = 0 then .four100 else .down
    | .p3 => .down
    | _ => (laneGroup s g).imageMode

/-- Every group takes the mode of the power state in force. A transition out of P2 in EMERGENCY or HOLDOVER leaves EG0 as it is until
NORMAL is driven (R491). -/
def fitGroups (s : State) : State :=
  forEach (fun g s =>
    if g = 0 && (levelAt s .eth).emergent && (laneGroup s 0).mode = .four100 && modeFor s 0 ≠ .down then s
    else changeMode g (modeFor s g) s) (List.range 4) s

end Sys2Proof.Machine
end

