-- ==== Sys2Proof/Machine/Tcp.lean ====
section
/-! DEFINITION. TCP of the storage engine (R174, R175): segments out and in, acknowledgement, loss recovery and timers. Inside the
options of R174 the engine follows the RFCs that the rule names; where they leave a choice, a log entry says what is chosen. -/

namespace Sys2Proof.Machine

/-- `a - b` modulo 2^32. -/
def seqSub (a b : Nat) : Nat := (a + 2 ^ 32 - b % 2 ^ 32) % 2 ^ 32

/-- `a + n` modulo 2^32. -/
def seqAdd (a n : Nat) : Nat := (a + n) % 2 ^ 32

/-- Whether `a` lies at or behind `b` in sequence order. -/
def seqLe (a b : Nat) : Bool := decide (seqSub b a < 2 ^ 31)

/-- A TCP that has sent nothing. -/
def Tcp.init : Tcp :=
  { established := false, una := 0, nxt := 0, rcvNxt := 0, sndWnd := 0, sndScale := 0, rcvScale := 0, mss := 536, cwnd := 0, ssthresh := 1048576,
    dupAcks := 0, recover := none, highRxt := 0, sendBuf := [], sackOk := false, sacked := [], tsOk := false, tsRecent := 0, ecnOk := false,
    ecnEcho := false, cwr := false, ecnPoint := none, rtoAt := none, rto := ms 1000, srtt := none, rttvar := 0, timed := none, retries := 0, resent := [], ackAt := none,
    ackSegs := 0, rxBuf := [], ooo := [], aliveAt := 0, probes := 0 }

/-- A connection that is IDLE (R176). -/
def Conn.init : Conn :=
  { state := .idle, phase := .syn, recorder := false, port := 0, v6 := false, hdgst := false, ddgst := false, ecn := false, cls := 0,
    qsize := 2, lport := 0, rport := 0, qid := 0, laddr := [], raddr := [], mac := [], vlan := 0, connectData := [], maxH2c := 0,
    openedAt := 0, tcp := Tcp.init, cids := [], nextCid := 0, rawData := [], rawBad := false, opener := none, closer := none }

/-- A connection. -/
def getConn (s : State) (n : Nat) : Conn := mget (fun _ => Conn.init) s.str.conns n

/-- The state with a connection replaced. -/
def setConn (n : Nat) (c : Conn) (s : State) : State :=
  { s with str := { s.str with conns := mset (fun _ => Conn.init) s.str.conns n c } }

/-- The state with the TCP of a connection replaced. -/
def setTcp (n : Nat) (t : Tcp) (s : State) : State := setConn n { getConn s n with tcp := t } s

/-- Receive window that is free: 1 MiB less what has not been taken (R175). -/
def Tcp.window (t : Tcp) : Nat := 1048576 - t.rxBuf.length

/-- Shift of the window that the engine advertises: 1 MiB in units of 32 bytes. -/
def windowShift : Nat := 5

/-- Clock of the timestamp option, in ms. -/
def tsClock (s : State) : Nat := s.now / 1000000 % 2 ^ 32

/-- The source address on the wire: station entry 0 of the port (log entry). -/
def portMac (s : State) (port : Nat) : Bytes := toBe 6 (mget (fun _ => Station.empty) (getPort s port).stations 0).mac.toNat

/-- A TCP segment as an Ethernet frame; `ect` marks it ECN-capable. -/
def tcpFrame (s : State) (c : Conn) (seq ack flags wnd : Nat) (opts data : Bytes) (ect : Bool) : Bytes :=
  let src := slice c.laddr 0 (if c.v6 then 16 else 4)
  let dst := slice c.raddr 0 (if c.v6 then 16 else 4)
  let head := toBe 2 c.lport ++ toBe 2 c.rport ++ toBe 4 seq ++ toBe 4 ack ++ toBe 1 ((20 + opts.length) / 4 * 16) ++ toBe 1 flags
    ++ toBe 2 (min 65535 wnd)
  let seg := head ++ toBe 2 0 ++ toBe 2 0 ++ opts ++ data
  let pseudo := src ++ dst ++ toBe 2 0 ++ toBe 2 6 ++ toBe 4 seg.length
  let sum := inetChecksum (pseudo ++ seg)
  let tos := if ect then 2 else 0
  let ip := if c.v6 then ipv6Header tos 0 64 6 seg.length src dst else ipv4Header tos 64 6 seg.length src dst
  let tag := if c.vlan = 0 then [] else toBe 2 tpidC ++ toBe 2 c.vlan
  c.mac ++ portMac s c.port ++ tag ++ toBe 2 (if c.v6 then 0x86DD else 0x0800) ++ ip ++ patch seg 16 (toBe 2 sum)

/-- A segment leaves SP23 for FP1 under instance 4,102 (R16, R173), with the class and port of its connection. -/
def sendFrame (c : Conn) (bytes : Bytes) (s : State) : State :=
  toIngress 1 { newFrame bytes 23 4102 false s.now with cls := c.cls, dest := .unicast c.port s.ident.cid } s

/-- The timestamp option, and the blocks out of order when the peer permits SACK. -/
def ackOptions (s : State) (t : Tcp) : Bytes :=
  let ts := if t.tsOk then [1, 1, 8, 10] ++ toBe 4 (tsClock s) ++ toBe 4 t.tsRecent else []
  let blocks := (t.ooo.take 3).flatMap (fun b => toBe 4 b.1 ++ toBe 4 (seqAdd b.1 b.2.length))
  let sack := if t.sackOk && !t.ooo.isEmpty then [1, 1, 5, BitVec.ofNat 8 (2 + blocks.length)] ++ blocks else []
  ts ++ sack

/-- Flags of a segment of an established connection: ACK, and ECE while a mark is echoed. -/
def ackFlags (t : Tcp) : Nat := 16 + (if t.ecnOk && t.ecnEcho then 64 else 0)

/-- A segment of an established connection is sent: it acknowledges what has come in, and settles the delayed ACK. Only new data is
marked ECN-capable (RFC 3168). -/
def sendSegment (n seq more : Nat) (data : Bytes) (fresh : Bool) (s : State) : State :=
  let c := getConn s n
  let t := c.tcp
  let b := tcpFrame s c seq t.rcvNxt (ackFlags t + more) (t.window / 2 ^ t.rcvScale) (ackOptions s t) data (t.ecnOk && fresh)
  sendFrame c b (setTcp n { t with ackAt := none, ackSegs := 0 } s)

/-- An acknowledgement without data. -/
def sendAck (n : Nat) (s : State) : State := sendSegment n (getConn s n).tcp.nxt 0 [] false s

/-- Options of the SYN (R174): MSS, SACK-permitted, timestamps, window scale. -/
def synOptions (s : State) (c : Conn) : Bytes :=
  let mss := regFld s (rETH_MTU c.port) 0 14 - (if c.v6 then 60 else 40)
  [2, 4] ++ toBe 2 mss ++ [4, 2, 8, 10] ++ toBe 4 (tsClock s) ++ toBe 4 0 ++ [1, 3, 3, BitVec.ofNat 8 windowShift]

/-- The SYN is sent, with ECE and CWR when ECN is asked for. -/
def sendSyn (n : Nat) (s : State) : State :=
  let c := getConn s n
  let t := c.tcp
  let b := tcpFrame s c t.una 0 (2 + (if c.ecn then 192 else 0)) 65535 (synOptions s c) [] false
  sendFrame c b (setTcp n { t with nxt := seqAdd t.una 1, rtoAt := some (s.now + t.rto) } s)

/-- Data bytes of a full segment. -/
def Tcp.segSize (t : Tcp) : Nat := max 1 (t.mss - (if t.tsOk then 12 else 0))

/-- Bytes sent and not acknowledged. -/
def Tcp.flight (t : Tcp) : Nat := min t.sendBuf.length (seqSub t.nxt t.una)

/-- Bytes of the flight that the peer holds (SACK). -/
def Tcp.sackedBytes (t : Tcp) : Nat := (t.sacked.map (fun r => seqSub r.2 r.1)).sum

/-- Unsent data is sent, as far as the congestion window, the peer's window and the 1 MiB of R175 allow. -/
def transmitData (n : Nat) : Nat → State → State
  | 0, s => s
  | fuel + 1, s =>
    let t := (getConn s n).tcp
    let unsent := t.sendBuf.length - t.flight
    let room := min (min t.cwnd (t.sndWnd)) 1048576 - (t.flight - t.sackedBytes)
    let k := min (min unsent t.segSize) (min room (min t.sndWnd 1048576 - t.flight))
    if !t.established || k = 0 || (k < min unsent t.segSize && t.flight ≠ 0) then s
    else
      let more := (if k = unsent then 8 else 0) + (if t.cwr then 128 else 0)
      let s1 := sendSegment n t.nxt more (slice (t.sendBuf.drop t.flight) 0 k) true s
      let t1 := (getConn s1 n).tcp
      let nxt := seqAdd t.nxt k
      let t2 := { t1 with nxt := nxt, cwr := false, timed := some (t.timed.getD (nxt, s.now)), rtoAt := some (t.rtoAt.getD (s.now + t.rto)) }
      transmitData n fuel (setTcp n { t2 with aliveAt := s.now } s1)

/-- What can be sent is sent. -/
def pumpTcp (n : Nat) (s : State) : State := transmitData n ((getConn s n).tcp.sendBuf.length + 1) s

/-- Bytes are handed to TCP. -/
def tcpSend (n : Nat) (bs : Bytes) (s : State) : State :=
  let t := (getConn s n).tcp
  pumpTcp n (setTcp n { t with sendBuf := t.sendBuf ++ bs } s)

/-- STR_CMD_CFG.RETRIES. -/
def retryLimit (s : State) : Nat := regFld s rSTR_CMD_CFG 16 4

/-- Whether some segment has been sent again RETRIES times without an acknowledgement (R175). -/
def Tcp.spent (t : Tcp) (limit : Nat) : Bool := t.resent.any (fun e => decide (limit ≤ e.2))

/-- One segment from sequence number `q` on is sent again; the bytes are those of the send buffer (R175). A segment that has been sent
again RETRIES times is not: the connection fails when its timeout comes. -/
def resend (n q : Nat) (s : State) : State :=
  let t := (getConn s n).tcp
  let off := seqSub q t.una
  let count := mget (fun _ => 0) t.resent q
  let stop := t.sacked.foldl (fun m r => if seqLe q r.1 then min m (seqSub r.1 t.una) else m) t.flight
  let k := min t.segSize (stop - off)
  if retryLimit s ≤ count then s
  else
    let s1 := incr cSTR_RETRANS_SEG (sendSegment n q 0 (slice (t.sendBuf.drop off) 0 k) false s)
    let t1 := (getConn s1 n).tcp
    setTcp n { t1 with timed := none, highRxt := seqAdd q k, resent := mset (fun _ => 0) t1.resent q (count + 1) } s1

/-- The next hole below the highest byte that the peer holds, behind what has been sent again (RFC 6675). -/
def Tcp.nextHole (t : Tcp) : Option Nat :=
  let from_ := if seqLe t.una t.highRxt then t.highRxt else t.una
  let q := t.sacked.foldl (fun q r => if seqLe r.1 q && seqLe q r.2 then r.2 else q) from_
  if t.sacked.any (fun r => seqLe q r.1 && q ≠ r.1) then some q else none

/-- Loss recovery begins (RFC 6675, NewReno without SACK). -/
def beginRecovery (n : Nat) (s : State) : State :=
  let t := (getConn s n).tcp
  let ss := max (t.flight / 2) (2 * t.segSize)
  resend n t.una (setTcp n { t with ssthresh := ss, cwnd := ss + (if t.sackOk then 0 else 3 * t.segSize), recover := some t.nxt } s)

/-- A duplicate acknowledgement. -/
def dupAck (n : Nat) (s : State) : State :=
  let t := { (getConn s n).tcp with dupAcks := (getConn s n).tcp.dupAcks + 1 }
  let s1 := setTcp n t s
  match t.recover with
  | none => if 3 ≤ t.dupAcks || 2 * t.segSize < t.sackedBytes then beginRecovery n s1 else s1
  | some _ =>
    if t.sackOk then
      match t.nextHole with
      | some q => if t.flight - t.sackedBytes < t.cwnd then resend n q s1 else s1
      | none => pumpTcp n s1
    else pumpTcp n (setTcp n { t with cwnd := t.cwnd + t.segSize } s1)

/-- Smoothed round trip, variation and timeout after a sample (RFC 6298), with the minimum of STR_CMD_CFG.RTO_MIN_MS. -/
def Tcp.measure (t : Tcp) (rttMin r : Nat) : Tcp :=
  let var := match t.srtt with | none => r / 2 | some a => (3 * t.rttvar + (if a ≤ r then r - a else a - r)) / 4
  let avg := match t.srtt with | none => r | some a => (7 * a + r) / 8
  { t with srtt := some avg, rttvar := var, rto := max rttMin (avg + 4 * var), timed := none }

/-- New data is acknowledged: the window moves on. In a recovery without SACK a partial acknowledgement deflates the window (RFC 6582). -/
def ackData (s : State) (t : Tcp) (ack acked : Nat) : Tcp :=
  let t1 := match t.timed with
    | some (q, at_) => if seqLe q ack then t.measure (ms (regFld s rSTR_CMD_CFG 8 8)) (s.now - at_) else t
    | none => t
  let t2 := { t1 with una := ack, sendBuf := t1.sendBuf.drop acked, sacked := t1.sacked.filter (fun r => seqLe ack r.1), retries := 0,
                      resent := mfilter (fun q _ => seqLe ack q) t1.resent, dupAcks := 0, rtoAt := if ack = t1.nxt then none else some (s.now + t1.rto) }
  match t2.recover with
  | some r =>
    if seqLe r ack then { t2 with recover := none, cwnd := t2.ssthresh }
    else if t2.sackOk then t2
    else { t2 with cwnd := max t2.segSize (t2.cwnd - acked + (if t2.segSize ≤ acked then t2.segSize else 0)) }
  | none =>
    if t2.cwnd < t2.ssthresh then { t2 with cwnd := t2.cwnd + min acked t2.segSize }
    else { t2 with cwnd := t2.cwnd + max 1 (t2.segSize * t2.segSize / max 1 t2.cwnd) }

/-- An acknowledgement comes in: its number, window, SACK blocks and ECE, which acts once in each window (RFC 3168); `pure` says that the
segment carries no data. -/
def onAck (n ack wnd : Nat) (sacks : List (Nat × Nat)) (ece pure : Bool) (s : State) : State :=
  let t := (getConn s n).tcp
  let acked := seqSub ack t.una
  if t.nxt ≠ ack && !(acked ≤ seqSub t.nxt t.una) then s
  else
    let new := sacks.filter (fun r => seqLe t.una r.1 && seqLe r.2 t.nxt && !t.sacked.contains r)
    let same := decide (wnd * 2 ^ t.sndScale = t.sndWnd)
    let t1 := { t with sndWnd := wnd * 2 ^ t.sndScale, sacked := t.sacked ++ new }
    if acked = 0 then
      let s1 := setTcp n t1 s
      if pure && t.flight ≠ 0 && (same || !new.isEmpty) then dupAck n s1 else pumpTcp n s1
    else
      let t2 := ackData s t1 ack acked
      let newWindow := match t2.ecnPoint with | some p => seqLe p ack | none => true
      let ss := max (t2.flight / 2) (2 * t2.segSize)
      let t3 := if ece && t2.ecnOk && t2.recover.isNone && newWindow then
          { t2 with ssthresh := ss, cwnd := ss, cwr := true, ecnPoint := some t2.nxt } else t2
      let s1 := setTcp n t3 s
      pumpTcp n (if t3.recover.isSome && !t3.sendBuf.isEmpty then resend n t3.una s1 else s1)

/-- Blocks out of order that now follow on. -/
def Tcp.joinBlocks (t : Tcp) : Nat → Tcp
  | 0 => t
  | fuel + 1 =>
    match t.ooo.find? (fun b => seqLe b.1 t.rcvNxt) with
    | none => t
    | some b =>
      let stop := seqAdd b.1 b.2.length
      let t1 := { t with ooo := merase t.ooo b.1 }
      if seqLe stop t.rcvNxt then t1.joinBlocks fuel
      else { t1 with rcvNxt := stop, rxBuf := t1.rxBuf ++ b.2.drop (seqSub t.rcvNxt b.1) }.joinBlocks fuel

/-- Data of a segment comes in (RFC 9293, RFC 5681): in order it is taken, out of order it is kept and acknowledged at once; every
second full segment is acknowledged, another within 500 µs (R174). -/
def onData (n seq : Nat) (data : Bytes) (s : State) : State :=
  let t := (getConn s n).tcp
  let ahead := seqSub seq t.rcvNxt
  let old := seqSub t.rcvNxt seq
  if data.isEmpty then s
  else if seqLe seq t.rcvNxt then
    let d := slice (data.drop old) 0 (min (data.length - old) t.window)
    if d.isEmpty then sendAck n s
    else
      let filled := !t.ooo.isEmpty
      let t1 := ({ t with rcvNxt := seqAdd t.rcvNxt d.length, rxBuf := t.rxBuf ++ d }).joinBlocks t.ooo.length
      let t2 := { t1 with ackSegs := t1.ackSegs + 1, ackAt := some (t1.ackAt.getD (s.now + us 500)) }
      if 2 ≤ t2.ackSegs || filled then sendAck n (setTcp n t2 s) else setTcp n t2 s
  else if ahead + data.length ≤ t.window then sendAck n (setTcp n { t with ooo := minsert t.ooo seq data } s)
  else sendAck n s

/-- The options of a received segment: MSS, window scale, SACK-permitted, SACK blocks, timestamp value. -/
structure TcpOptions where
  mss : Option Nat
  scale : Option Nat
  sackOk : Bool
  sacks : List (Nat × Nat)
  ts : Option Nat
deriving DecidableEq, Repr

/-- Options read from their bytes. -/
def readOptions : Nat → Bytes → TcpOptions → TcpOptions
  | 0, _, o => o
  | fuel + 1, bs, o =>
    match bs with
    | [] => o
    | k :: rest =>
      if k = 0 then o
      else if k = 1 then readOptions fuel rest o
      else
        let len := byteAt bs 1
        if len < 2 then o
        else
          let blocks := (List.range ((len - 2) / 8)).map (fun i => (beAt bs (2 + 8 * i) 4, beAt bs (6 + 8 * i) 4))
          let o1 := match k.toNat with
            | 2 => { o with mss := some (beAt bs 2 2) }
            | 3 => { o with scale := some (min 14 (byteAt bs 2)) }
            | 4 => { o with sackOk := true }
            | 5 => { o with sacks := blocks }
            | 8 => { o with ts := some (beAt bs 2 4) }
            | _ => o
          readOptions fuel (bs.drop len) o1

/-- The options of a segment at offset `o` of a frame. -/
def optionsAt (bs : Bytes) (o : Nat) : TcpOptions :=
  let n := byteAt bs (o + 12) / 16 * 4 - 20
  readOptions n (slice bs (o + 20) n) { mss := none, scale := none, sackOk := false, sacks := [], ts := none }

/-- A received frame that R174 does not support: a fragment, IPv4 options, an IPv6 extension header. -/
def unsupportedIp (bs : Bytes) : Bool :=
  let o := l3Off bs
  if ipVersion bs = 4 then ipHeaderLen bs ≠ 20 || beAt bs (o + 6) 2 % 16384 ≠ 0
  else ipVersion bs = 6 && ipProto bs ≠ 6

/-- Payload length of a TCP segment, from the lengths of the IP header. -/
def tcpPayloadLen (bs : Bytes) : Nat :=
  let o := l3Off bs
  let total := if ipVersion bs = 4 then beAt bs (o + 2) 2 - 20 else beAt bs (o + 4) 2
  total - byteAt bs (l4Off bs + 12) / 16 * 4

/-- Whether the checksums of a segment are good. -/
def tcpSumGood (bs : Bytes) : Bool :=
  let o := l3Off bs
  let v4 := decide (ipVersion bs = 4)
  let addrs := if v4 then slice bs (o + 12) 8 else slice bs (o + 8) 32
  let len := if v4 then beAt bs (o + 2) 2 - 20 else beAt bs (o + 4) 2
  let seg := slice bs (l4Off bs) len
  decide (inetChecksum (addrs ++ toBe 2 0 ++ toBe 2 6 ++ toBe 4 len ++ seg) = 0)
    && (!v4 || decide (inetChecksum (slice bs o 20) = 0)) && decide (l4Off bs + len ≤ bs.length)

/-- The connection to which a segment belongs, by its addresses and ports. -/
def connOf (s : State) (bs : Bytes) : Option Nat :=
  let o := l3Off bs
  let v6 := decide (ipVersion bs = 6)
  let src := if v6 then slice bs (o + 8) 16 else slice bs (o + 12) 4
  let dst := if v6 then slice bs (o + 24) 16 else slice bs (o + 16) 4
  let p := l4Off bs
  let n := if v6 then 16 else 4
  (s.str.conns.find? (fun e => e.2.state ≠ .idle && e.2.state ≠ .failed && e.2.v6 = v6 && slice e.2.raddr 0 n = src
    && slice e.2.laddr 0 n = dst && decide (e.2.rport = beAt bs p 2) && decide (e.2.lport = beAt bs (p + 2) 2))).map Prod.fst

/-- The peer's SYN with ACK: the connection is established (R174): initial window of 10 segments. -/
def onSynAck (n : Nat) (bs : Bytes) (s : State) : State :=
  let c := getConn s n
  let p := l4Off bs
  let o := optionsAt bs p
  let own := regFld s (rETH_MTU c.port) 0 14 - (if c.v6 then 60 else 40)
  let mss := min own (o.mss.getD 536)
  let fl := byteAt bs (p + 13)
  let t := { c.tcp with
    established := true, una := beAt bs (p + 8) 4, nxt := beAt bs (p + 8) 4, rcvNxt := seqAdd (beAt bs (p + 4) 4) 1, sndWnd := beAt bs (p + 14) 2,
    sndScale := o.scale.getD 0, rcvScale := if o.scale.isSome then windowShift else 0, mss := mss, cwnd := 10 * mss, sackOk := o.sackOk, tsOk := o.ts.isSome, tsRecent := o.ts.getD 0,
    ecnOk := c.ecn && nbit fl 6 && !nbit fl 7, rtoAt := none, retries := 0, aliveAt := s.now }
  sendAck n (setTcp n t s)

/-- DELAYED_ACK_EXPIRY (R174): no later than 500 µs after the segment. -/
def execDelayedAckExpiry (conn : Nat) (s : State) : Result :=
  match (getConn s conn).tcp.ackAt with
  | none => .next s
  | some t => .next (sendAck conn (reachTime t s))

end Sys2Proof.Machine
end

