-- ==== Sys2Proof/Machine/NvmeTcp.lean ====
section
/-! DEFINITION. NVMe/TCP connections and PDUs (R176–R179), and how storage commands end (R184, R185). The layouts of the PDUs and
of the NVMe commands in them are those of the transport binding that R175 names (PRESUMED, log entry). -/

namespace Sys2Proof.Machine

/-- A target command. -/
def getCmd (s : State) (k : Nat) : Option StorCmd := mfind s.str.cmds k

/-- The state with a command replaced. -/
def setCmd (k : Nat) (c : StorCmd) (s : State) : State := { s with str := { s.str with cmds := minsert s.str.cmds k c } }

/-- The state with a command taken out. -/
def dropCmd (k : Nat) (s : State) : State := { s with str := { s.str with cmds := merase s.str.cmds k } }


/-- A PDU: common header, the rest of the header, digests, data. -/
def pdu (c : Conn) (type flags : Nat) (rest data : Bytes) : Bytes :=
  let hlen := 8 + rest.length
  let hd := c.hdgst && type ≠ 0 && type ≠ 2
  let dd := c.ddgst && !data.isEmpty && type ≠ 2
  let pdo := if data.isEmpty || type = 2 then 0 else hlen + (if hd then 4 else 0)
  let plen := hlen + (if hd then 4 else 0) + data.length + (if dd then 4 else 0)
  let fl := flags + (if hd then 1 else 0) + (if dd then 2 else 0)
  let head := [BitVec.ofNat 8 type, BitVec.ofNat 8 fl, BitVec.ofNat 8 hlen, BitVec.ofNat 8 pdo] ++ toLe 4 plen ++ rest
  head ++ (if hd then toLe 4 (crc32c head).toNat else []) ++ data ++ (if dd then toLe 4 (crc32c data).toNat else [])

/-- ICReq (R178). -/
def icReq (c : Conn) : Bytes :=
  pdu c 0 0 (toLe 2 0 ++ [0, BitVec.ofNat 8 (c.hdgst.toNat + 2 * c.ddgst.toNat)] ++ toLe 4 0 ++ List.replicate 112 0) []

/-- The status that a command whose connection is lost completes with. -/
def subStatus (e : SubCmd) : Status :=
  match e.state with
  | .ended 0 false => .ok
  | .ended _ _ => .storageError
  | .lost => .peerLost
  | _ => .ok

/-- A command whose sub-commands have all ended. -/
def StorCmd.allEnded (c : StorCmd) : Bool := c.subs.all (fun e => match e.state with | .ended _ _ => true | .lost => true | _ => false)

/-- AAD of an encrypted block (R183). -/
def blockAad (c : StorCmd) (k : Nat) : Bytes := toBe 2 c.inst ++ [BitVec.ofNat 8 c.nsid, 0] ++ toBe 8 (c.slba + k)

/-- The blocks of the remote format of an encrypted sub-command, opened: plaintext, or the status of the first that fails. -/
def openBlocks (c : StorCmd) : Nat → Nat → Bytes → State → Except Status Bytes × State
  | 0, _, _, s => (.ok [], s)
  | n + 1, k, bs, s =>
    match openJob c.keySlot 6 (leAt bs 4112 6) (blockAad c k) (slice bs 0 4096) (slice bs 4096 16) s with
    | (.error e, s1) => (.error e, s1)
    | (.ok d, s1) =>
      match openBlocks c n (k + 1) (bs.drop 4160) s1 with
      | (.error e, s2) => (.error e, s2)
      | (.ok ds, s2) => (.ok (d ++ ds), s2)

/-- The plaintext of every encrypted sub-command of a read, with its place; or the status of the first that fails (R183). -/
def openSubs (c : StorCmd) : List SubCmd → State → Except Status (List (Nat × Bytes)) × State
  | [], s => (.ok [], s)
  | e :: es, s =>
    if !e.enc then openSubs c es s
    else
      match openBlocks c (e.len / 4096) (e.off / 4096) (slice c.wire e.woff e.wlen) s with
      | (.error st, s1) => (.error st, s1)
      | (.ok d, s1) =>
        match openSubs c es s1 with
        | (.error st, s2) => (.error st, s2)
        | (.ok ds, s2) => (.ok ((e.off, d) :: ds), s2)

/-- The blocks of an encrypted sub-command in the remote format: data, then tag, INV and zeros (R183). -/
def sealBlocks (c : StorCmd) : Nat → Nat → Bytes → State → Except Status Bytes × State
  | 0, _, _, s => (.ok [], s)
  | n + 1, k, bs, s =>
    match sealJob c.keySlot 6 (blockAad c k) (slice bs 0 4096) s with
    | (.error e, s1) => (.error e, s1)
    | (.ok j, s1) =>
      match sealBlocks c n (k + 1) (bs.drop 4096) s1 with
      | (.error e, s2) => (.error e, s2)
      | (.ok ds, s2) => (.ok (j.bytes ++ j.tag ++ toLe 6 j.inv ++ List.replicate 42 0 ++ ds), s2)

/-- The write data of a command in the remote format. -/
def wireData (c : StorCmd) (data : Bytes) : List SubCmd → State → Except Status Bytes × State
  | [], s => (.ok [], s)
  | e :: es, s =>
    let d := slice data e.off e.len
    match (if e.enc then sealBlocks c (e.len / 4096) (e.off / 4096) d s else (.ok d, s)) with
    | (.error st, s1) => (.error st, s1)
    | (.ok w, s1) =>
      match wireData c data es s1 with
      | (.error st, s2) => (.error st, s2)
      | (.ok ws, s2) => (.ok (w ++ ws), s2)

/-- Cipher passes of a command: one for each encrypted block (R183). -/
def StorCmd.passes (c : StorCmd) : Nat := ((c.subs.filter SubCmd.enc).map (fun e => e.len / 4096)).sum

/-- Whether the passes of a command can run now (R148). -/
def cmdGate (s : State) (c : StorCmd) : JobGate := if c.passes = 0 then .go else jobGate s c.keySlot 6 c.passes 4096

/-- Data read is written to the host buffer of command `k` (R173, R244); the status when the translation fails. -/
def placeData (k : Nat) (c : StorCmd) (off : Nat) (bs : Bytes) (s : State) : Option Status × State :=
  match translate .storage c.inst (c.dva + off) bs.length true s with
  | (.error st, s1) => (some st, s1)
  | (.ok x, s1) =>
    let s2 := writeXlate c.inst c.ro x bs s1
    (none, match getCmd s2 k with | some e => setCmd k { e with lastByte := x.lastByte.or e.lastByte } s2 | none => s2)

/-- Every piece placed; the status of the first that fails. -/
def placeAll (k : Nat) (c : StorCmd) : List (Nat × Bytes) → State → Option Status × State
  | [], s => (none, s)
  | (o, d) :: ds, s =>
    match placeData k c o d s with
    | (some st, s1) => (some st, s1)
    | (none, s1) => placeAll k c ds s1

/-- The first sub-command that failed, with its index: the one of the lowest address (R184). -/
def firstFailed (c : StorCmd) : Option (Nat × SubCmd) :=
  match c.subs.findIdx? (fun e => subStatus e ≠ .ok) with
  | some i => (c.subs[i]?).map (fun e => (i, e))
  | none => none

/-- VALUE of a completion with STORAGE_ERROR (R184). -/
def errorValue (i : Nat) (e : SubCmd) : DWord :=
  match e.state with
  | .ended nvme _ => BitVec.ofNat 64 (nvme % 65536 + i * 65536)
  | _ => 0

/-- CIDs of a command that still wait for a response are held (R185). -/
def holdCids (k : Nat) (s : State) : State :=
  let f := fun (_ : Nat) (u : CidUse) => match u with | .sub c _ => if c = k then CidUse.held k else u | _ => u
  { s with str := { s.str with conns := mmap (fun _ c => { c with cids := mmap f c.cids }) s.str.conns } }

/-- A command of a storage queue ends: its counters, its completion, and its slot in the engine. With BARRIER the entry waits for a
flushing read of the last byte that has been written for it (R220, R260). -/
def reportCmd (k qp pos : Nat) (c : StorCmd) (st : Status) (value : Option DWord) (qerr : Bool) (s : State) : State :=
  let last := (getCmd s k).bind StorCmd.lastByte
  let s1 := holdCids k (dropCmd k s)
  let s2 := incr cSTR_CMDS_DONE (if st = .ok then addCtr (if c.write then cSTR_BYTES_WRITTEN else cSTR_BYTES_READ) c.len s1 else incr cSTR_CMDS_ERR s1)
  match (getQueue s2 qp).jobs.find? (fun j => decide (j.lastPos = pos)) with
  | none => s2
  | some j =>
    let r := plainResult j.descs st (if st = .ok then c.len else 0)
    let r1 := { r with value := value.getD r.value, qerr := qerr }
    match last with
    | some a => finishWriter qp pos a r1 s2
    | none => finishJob qp pos r1 s2

/-- A command all of whose sub-commands have ended completes (R183, R184): it takes the status of the failing sub-command of the lowest
address, an encrypted block that does not verify being a failure of its sub-command; the encrypted blocks of a read are all verified before
any is written to the host. -/
def finishCmd (k qp pos : Nat) (c : StorCmd) (s : State) : State :=
  let bad := firstFailed c
  let good := match bad with | some (i, _) => c.subs.take i | none => c.subs
  match (if c.write then (.ok [], s) else openSubs c good s), bad with
  | (.error st, s1), _ => reportCmd k qp pos c st none false s1
  | (.ok _, s1), some (i, e) =>
    reportCmd k qp pos c (subStatus e) (if subStatus e = .storageError then some (errorValue i e) else none) false s1
  | (.ok ds, s1), none =>
    match placeAll k c ds s1 with
    | (some st, s2) => reportCmd k qp pos c st none true s2
    | (none, s2) => reportCmd k qp pos c .ok none false s2

/-- A journal write has been completed by the target (R193). -/
def journalDone (upTo : Nat) (s : State) : State :=
  let r := s.str.rec_
  { s with str := { s.str with rec_ := { r with doneTo := some (max upTo (r.doneTo.getD 0)) } } }

/-- A journal write has failed: the bytes from the first that is not durable are written again, and what was under way counts no more. -/
def journalFailed (s : State) : State :=
  let r := s.str.rec_
  let gone := fun (_ : Nat) (c : StorCmd) => match c.owner with | .journal _ => { c with owner := .gone } | _ => c
  { s with str := { s.str with rec_ := { r with flushed := r.written, doneTo := none }, cmds := mmap gone s.str.cmds } }

/-- JNL_READ ends (R195): the range is copied through the DTU under the PF once all of it has been read. -/
def finishJnl (pos off : Nat) (st : Status) (c : StorCmd) (s : State) : State :=
  if st ≠ .ok then finishJob 0 pos (adminResult st 0 0 false) s
  else
    match translate .recorder pf c.dva c.len true s with
    | (.error e, s1) => finishJob 0 pos (adminResult e 0 0 true) s1
    | (.ok x, s1) =>
      finishWriter 0 pos (x.lastByte.getD 0) (adminResult .ok c.len 0 false) (writeXlate pf false x (slice c.wire (off % 4096) c.len) s1)

/-- A command of which a sub-command has ended: it completes when all have (R184). A journal write that the target has completed is
taken in by its own step (R193). A read of encrypted blocks waits for its passes (R148). -/
def settleCmd (k : Nat) (s : State) : State :=
  match getCmd s k with
  | none => s
  | some c =>
    if !c.allEnded then s
    else
      match c.owner with
      | .gone => dropCmd k s
      | .journal upTo => if (firstFailed c).isNone then journalDone upTo (dropCmd k s) else journalFailed (dropCmd k s)
      | .jnl pos off => finishJnl pos off (((firstFailed c).map (fun e => subStatus e.2)).getD .ok) c (dropCmd k s)
      | .queue qp pos =>
        match (if c.write then JobGate.go else cmdGate s c) with
        | .go => finishCmd k qp pos c s
        | g => waitJob c.keySlot g s

/-- A sub-command of a command is changed. -/
def setSub (k i : Nat) (x : SubState) (s : State) : State :=
  match getCmd s k with
  | none => s
  | some c => setCmd k { c with subs := c.subs.modify i (fun e => { e with state := x }) } s

/-- SQE of an NVMe read or write with a data SGL (PRESUMED, NVMe base). -/
def rwCommand (write : Bool) (cid : Nat) (e : SubCmd) (inCapsule : Bool) : Bytes :=
  let sgl := toLe 8 0 ++ toLe 4 e.wlen ++ [0, 0, 0, if inCapsule then 0x01 else 0x5A]
  [if write then 1 else 2, 0x40] ++ toLe 2 cid ++ toLe 4 e.nsid ++ List.replicate 16 0 ++ sgl ++ toLe 8 e.lba ++ toLe 2 (e.blocks - 1)
    ++ List.replicate 14 0

/-- Greatest write that travels in its capsule (R178). -/
def capsuleData : Nat := min 8192 Config.inCapsuleLimit

/-- A free CID of a connection, from its counter on. -/
def freeCid (c : Conn) : Nat := let k := mfree c.cids 65536 c.nextCid; if k < 65536 then k else mfree c.cids 65536 0

/-- A CID is taken for a use. -/
def takeCid (n : Nat) (u : CidUse) (s : State) : Nat × State :=
  let c := getConn s n
  let cid := freeCid c
  (cid, setConn n { c with cids := minsert c.cids cid u, nextCid := (cid + 1) % 65536 } s)

/-- Sub-command `i` of a command is sent (R178, R185): the timeout of the command runs from the first one. -/
def sendSub (k i : Nat) (e : SubCmd) (c : StorCmd) (s : State) : State :=
  let r := takeCid e.conn (.sub k i) s
  let inline_ := c.write && decide (e.wlen ≤ capsuleData)
  let cmd := rwCommand c.write r.1 e inline_
  let data := if inline_ then slice c.wire e.woff e.wlen else []
  let s1 := setSub k i (.sent r.1 false) r.2
  let s2 := match getCmd s1 k with | some c1 => setCmd k { c1 with startedAt := some (c1.startedAt.getD s.now) } s1 | none => s1
  tcpSend e.conn (pdu (getConn s2 e.conn) 4 0 cmd data) s2

/-- Unsent sub-commands of a command for which their connections have room are sent; those of a lost connection end. -/
def sendSubs (k : Nat) : List (Nat × SubCmd) → State → State
  | [], s => s
  | (i, e) :: es, s =>
    match getCmd s k with
    | none => s
    | some c =>
      let conn := getConn s e.conn
      if !c.ready || e.state ≠ .unsent then sendSubs k es s
      else if conn.state ≠ .ready then sendSubs k es (setSub k i .lost s)
      else if connHasRoom s conn then sendSubs k es (sendSub k i e c s)
      else sendSubs k es s

/-- The sub-commands of a command with their indices. -/
def StorCmd.indexed (c : StorCmd) : List (Nat × SubCmd) := (List.range c.subs.length).zip c.subs

/-- A command goes on: the passes over the data to be written, its unsent sub-commands, then its end. -/
def pushCmd (k : Nat) (s : State) : State :=
  match getCmd s k with
  | none => s
  | some c =>
    match c.plain with
    | none => settleCmd k (sendSubs k c.indexed s)
    | some bs =>
      match cmdGate s c, wireData c bs c.subs s with
      | .go, (.ok w, s1) => settleCmd k (sendSubs k c.indexed (setCmd k { c with wire := w, ready := true, plain := none } s1))
      | .go, (.error st, s1) => (match c.owner with | .queue qp pos => reportCmd k qp pos c st none false s1 | _ => dropCmd k s1)
      | g, _ => waitJob c.keySlot g s

/-- Commands that wait for a cipher pass go on when it can run (R148). -/
def retryCmds (s : State) : State :=
  let waits := s.str.cmds.filter (fun e => e.2.plain.isSome || (e.2.allEnded && decide (0 < e.2.passes)))
  forEach pushCmd (waits.map Prod.fst) s

/-- Whether a command is a journal write. -/
def StorCmd.isJournal (c : StorCmd) : Bool :=
  match c.owner with
  | .journal _ => true
  | _ => false

/-- Every command goes on, journal writes ahead of tenant sub-commands (R187). -/
def pushCmds (s : State) : State :=
  let first := (s.str.cmds.filter (fun e => e.2.isJournal)).map Prod.fst
  let rest := (s.str.cmds.filter (fun e => !e.2.isJournal)).map Prod.fst
  forEach pushCmd (first ++ rest) s

/-- The end of an admin command of the storage engine. -/
def adminStor (ring : Option Bool) (st : Status) (value : DWord) (s : State) : State :=
  match ring with
  | some g => endAdmin { ring := g, status := st, count := 0, value := value } s
  | none => s

/-- The uses of a connection's CIDs end as the connection is lost (R175): PEER_LOST. -/
def loseUse (u : CidUse) (s : State) : State :=
  match u with
  | .sub k i => setSub k i .lost s
  | .held _ => s
  | .connect => s
  | .raw ring _ _ => adminStor (some ring) .peerLost 0 s

/-- A connection enters FAILED (R175, R176): every command outstanding on it completes with PEER_LOST, and so does an open. -/
def failConn (n : Nat) (s : State) : State :=
  let c := getConn s n
  if c.state = .idle || c.state = .failed then s
  else
    let closed := { c with state := .failed, cids := [], opener := none, closer := none, rawData := [], rawBad := false,
                           tcp := { c.tcp with established := false, rtoAt := none, ackAt := none, rxBuf := [], sendBuf := [] } }
    let s1 := evStr 0 (setConn n closed s)
    let s2 := forEach (fun e s => loseUse e.2 s) c.cids s1
    pushCmds (adminStor c.closer .ok 0 (adminStor c.opener .peerLost 0 s2))

/-- A fatal error (R178): H2CTermReq with the fatal error status of the binding, then FAILED. -/
def fatalError (n fes : Nat) (s : State) : State :=
  let c := getConn s n
  let bad := slice c.tcp.rxBuf 0 (min 24 c.tcp.rxBuf.length)
  let head := [BitVec.ofNat 8 2, 0, 24, 0] ++ toLe 4 (24 + bad.length) ++ toLe 2 fes ++ toLe 4 0 ++ List.replicate 10 0
  failConn n (tcpSend n (head ++ bad) s)

/-- Types of the PDUs that the device receives: ICResp, C2HTermReq, CapsuleResp, C2HData, R2T. -/
def pduTypes : List Nat := [1, 3, 5, 7, 9]

/-- Length of the header of a PDU type. -/
def pduHlen (type : Nat) : Nat := if type = 1 then 128 else 24

/-- A whole PDU at the head of what a connection has received. -/
structure PduIn where
  type : Nat
  flags : Nat
  head : Bytes
  data : Bytes
  /-- a data digest that does not match -/
  badData : Bool
deriving DecidableEq, Repr

/-- The PDU at the head of a connection's stream, once it is whole: or the fatal error that it is (R178, R179). -/
def headPdu (c : Conn) : Option (Except Nat PduIn) :=
  let b := c.tcp.rxBuf
  let type := byteAt b 0
  let flags := byteAt b 1
  let hlen := pduHlen type
  let plen := leAt b 4 4
  let hd := nbit flags 0
  let dd := nbit flags 1
  let dataAt := hlen + (if hd then 4 else 0)
  if b.length < 8 then none
  else if !pduTypes.contains type || (type ≠ 3 && byteAt b 2 ≠ hlen) || plen < dataAt || 2 ^ 21 < plen then some (.error 1)
  else if b.length < plen then none
  else if type ≠ 1 && type ≠ 3 && (hd != c.hdgst) then some (.error 1)
  else if type = 7 && (dd != c.ddgst) then some (.error 1)
  else if hd && type ≠ 3 && leAt b hlen 4 ≠ (crc32c (slice b 0 hlen)).toNat then some (.error 3)
  else
    let body := (b.take plen).drop dataAt
    let data := if dd && type = 7 then slice body 0 (body.length - 4) else body
    let bad := dd && decide (type = 7) && decide (leAt body (body.length - 4) 4 ≠ (crc32c data).toNat)
    some (.ok { type := type, flags := flags, head := slice b 0 hlen, data := data, badData := bad })

/-- The head PDU is taken from the stream. -/
def takePdu (n : Nat) (s : State) : State :=
  let t := (getConn s n).tcp
  setTcp n { t with rxBuf := t.rxBuf.drop (leAt t.rxBuf 4 4) } s

/-- A PDU command acts when the head PDU has its type; a malformed head is fatal to the connection (R178, R179). -/
def onPdu (n type : Nat) (f : PduIn → State → State) (s : State) : Result :=
  let c := getConn s n
  if c.state = .idle || c.state = .failed then .next s
  else
    match headPdu c with
    | none => .next s
    | some (.error fes) => .next (fatalError n fes (if fes = 3 then evStr 1 (incr cSTR_DIGEST_ERR s) else s))
    | some (.ok p) =>
      if p.type ≠ type then .next s
      else .next (pumpTcp n (f p (takePdu n s)))

/-- The Fabrics Connect command (PRESUMED, NVMe over Fabrics): its data is sent unchanged (R269). -/
def sendConnect (n : Nat) (s : State) : State :=
  let r := takeCid n .connect s
  let c := getConn r.2 n
  let sgl := toLe 8 0 ++ toLe 4 1024 ++ [0, 0, 0, 0x01]
  let sqe := [0x7F, 0x40] ++ toLe 2 r.1 ++ [1] ++ List.replicate 19 0 ++ sgl ++ toLe 2 0 ++ toLe 2 c.qid ++ toLe 2 (c.qsize - 1)
    ++ List.replicate 18 0
  tcpSend n (pdu c 4 0 sqe c.connectData) (setConn n { c with phase := .connect } r.2)

/-- ICRESP_RX (R178): PFV 0, the digests asked for, MAXH2CDATA of 4,096 at least. -/
def execIcrespRx (conn : Nat) (s : State) : Result :=
  onPdu conn 1 (fun p s =>
    let c := getConn s conn
    let ok := decide (leAt p.head 8 2 = 0) && decide (byteAt p.head 11 = c.hdgst.toNat + 2 * c.ddgst.toNat) && decide (4096 ≤ leAt p.head 12 4)
    if c.phase ≠ .icReq then fatalError conn 2 s
    else if ok then sendConnect conn (setConn conn { c with maxH2c := leAt p.head 12 4 } s)
    else fatalError conn 1 s) s

/-- H2CData PDUs for a range, each of at most MAXH2CDATA bytes, LAST_PDU on the final one (R178). -/
def h2cData (c : Conn) (cid ttag : Nat) : Nat → Nat → Bytes → Bytes
  | 0, _, _ => []
  | fuel + 1, off, bs =>
    let k := min bs.length c.maxH2c
    let last := decide (k = bs.length)
    let one := pdu c 6 (if last then 4 else 0) (toLe 2 cid ++ toLe 2 ttag ++ toLe 4 off ++ toLe 4 k ++ toLe 4 0) (bs.take k)
    if last then one else one ++ h2cData c cid ttag fuel (off + k) (bs.drop k)

/-- The write data that a CID stands for. -/
def cidData (s : State) (c : Conn) (u : CidUse) : Option Bytes :=
  match u with
  | .sub k i =>
    match getCmd s k with
    | some cmd => if cmd.write then (cmd.subs[i]?).map (fun e => slice cmd.wire e.woff e.wlen) else none
    | none => none
  | .raw _ _ _ => some c.rawData
  | _ => none

/-- PDU_R2T_RX (R178). -/
def execPduR2tRx (conn : Nat) (s : State) : Result :=
  onPdu conn 9 (fun p s =>
    let c := getConn s conn
    let cid := leAt p.head 8 2
    let off := leAt p.head 12 4
    let len := leAt p.head 16 4
    match mfind c.cids cid with
    | none => if c.state = .closing then s else fatalError conn 1 s
    | some (.held _) => s
    | some u =>
      match cidData s c u with
      | none => fatalError conn 1 s
      | some d =>
        if d.length < off + len || len = 0 then fatalError conn 4 s
        else tcpSend conn (h2cData c cid (leAt p.head 10 2) (len + 1) off (slice d off len)) s) s

/-- A sub-command has ended with an NVMe status, or a raw capsule or the Fabrics Connect has been answered. -/
def endCid (conn cid nvme : Nat) (cqe : Bytes) (s : State) : State :=
  let c := getConn s conn
  let free := setConn conn { c with cids := merase c.cids cid } s
  match mfind c.cids cid with
  | none => s
  | some (.held _) => pushCmds free
  | some .connect =>
    if nvme = 0 then pushCmds (adminStor c.opener .ok 0 (setConn conn { getConn free conn with state := .ready, phase := .done, opener := none } free))
    else failConn conn free
  | some (.raw ring addr _) =>
    let value := BitVec.ofNat 64 (leAt cqe 0 4 + leAt cqe 12 4 * 2 ^ 32)
    let got := c.rawData
    let ok := decide (nvme = 0) && !c.rawBad
    let writes := ok && !got.isEmpty
    let s1 := if writes then (if ring then svcStore none addr got free else hostWrite pf addr got false free) else free
    let e : AdminEnd := { ring := ring, status := if ok then .ok else .storageError, count := 0, value := value }
    pushCmds (endAdminWriter e (if writes && !ring then some (addr + got.length - 1) else none)
      (setConn conn { getConn s1 conn with rawData := [], rawBad := false } s1))
  | some (.sub k i) =>
    let bad := match getCmd s k with
      | some cmd => (match cmd.subs[i]? with | some e => (match e.state with | .sent _ b => b | _ => false) | none => false)
      | none => false
    pushCmds (settleCmd k (setSub k i (.ended nvme bad) free))

/-- Data that a C2HData PDU carries for a sub-command: placed in the host buffer, or kept until it can be verified or copied (R178, R183,
R195). A fault of the translation fails the command's job (R202). Data for a command that has lost its owner reaches no host. -/
def placeSub (k i off : Nat) (data : Bytes) (s : State) : State :=
  match getCmd s k with
  | none => s
  | some c =>
    match c.subs[i]? with
    | none => s
    | some e =>
      let kept := match c.owner with | .queue _ _ => e.enc | _ => true
      if kept then setCmd k { c with wire := patch c.wire (e.woff + off) data } s
      else
        match placeData k c (e.off + off) data s with
        | (none, s1) => s1
        | (some st, s1) => match c.owner with | .queue qp pos => reportCmd k qp pos c st none true s1 | _ => s1

/-- C2HDATA_RX (R178, R179): with the SUCCESS flag it also ends its command. -/
def execC2hdataRx (conn : Nat) (s : State) : Result :=
  onPdu conn 7 (fun p s =>
    let c := getConn s conn
    let cid := leAt p.head 8 2
    let off := leAt p.head 12 4
    let s0 := if p.badData then evStr 1 (incr cSTR_DIGEST_ERR s) else s
    let s1 := match mfind c.cids cid with
      | some (.sub k i) => if p.badData then setSub k i (.sent cid true) s0 else placeSub k i off p.data s0
      | some (.raw _ _ n) =>
        if off + p.data.length ≤ n then
          setConn conn { getConn s0 conn with rawData := patch c.rawData off p.data, rawBad := c.rawBad || p.badData } s0
        else s0
      | _ => s0
    let ended : Bool := match mfind c.cids cid with
      | some (.sub k i) => (match getCmd s k with
        | some cmd => (match cmd.subs[i]? with | some e => decide (e.wlen < off + p.data.length) || cmd.write | none => false)
        | none => false)
      | some .connect => true
      | none => decide (c.state ≠ .closing)
      | _ => false
    if ended then fatalError conn 4 s
    else if nbit p.flags 3 && nbit p.flags 2 then endCid conn cid 0 (List.replicate 16 0) s1 else s1) s

/-- CAPSULE_RESP_RX (R178, R184): the command named by the CID ends. -/
def execCapsuleRespRx (conn : Nat) (s : State) : Result :=
  onPdu conn 5 (fun p s =>
    let cid := leAt p.head 20 2
    if (mfind (getConn s conn).cids cid).isNone && (getConn s conn).state ≠ .closing then fatalError conn 1 s
    else endCid conn cid (leAt p.head 22 2 / 2) (slice p.head 8 16) s) s

/-- C2HTERMREQ_RX (R178). -/
def execC2htermreqRx (conn : Nat) (s : State) : Result := onPdu conn 3 (fun _ s => failConn conn s) s

/-- STR_CMD_CFG.TIMEOUT_S in ns. -/
def storTimeout (s : State) : Nat := ms (1000 * regFld s rSTR_CMD_CFG 0 8)

/-- STOR_CMD_TIMEOUT (R185): TIMEOUT_S after the first sub-command was sent. -/
def execStorCmdTimeout (cmd : Nat) (s : State) : Result :=
  match getCmd s cmd with
  | none => .next s
  | some c =>
    match c.startedAt with
    | none => .next s
    | some t =>
      let s1 := evStr 2 (incr cSTR_TIMEOUTS (reachTime (t + storTimeout s) s))
      match c.owner with
      | .queue qp pos => .next (reportCmd cmd qp pos c .timeout none false s1)
      | .journal _ => .next (journalFailed (holdCids cmd (dropCmd cmd s1)))
      | .jnl pos off => .next (finishJnl pos off .timeout c (holdCids cmd (dropCmd cmd s1)))
      | .gone => .next (holdCids cmd (dropCmd cmd s1))

/-- CONNECT_OPEN_TIMEOUT (R269): READY has not been reached within TIMEOUT_S. -/
def execConnectOpenTimeout (conn : Nat) (s : State) : Result :=
  let c := getConn s conn
  .next (if c.state = .opening then failConn conn (reachTime (c.openedAt + storTimeout s) s) else s)

/-- A connection becomes IDLE. -/
def idleConn (n : Nat) (s : State) : State :=
  let c := getConn s n
  adminStor c.closer .ok 0 (setConn n Conn.init s)

/-- CONNECTION_CLOSED (R176): the commands of a CLOSING connection have ended; FIN is sent. -/
def execConnectionClosed (conn : Nat) (s : State) : Result :=
  let c := getConn s conn
  if c.state ≠ .closing || c.outstanding ≠ 0 then .next s
  else .next (idleConn conn (sendSegment conn c.tcp.nxt 1 [] false s))

/-- An open begins: the SYN leaves (R176). The initial sequence number is not stated. -/
def openConn (n : Nat) (c : Conn) (s : State) : State :=
  let r := takeFree s
  let isn := (Config.freeDWord r.1).toNat % 2 ^ 32
  let t := { Tcp.init with una := isn, nxt := isn, aliveAt := s.now }
  sendSyn n (setConn n { c with state := .opening, phase := .syn, openedAt := s.now, tcp := t, cids := [], nextCid := 0 } r.2)

/-- A FIN comes in: it is acknowledged; in READY and OPENING the remote controller has gone (log entry). -/
def onFin (n : Nat) (s : State) : State :=
  let c := getConn s n
  let s1 := sendAck n (setTcp n { c.tcp with rcvNxt := seqAdd c.tcp.rcvNxt 1 } s)
  if c.state = .ready || c.state = .opening then failConn n s1 else s1

/-- A segment of an established connection (RFC 9293, PAWS of RFC 7323, RFC 3168). -/
def onSegment (n : Nat) (bs : Bytes) (s : State) : State :=
  let p := l4Off bs
  let o := optionsAt bs p
  let c := getConn s n
  let t := c.tcp
  let seq := beAt bs (p + 4) 4
  let fl := byteAt bs (p + 13)
  let data := slice bs (p + byteAt bs (p + 12) / 16 * 4) (tcpPayloadLen bs)
  let stale := match o.ts with | some v => t.tsOk && !seqLe t.tsRecent v | none => false
  if stale && !nbit fl 2 then sendAck n s
  else if nbit fl 2 then (if seqSub seq t.rcvNxt < max 1 t.window then failConn n s else s)
  else
    let ce := t.ecnOk && decide (ecnAt bs (l3Off bs) (ipVersion bs) = 3)
    let echo := ce || (t.ecnEcho && !nbit fl 7)
    let recent := match o.ts with | some v => if seqLe seq t.rcvNxt then v else t.tsRecent | none => t.tsRecent
    let s1 := setTcp n { t with tsRecent := recent, ecnEcho := echo, aliveAt := s.now, probes := 0 } s
    let s2 := if nbit fl 4 then onAck n (beAt bs (p + 8) 4) (beAt bs (p + 14) 2) o.sacks (nbit fl 6) data.isEmpty s1 else s1
    let s3 := onData n seq data s2
    if nbit fl 0 && (getConn s3 n).tcp.rcvNxt = seqAdd seq data.length then onFin n s3
    else if data.isEmpty && seq ≠ t.rcvNxt then sendAck n s3 else s3

/-- A segment that answers the SYN. -/
def onOpening (n : Nat) (bs : Bytes) (s : State) : State :=
  let p := l4Off bs
  let fl := byteAt bs (p + 13)
  let acks := nbit fl 4 && decide (beAt bs (p + 8) 4 = (getConn s n).tcp.nxt)
  if nbit fl 2 then (if acks then failConn n s else s)
  else if nbit fl 1 && acks then
    let s1 := onSynAck n bs s
    tcpSend n (icReq (getConn s1 n)) (setConn n { getConn s1 n with phase := .icReq } s1)
  else s

/-- A frame for TCP at SP23 (R174). -/
def tcpReceive (bs : Bytes) (s : State) : State :=
  if unsupportedIp bs then incr cSTR_PROTO_DROP s
  else if ipVersion bs = 0 || ipProto bs ≠ 6 || !tcpSumGood bs then s
  else
    match connOf s bs with
    | none => s
    | some n => if (getConn s n).tcp.established then onSegment n bs s else onOpening n bs s

/-- The first frame at SP23 that no RECORD action has put there, and the others. -/
def takeSegment : List Frame → Option (Frame × List Frame)
  | [] => none
  | f :: fs => if f.stream.isNone then some (f, fs) else (takeSegment fs).map (fun r => (r.1, f :: r.2))

/-- TCP_SEGMENT_RX (R174): the oldest segment at SP23. -/
def execTcpSegmentRx (s : State) : Result :=
  match takeSegment (mget (fun _ => []) s.sinks 23) with
  | none => .next s
  | some (f, rest) => .next (tcpReceive f.bytes { s with sinks := mset (fun _ => []) s.sinks 23 rest })

/-- RTO_EXPIRY (R174, R175, RFC 6298): the oldest segment is sent again with the timeout doubled, or the connection fails. -/
def execRtoExpiry (conn : Nat) (s : State) : Result :=
  let c := getConn s conn
  match c.tcp.rtoAt with
  | none => .next s
  | some at_ =>
    let s1 := reachTime at_ s
    if retryLimit s ≤ c.tcp.retries || c.tcp.spent (retryLimit s) then .next (failConn conn s1)
    else
      let t := { c.tcp with retries := c.tcp.retries + (if c.tcp.established then 0 else 1), rto := min (ms 60000) (2 * c.tcp.rto), rtoAt := some (s1.now + min (ms 60000) (2 * c.tcp.rto)),
                            timed := none, recover := none, sacked := [], dupAcks := 0 }
      if !c.tcp.established then .next (incr cSTR_RETRANS_SEG (sendSyn conn (setTcp conn { t with nxt := t.una } s1)))
      else
        let ss := max (c.tcp.flight / 2) (2 * c.tcp.segSize)
        .next (resend conn t.una (setTcp conn { t with ssthresh := ss, cwnd := t.segSize } s1))

/-- KEEPALIVE_PROBE (R174): after 10 s without traffic, then every 1 s; the connection fails after 5 unanswered probes. -/
def execKeepaliveProbe (conn : Nat) (s : State) : Result :=
  let c := getConn s conn
  if !c.tcp.established || c.state = .failed || c.state = .idle then .next s
  else
    let s1 := reachTime (c.tcp.aliveAt + ms (10000 + 1000 * c.tcp.probes)) s
    if 5 ≤ c.tcp.probes then .next (failConn conn s1)
    else .next (sendSegment conn (seqSub c.tcp.nxt 1) 0 [] false (setTcp conn { c.tcp with probes := c.tcp.probes + 1 } s1))

end Sys2Proof.Machine
end

