-- ==== Sys2Proof/Machine/Vfm.lean ====
section
/-! DEFINITION. The virtual function manager (09_virtual_functions.md): resource records, function states, and the commands on DTU
segments. -/

namespace Sys2Proof.Machine

/-- A record as 64 bytes (R236). -/
def recordBytes (r : ResRecord) : Bytes :=
  toLe 2 r.queueBase ++ toLe 2 r.queueCount ++ toLe 2 r.storqBase ++ toLe 2 r.storqCount ++ toLe 2 r.spreadBase ++ toLe 1 r.spreadLog2
    ++ toLe 1 ((if r.txsEn then 1 else 0) + (if r.rxsEn then 2 else 0) + (if r.svcDma then 4 else 0)) ++ toLe 4 r.txShaper
    ++ toLe 4 r.rxShaper ++ (r.weights.flatMap (toLe 1)) ++ toLe 1 r.shed ++ toLe 2 r.maxReads ++ toLe 1 r.dmaWeight ++ toLe 1 0
    ++ toLe 4 r.maxTokens ++ toLe 4 r.storCmds ++ List.replicate 24 0

/-- The record that 64 bytes spell (R236). -/
def parseRecord (d : Bytes) : ResRecord :=
  { queueBase := leAt d 0 2, queueCount := leAt d 2 2, storqBase := leAt d 4 2, storqCount := leAt d 6 2, spreadBase := leAt d 8 2,
    spreadLog2 := byteAt d 10, txsEn := nbit (byteAt d 11) 0, rxsEn := nbit (byteAt d 11) 1, svcDma := nbit (byteAt d 11) 2,
    txShaper := leAt d 12 4, rxShaper := leAt d 16 4, weights := (List.range 7).map (fun i => byteAt d (20 + i)),
    shed := byteAt d 27, maxReads := leAt d 28 2, dmaWeight := byteAt d 30, maxTokens := leAt d 32 4, storCmds := leAt d 36 4 }

/-- Every field of the record lies in its range and the reserved bits are 0 (R236). -/
def recordInRange (d : Bytes) : Bool :=
  let r := parseRecord d
  decide (r.queueCount ≤ 1024) && decide (r.storqBase ≤ 4095) && decide (r.storqCount ≤ 64) && decide (r.spreadBase < 1024)
    && decide (r.spreadLog2 ≤ 6) && decide (byteAt d 11 < 8) && decide (r.txShaper < 2 ^ 18) && decide (r.rxShaper < 2 ^ 18)
    && r.weights.all (fun w => decide (1 ≤ w)) && decide (r.shed ≤ 3) && decide (1 ≤ r.maxReads) && decide (r.maxReads ≤ 16384)
    && decide (1 ≤ r.dmaWeight) && decide (byteAt d 31 = 0) && decide (1 ≤ r.maxTokens) && decide (r.maxTokens ≤ 122880)
    && decide (1 ≤ r.storCmds) && decide (r.storCmds ≤ 65536) && allZero (slice d 40 24)

/-- The instances whose records can hold queues: the PF and those written. -/
def recordOwners (s : State) : List Nat := pf :: (s.vfm.records.map Prod.fst).filter (fun i => decide (i ≠ pf))

/-- The queue or storage-queue range of a record meets that of another instance, or holds an LS queue pair of another (R237). -/
def recordOverlaps (s : State) (inst : Nat) (r : ResRecord) : Bool :=
  (recordOwners s).any (fun i => decide (i ≠ inst) &&
      (let o := getRecord s i
       rangesMeet r.queueBase r.queueCount o.queueBase o.queueCount || rangesMeet r.storqBase r.storqCount o.storqBase o.storqCount))
    || s.wqm.lsImage.any (fun e => decide (e.2.inst ≠ inst) && decide (r.queueBase ≤ e.1) && decide (e.1 < r.queueBase + r.queueCount))

/-- A restricted field changes (R238). -/
def recordRestricted (old new : ResRecord) : Bool :=
  decide (new.queueBase ≠ old.queueBase) || decide (new.storqBase ≠ old.storqBase) || decide (new.queueCount < old.queueCount)
    || decide (new.storqCount < old.storqCount)

/-- The first failing check of R237, as ERR_CODE; 0 when none fails. -/
def recordCode (s : State) (inst : Nat) (d : Bytes) : Nat :=
  let r := parseRecord d
  if pf < inst || (inst < pf && totalVfs s ≤ inst) then 1
  else if (r.txsEn && decide (r.txShaper % 2 ^ 18 < 1024)) || (r.rxsEn && decide (r.rxShaper % 2 ^ 18 < 1024)) then 2
  else if !recordInRange d then 3
  else if 65536 < r.queueBase + r.queueCount || 4096 < r.storqBase + r.storqCount then 3
  else if r.queueCount ≠ 0 && decide (r.queueCount < r.spreadBase + 2 ^ r.spreadLog2) then 3
  else if recordOverlaps s inst r || (inst = pf && r.queueBase ≠ 0) then 3
  else if recordRestricted (getRecord s inst) r && decide ((getFnS s inst).state ≠ .stopped) then 5
  else 0

/-- The queues that a higher count adds are in their reset state (R238). -/
def clearAdded (old new : ResRecord) (s : State) : State :=
  let add := (s.wqm.queues.map Prod.fst).filter (fun qp =>
    decide (new.queueBase ≤ qp) && decide (qp < new.queueBase + new.queueCount)
      && !(decide (old.queueBase ≤ qp) && decide (qp < old.queueBase + old.queueCount)) && decide (qp ≠ 0) && !(getQueue s qp).ls)
  forEach (fun qp s => setQueue qp Queue.init s) add s

/-- A record write (R237, R238): ERR_CODE, and the record committed. -/
def writeRecord (inst : Nat) (d : Bytes) (s : State) : Nat × State :=
  match recordCode s inst d with
  | 0 =>
    let new := parseRecord d
    (0, retryFlushes { clearAdded (getRecord s inst) new s with vfm := { s.vfm with records := minsert s.vfm.records inst new } })
  | c => (c, s)

/-- A segment as 32 bytes (R243). -/
def segmentBytes (g : DtuSegment) : Bytes :=
  toLe 8 g.dva ++ toLe 8 g.len ++ toLe 8 g.host
    ++ toLe 1 ((if g.read then 1 else 0) + (if g.write then 2 else 0) + (if g.valid then 4 else 0)) ++ toLe 1 g.engines.toNat
    ++ List.replicate 6 0

/-- The segment that 32 bytes spell (R243). -/
def parseSegment (d : Bytes) : DtuSegment :=
  { dva := leAt d 0 8, len := leAt d 8 8, host := leAt d 16 8, read := nbit (byteAt d 24) 0, write := nbit (byteAt d 24) 1,
    valid := nbit (byteAt d 24) 2, engines := BitVec.ofNat 4 (byteAt d 25), damaged := false }

/-- The segment fields are in range (R243). -/
def segmentOk (d : Bytes) : Bool :=
  let g := parseSegment d
  decide (g.dva % 4096 = 0) && decide (g.len % 4096 = 0) && decide (4096 ≤ g.len) && decide (g.len ≤ 2 ^ 48) && decide (g.host % 4096 = 0)
    && decide (byteAt d 24 < 8) && decide (byteAt d 25 < 16) && allZero (slice d 26 6)

/-- DTU_MAP (R245): a segment that is not in use is written. -/
def mapSegment (inst seg : Nat) (d : Bytes) (s : State) : Status × State :=
  let g := parseSegment d
  let key := 64 * inst + seg
  let inUse := match mfind s.vfm.segments key with | some o => o.live | none => false
  let meets := s.vfm.segments.any (fun e => decide (e.1 / 64 = inst) && decide (e.1 ≠ key) && e.2.live && g.valid
    && rangesMeet g.dva g.len e.2.dva e.2.len)
  if pf < inst || 63 < seg || !segmentOk d || inUse || meets then (.malformed, s)
  else
    let cache := s.vfm.cache.filter (fun k => decide (k ≠ key))
    (.ok, { s with vfm := { s.vfm with segments := minsert s.vfm.segments key g, cache := cache } })

/-- A held write that was translated by one of the segments picked by `hit` has an old mapping from now on. -/
def HeldOut.age (hit : Nat → Bool) : HeldOut → HeldOut
  | .write a bs ro segs old => .write a bs ro segs (old || segs.any hit)
  | h => h

/-- The accesses under way that were translated by the segments picked by `hit` have an old mapping from now on (R245). -/
def ageAccesses (hit : Nat → Bool) (s : State) : State :=
  let tags := mmap (fun _ (e : TagEntry) => { e with old := e.old || e.segs.any hit }) s.hep.tags
  let fns := mmap (fun _ (f : Func) => { f with held := f.held.map (HeldOut.age hit) }) s.hep.fns
  { s with hep := { s.hep with tags := tags, fns := fns } }

/-- Segments of an instance are made invalid: one, or all of them (R245). -/
def unmapSegments (inst : Nat) (seg : Option Nat) (s : State) : State :=
  let hit := fun (k : Nat) => decide (k / 64 = inst) && (match seg with | some n => decide (k % 64 = n) | none => true)
  let vfm := { s.vfm with segments := mfilter (fun k _ => !hit k) s.vfm.segments, cache := s.vfm.cache.filter (fun k => !hit k) }
  ageAccesses hit { s with vfm := vfm }

/-- Whether an access of an instance that was translated under a mapping that is gone has not finished (R245): a read not answered or
timed out, a write not issued. -/
def dtuBusy (s : State) (inst : Nat) : Bool :=
  s.hep.tags.any (fun e => e.2.old && decide (e.2.fn = inst) && !e.2.quarantined)
    || (getFn s inst).held.any (fun h => match h with | .write _ _ _ _ old => old | _ => false)

/-- DTU_UNMAP_COMPLETE (R245): every access translated under the old mapping has finished. -/
def execDtuUnmapComplete (inst : Nat) (s : State) : Result :=
  if dtuBusy s inst then .next s
  else
    let mine := (s.vfm.unmaps.filter (fun u => decide (u.1 = inst))).map Prod.snd
    let s1 := { s with vfm := { s.vfm with unmaps := s.vfm.unmaps.filter (fun u => decide (u.1 ≠ inst)) } }
    .next (forEach (fun g s => endAdmin { ring := g, status := .ok, count := 0, value := 0 } s) mine s1)

/-- The waiting VF_STATE commands of an instance complete with a status. -/
def endWaiters (inst : Nat) (st : Status) (s : State) : State :=
  let f := getFnS s inst
  forEach (fun g s => endAdmin { ring := g, status := st, count := 0, value := 0 } s) f.waiters (setFnS inst { f with waiters := [] } s)

/-- An uncorrectable error in the record of an instance (R241): ERROR, a drain under way ends with TIMEOUT (R240), and the record is at
its defaults until it is written again. -/
def damageRecord (inst : Nat) (s : State) : State :=
  if pf < inst then s
  else
    let s1 := setFnS inst { getFnS s inst with state := .error } { s with vfm := { s.vfm with records := merase s.vfm.records inst } }
    evVfm 2 (endWaiters inst .timeout (hbmBlockRead .uncorrectable s1))

/-- Counters of an instance as table 2 of VFM_IND holds them. -/
def instCounters (s : State) (inst : Nat) : Bytes := (List.range 4).flatMap (fun k => toLe 8 (getCtr s (instCtr inst k)).toNat)

/-- An operation of VFM_IND_CTL (R238): records can be written, segments and counters only read. -/
def vfmIndOp (p : Party) (op : TableOp) (s : State) : TableReply × State :=
  let a := getView s p rVFM_IND_ADDR
  let inst := fld a 0 13
  let seg := fld a 16 6
  if pf < inst then (refuse 1, s)
  else match op, fld a 24 2 with
  | .read, 0 => (readBack inst (recordBytes (getRecord s inst)), s)
  | .read, 1 =>
    (readBack inst (match mfind s.vfm.segments (64 * inst + seg) with | some g => segmentBytes g | none => []), s)
  | .read, 2 => (readBack inst (instCounters s inst), s)
  | .write, 0 =>
    let (c, s1) := writeRecord inst (viewBytes s p (rVFM_IND_DATA 0) 16) s
    (if c = 0 then wrote inst else refuse c, s1)
  | _, _ => (refuse 3, s)

/-- The item that VFM_IND_ADDR names has an uncorrectable error (R241, R249). -/
def vfmIndDamage (p : Party) (s : State) : State :=
  let a := getView s p rVFM_IND_ADDR
  match fld a 24 2 with
  | 0 => damageRecord (fld a 0 13) s
  | 1 => loseSegment (64 * fld a 0 13 + fld a 16 6) (hbmBlockRead .uncorrectable s)
  | _ => hbmBlockRead .uncorrectable s

/-- VFM_IND_READ (R238, R241, R249): `ecc` is what the ECC of the item read finds. -/
def execVfmIndRead (p : Party) (ecc : EccResult) (s : State) : Result :=
  let (r, s1) := vfmIndOp p .read (if ecc = .uncorrectable then vfmIndDamage p s else hbmBlockRead ecc s)
  .next (showReply p rVFM_IND_CTL (rVFM_IND_DATA 0) 16 .read r s1)

/-- VFM_IND_WRITE (R238). -/
def execVfmIndWrite (p : Party) (s : State) : Result :=
  let (r, s1) := vfmIndOp p .write s
  .next (showReply p rVFM_IND_CTL (rVFM_IND_DATA 0) 16 .write r s1)

/-- What a command of the function state machine gives: complete with a status, or wait for the drain. -/
inductive FnReply where
  | done (st : Status)
  | drains
deriving DecidableEq, Repr

/-- QUIESCE (R240): `ring` is the admin ring whose VF_STATE waits for the drain. -/
def quiesceFn (inst : Nat) (ring : Option Bool) (s : State) : FnReply × State :=
  let f := getFnS s inst
  let ws := f.waiters ++ ring.toList
  if pf < inst then (.done .malformed, s)
  else match f.state with
    | .run => (.drains, setFnS inst { f with state := .quiesce, since := s.now, waiters := ws } s)
    | .quiesce => (.drains, setFnS inst { f with waiters := ws } s)
    | _ => (.done .ok, s)

/-- RUN (R240). -/
def runFn (inst : Nat) (s : State) : Status × State :=
  let f := getFnS s inst
  if pf < inst then (.malformed, s)
  else match f.state with
    | .run => (.ok, s)
    | .stopped => (.ok, setFnS inst { f with state := .run } s)
    | _ => (.paused, s)

/-- Work tokens that keep an instance from STOPPED: those of all its jobs and host reads, the admin queue of the PF apart (R240). -/
def drainTokens (s : State) (inst : Nat) : Nat :=
  (s.wqm.queues.filter (fun e => decide (e.2.inst = inst) && decide (e.1 ≠ 0))).foldl (fun n e => n + e.2.tokens) 0 + tagsOf s inst

/-- A drained instance is STOPPED (R240). -/
def stopFn (inst : Nat) (s : State) : State := endWaiters inst .ok (setFnS inst { getFnS s inst with state := .stopped } s)

/-- FUNCTION_STOPPED (R240): a quiescing instance holds no work token. -/
def execFunctionStopped (inst : Nat) (s : State) : Result :=
  .next (if (getFnS s inst).state = .quiesce && drainTokens s inst = 0 then stopFn inst s else s)

/-- QUIESCE_TIMEOUT (R240): the drain has lasted VFM_QCFG.LIMIT_MS; an instance that holds no token any more is STOPPED. -/
def execQuiesceTimeout (inst : Nat) (s : State) : Result :=
  let f := getFnS s inst
  if f.state ≠ .quiesce then .next s
  else if drainTokens s inst = 0 then .next (stopFn inst s)
  else
    let s1 := reachTime (f.since + ms (regFld s rVFM_QCFG 0 14)) s
    .next (evVfm 0 (endWaiters inst .timeout (setFnS inst { f with state := .error } s1)))

/-- INSTANCE of VFM_FN_CTL is written, and ERR reports the command. -/
def showFnCtl (inst : Nat) (err : Bool) (s : State) : State := setReg rVFM_FN_CTL (putFld 0 13 inst ||| putBit 30 err) s

/-- FN_CTL_QUIESCE (R240). -/
def execFnCtlQuiesce (_ : Party) (inst : Nat) (s : State) : Result :=
  let (r, s1) := quiesceFn inst none s
  .next (showFnCtl inst (decide (r = .done .malformed)) s1)

/-- FN_CTL_RUN (R240). -/
def execFnCtlRun (_ : Party) (inst : Nat) (s : State) : Result :=
  let (r, s1) := runFn inst s
  .next (showFnCtl inst (decide (r ≠ .ok)) s1)

end Sys2Proof.Machine
end

