-- ==== Sys2Proof/Machine/FunctionReset.lean ====
section
/-! DEFINITION. Function-level reset, VF Enable, and the enables of a function (R206, R209, R218, R219, R225–R228, R242). -/

namespace Sys2Proof.Machine

/-- Instances that exist as functions now: the PF, and VFs while VF Enable is 1 (R209). -/
def fnExists (s : State) (fn : Nat) : Bool := decide (fn = pf) || decide (fn < vfsInEffect s)

/-- Downstream ports: those of a head, one for each Cascade ID (R207). -/
def portExists (s : State) (fn : Nat) : Bool := decide (s.ident.role = .head) && decide (8192 ≤ fn) && decide (fn < 8256)

/-- Whether the endpoint takes a configuration write to a function: configuration ready, no FLR under way, and a member's functions not
held in reset by the head (R216, R217, R231). -/
def takesConfig (s : State) (fn : Nat) : Bool :=
  s.hep.cfgReady && !s.cas.fnHeld && fnExists s fn && (getFn s fn).flrFrom.isNone

/-- What a held CID of a raw capsule is held for: a number of its own. -/
def rawKey (conn cid : Nat) : Nat := 2 ^ 48 + 65536 * conn + cid

/-- A command of an admin ring that no longer reports to it: the ring has been reset while it waited. -/
def forgetRing (g : Bool) (s : State) : State :=
  let fns := mmap (fun _ (f : Fn) => { f with waiters := f.waiters.filter (fun r => decide (r ≠ g)) }) s.vfm.fns
  let unmaps := s.vfm.unmaps.filter (fun u => decide (u.2 ≠ g))
  let drop := fun (r : Option Bool) => if r = some g then none else r
  let queues := mmap (fun _ (q : Queue) => { q with resets := q.resets.map (fun r => { r with ring := drop r.ring }) }) s.wqm.queues
  let cid := fun (n k : Nat) (u : CidUse) => match u with | .raw r _ _ => if r = g then .held (rawKey n k) else u | _ => u
  let conns := mmap (fun n (c : Conn) => { c with opener := drop c.opener, closer := drop c.closer, cids := mmap (cid n) c.cids }) s.str.conns
  let chans := mmap (fun _ (c : PlayChannel) => { c with waiter := drop c.waiter }) s.str.chans
  let jobs := s.crt.keyJobs.map (fun j => if g then j else { j with orphan := true })
  { s with vfm := { s.vfm with fns := fns, unmaps := unmaps }, wqm := { s.wqm with queues := queues },
           str := { s.str with conns := conns, chans := chans }, crt := { s.crt with keyJobs := jobs } }

/-- An admin ring loses its context: DISABLED, its ENABLE clear, and no command of it waits any more (R225, R266). -/
def resetRing (g : Bool) (s : State) : State :=
  let s1 := setRegFld (if g then rWQM_SVCQ_CFG else rWQM_ADMIN_CFG) 0 1 0 (forgetRing g s)
  let closing := s1.wqm.closing.filter (fun r => decide (r ≠ g))
  let lo := if g then rWQM_SVCQ_SQ else rWQM_ADMIN_SQ
  clearQueue (adminQp g) (clearLatches (fun o => decide (lo ≤ o) && decide (o < lo + 16)) { s1 with wqm := { s1.wqm with closing := closing } })

/-- Every queue pair of an instance loses its context (R225, R542). -/
def clearQueuesOf (inst : Nat) (s : State) : State :=
  let qps := ((s.wqm.queues.filter (fun e => decide (e.2.inst = inst) && decide (e.1 ≠ 0) && decide (e.1 ≠ svcRingQp))).map Prod.fst)
  let s1 := forEach clearQueue qps s
  if inst = pf then resetRing false s1 else s1

/-- Storage commands of an instance (R186): sub-commands not yet sent are discarded, those sent are abandoned and their CIDs held. -/
def abandonStorage (inst : Nat) (s : State) : State :=
  let mine := s.str.cmds.filter (fun e => decide (e.2.inst = inst) && !e.2.isJournal)
  forEach (fun k s => holdCids k (dropCmd k s)) (mine.map Prod.fst) s

/-- Whether a tag belongs to an access of a channel program: those of a service channel go on through an FLR (R289). -/
def channelTag (e : TagEntry) : Bool :=
  match e.purpose with
  | .burst ch => isServiceCh ch
  | .load ch => isServiceCh ch
  | .fence ch => isServiceCh ch
  | _ => false

/-- Tags whose request was held and never issued are free again, and flushing reads that waited for a tag are gone. -/
def dropHeldTags (fn : Nat) (s : State) : State :=
  let tags := (getFn s fn).held.filterMap (fun h => match h with | .read _ _ t => some t | _ => none)
  { s with hep := { s.hep with tags := mfilter (fun t _ => !tags.contains t) s.hep.tags,
                               flushWait := s.hep.flushWait.filter (fun w => decide (w.fn ≠ fn)) } }

/-- The state of a function is reset: queues, storage commands, outstanding reads, held writes, MSI-X and configuration (R225). -/
def resetFunction (fn : Nat) (s : State) : State :=
  let s1 := abandonReads (fun e => decide (e.fn = fn) && !channelTag e) (dropHeldTags fn s)
  let s2 := clearQueuesOf fn (abandonStorage fn s1)
  setFn fn Func.init (if fn = pf then stopPfChannels s2 else s2)

/-- A power-state transition under way ends with a reset of any scope, and so does the request that waits for its completion (R455, R461). -/
def endTransition (s : State) : State :=
  if s.pcr.target.isSome then { s with pcr := { s.pcr with target := none, queued := none } } else s

/-- A function under FLR from now on. -/
def markFlr (fn : Nat) (s : State) : State :=
  setFn fn { getFn s fn with flrFrom := some s.now, flrTagAt := s.now, flrTimedOut := false } (endTransition s)

/-- VF_FLR (R225). -/
def execVfFlr (vf : Nat) (s : State) : Result :=
  if pf ≤ vf || !takesConfig s vf then .next s
  else .next (markFlr vf (unmapSegments vf none (resetFunction vf s)))

/-- A VF ceases to exist: RUN, its queues reset, a drain cut short completing with PAUSED (R240, R242). -/
def dropVf (vf : Nat) (s : State) : State :=
  let s1 := endWaiters vf .paused (resetFunction vf s)
  setFnS vf Fn.init s1

/-- The LS queue pairs of VFs return to the state they were set up in (R542). -/
def resetVfPairs (s : State) : State := forEach clearQueue ((s.wqm.lsImage.filter (fun e => decide (e.2.inst < pf))).map Prod.fst) s

/-- VF Enable is cleared (R209, R242, R542): every VF returns to RUN, whether it was in effect or not. -/
def clearVfEnable (s : State) : State :=
  let n := vfsInEffect s
  if s.hep.vfEnable then
    let others := (s.vfm.fns.map Prod.fst).filter (fun i => decide (n ≤ i) && decide (i < pf))
    let s1 := resetVfPairs (forEach (fun vf s => setFnS vf Fn.init (endWaiters vf .paused s)) others (forEach dropVf (List.range n) s))
    { s1 with hep := { s1.hep with vfEnable := false } }
  else s

/-- The effects of an FLR of the PF on the PF and on every VF (R227). -/
def pfFlrEffects (s : State) : State :=
  let n := vfsInEffect s
  let s1 := forEach (fun vf s => unmapSegments vf none s) (List.range n) s
  let s2 := unmapSegments pf none (resetFunction pf (resetVfPairs (clearVfEnable s1)))
  resetMbxHost { s2 with hep := { s2.hep with numVfs := 0 } }

/-- PF_FLR (R227). -/
def execPfFlr (s : State) : Result :=
  if !takesConfig s pf then .next s else .next (markFlr pf (pfFlrEffects s))

/-- Tags that an FLR of a function waits for: those of the PF's FLR are its own and those of the VFs it reset. -/
def flrTags (s : State) (fn : Nat) : List Nat :=
  ((s.hep.tags.filter (fun e => !e.2.quarantined &&
    (if fn = pf then decide (e.2.fn = pf) || e.2.abandoned else decide (e.2.fn = fn)))).map Prod.fst)

/-- A function state when the FLR of its function completes (R242): a QUIESCE under way completes OK. -/
def flrFunctionState (fn : Nat) (s : State) : State :=
  if (getFnS s fn).state = .run then s
  else
    let s1 := endWaiters fn .ok s
    setFnS fn { getFnS s1 fn with state := .stopped } s1

/-- HEP_LAST_FLR: the function, whether a tag timed out, and the time from the FLR write in µs. -/
def lastFlr (fn : Nat) (timedOut : Bool) (us_ : Nat) : Word := putFld 0 13 fn ||| putBit 13 timedOut ||| putFld 14 17 (min us_ 100000)

/-- FLR_COMPLETE (R226, R228): no tag of the FLR is outstanding any more. At least 0.2 µs after the last of them came back, and after the
FLR was written. -/
def execFlrComplete (fn : Nat) (s0 : State) : Result :=
  match (getFn s0 fn).flrFrom with
  | none => .next s0
  | some t =>
    if !(flrTags s0 fn).isEmpty then .next s0
    else
      let s := reachTime ((getFn s0 fn).flrTagAt + 200) s0
      let f := getFn s fn
      let s1 := setFn fn { f with flrFrom := none, flrTimedOut := false } s
      let s2 := setReg rHEP_LAST_FLR (lastFlr fn f.flrTimedOut ((s.now - t) / 1000)) s1
      let s3 := hostOut (.hostMsg (.frs fn 3)) (flrFunctionState fn s2)
      .next (evHep 2 (incr cHEP_FLR_COUNT s3))

/-- FLR_TAG_QUARANTINE (R226): 99.9 ms after an FLR began, the tags still outstanding are quarantined. -/
def execFlrTagQuarantine (fn : Nat) (s : State) : Result :=
  match (getFn s fn).flrFrom with
  | none => .next s
  | some t =>
    let s1 := reachTime (t + us 99900) s
    let tags := flrTags s1 fn
    if tags.isEmpty then .next s1
    else .next (retryFlushes (evHep 4 (setFn fn { getFn s1 fn with flrTimedOut := true, flrTagAt := s1.now } (quarantine tags s1))))

/-- VF Enable is set: the VFs come into being (R209, R228). Answers whether the write is refused because NumVFs exceeds TotalVFs. -/
def setVfEnable (s : State) : Bool × State :=
  if s.hep.vfEnable then (false, s)
  else if totalVfs s < s.hep.numVfs.toNat then (true, s)
  else
    let s1 := { s with hep := { s.hep with vfEnable := true } }
    let s2 := forEach (fun vf s => setFn vf Func.init s) (List.range s.hep.numVfs.toNat) s1
    (false, hostOut (.hostMsg (.frs pf 8)) (resetVfPairs s2))

/-- VF_ENABLE_SET (R209). -/
def execVfEnableSet (s : State) : Result :=
  if !takesConfig s pf then .next s
  else match setVfEnable s with
    | (true, s1) => .next (logUr pf (incr cHEP_UR_SENT s1))
    | (false, s1) => .next s1

/-- VF_ENABLE_CLEAR (R242). -/
def execVfEnableClear (s : State) : Result := .next (if takesConfig s pf then clearVfEnable s else s)

/-- NumVFs is written (R209). -/
def writeNumVfs (n : BitVec 16) (s : State) : State := if s.hep.vfEnable then s else { s with hep := { s.hep with numVfs := n } }

/-- NUMVFS_WRITE (R209). -/
def execNumvfsWrite (n : BitVec 16) (s : State) : Result := .next (if takesConfig s pf then writeNumVfs n s else s)

/-- What a function holds leaves when the function may issue requests again (R206, R218). -/
def releaseFn (fn : Nat) (s : State) : State :=
  let f := getFn s fn
  if maySend s fn then releaseHeld fn f.held (setFn fn { f with held := [] } s) else s

/-- Bus Master Enable is written (R218). -/
def writeBme (fn : Nat) (on : Bool) (s : State) : State := releaseFn fn (setFn fn { getFn s fn with bme := on } s)

/-- BME_CLEAR (R218). -/
def execBmeClear (fn : Nat) (s : State) : Result := .next (if takesConfig s fn then writeBme fn false s else s)

/-- BME_SET (R218). -/
def execBmeSet (fn : Nat) (s : State) : Result := .next (if takesConfig s fn then writeBme fn true s else s)

/-- Memory Space Enable is written (R219); that of the VFs is one bit of the SR-IOV capability. -/
def writeMse (fn : Nat) (on : Bool) (s : State) : State :=
  if fn < pf then setCfg pf 94 (setFld (getCfg s pf 94) 3 1 (if on then 1 else 0)) s else setFn fn { getFn s fn with mse := on } s

/-- MSE_WRITE (R219). -/
def execMseWrite (fn : Nat) (on : Bool) (s : State) : Result := .next (if takesConfig s fn then writeMse fn on s else s)

/-- The power state of a function is written: D3hot or D0 (R206). -/
def writePowerState (fn : Nat) (d3 : Bool) (s : State) : State :=
  let s1 := setFn fn { getFn s fn with d3hot := d3 } s
  if fn < 8191 then releaseFn fn s1
  else forEach releaseFn ((s1.hep.fns.filter (fun e => !e.2.held.isEmpty)).map Prod.fst) s1

/-- Whether a write of the power state of a function is taken: the PF and the ports of a head have it, VFs do not (R208). -/
def takesPower (s : State) (fn : Nat) : Bool :=
  if fn < 8191 then takesConfig s fn && decide (fn = pf)
  else s.hep.portsReady && decide (s.ident.role = .head) && decide (fn < 8256)

/-- D3HOT_ENTRY (R206). -/
def execD3hotEntry (fn : Nat) (s : State) : Result := .next (if takesPower s fn then writePowerState fn true s else s)

/-- D0_RETURN (R206). -/
def execD0Return (fn : Nat) (s : State) : Result := .next (if takesPower s fn then writePowerState fn false s else s)

/-- Vectors of a function (R208). -/
def vectorsOf (fn : Nat) : Nat := if fn = pf then 2048 else if fn < pf then 8 else 1

/-- A pending vector that is no longer masked sends its message, or joins what the function holds (R218). -/
def flushVector (fn vec : Nat) (s : State) : State :=
  let f := getFn s fn
  if !mget (fun _ => false) f.pba vec || f.vectorMasked vec || !f.msixEnable then s
  else if maySend s fn then hostOut (msixOut fn f vec) (setFn fn { f with pba := mset (fun _ => false) f.pba vec false } s)
  else if f.held.contains (.msix vec) then s
  else holdOut fn (.msix vec) s

/-- The pending vectors of a function send their messages where they may. -/
def flushVectors (fn : Nat) (s : State) : State :=
  forEach (flushVector fn) ((getFn s fn).pba.map Prod.fst) s

/-- A register of an MSI-X table is written. -/
def writeMsixTable (fn k : Nat) (v : Word) (s : State) : State :=
  let f := getFn s fn
  let w := if k % 4 = 0 then v &&& 0xFFFFFFFC else if k % 4 = 3 then v &&& 1 else v
  if vectorsOf fn ≤ k / 4 then s
  else flushVector fn (k / 4) (setFn fn { f with msix := mset msixDefault f.msix k w } s)

/-- MSIX_MASK_WRITE (R218): the mask bit of a vector is written by the host. -/
def execMsixMaskWrite (fn vec : Nat) (masked : Bool) (s : State) : Result :=
  let f := getFn s fn
  if (fnExists s fn || portExists s fn) && memEnabled s fn && !f.d3hot && f.flrFrom.isNone then
    .next (writeMsixTable fn (4 * vec + 3) (if masked then 1 else 0) s)
  else .next s

/-- VENDOR_MESSAGE_RX (R217): Type 0 is an Unsupported Request, logged in the function; a message has no completion. Type 1 is
discarded. -/
def execVendorMessageRx (fn : Nat) (type1 : Bool) (s : State) : Result :=
  if type1 then .next s else .next (logUr fn s)

end Sys2Proof.Machine
end

