-- ==== Sys2Proof/Machine/CipherFormat.lean ====
section
/-! DEFINITION. What a cipher pass protects in a frame: ESP, MACsec and SRTP (R113, R114, R155–R157). -/

namespace Sys2Proof.Machine

/-- Protocol numbers that the slot of a descriptor of each type may hold (R109, R160). -/
def typeProto (k : Option KeySlot) (d : Bytes) : Nat :=
  match tunType d with
  | 5 => match k with | some x => if x.proto = 1 then 1 else 2 | none => 2
  | 6 => 4
  | _ => 3

/-- A protected frame in parts: what stands before the protected data, the additional authenticated data, the data, what stands behind
it, the tag as received, and the bytes that the IV takes. -/
structure Protected where
  head : Bytes
  aad : Bytes
  data : Bytes
  tag : Bytes
  ext : Bytes
deriving DecidableEq, Repr

/-- ESP padding: the trailer ends on a multiple of 4 (R113, RFC 4303). -/
def espTrailer (len proto : Nat) : Bytes :=
  let pad := (4 - (len + 2) % 4) % 4
  (List.range pad).map (fun k => BitVec.ofNat 8 (k + 1)) ++ toBe 1 pad ++ toBe 1 proto

/-- The ESP header of a packet: SPI, low half of the ESN, and the ESN as IV field (R156). -/
def espHeader (d : Bytes) (num : Nat) : Bytes := toBe 4 (tunId d) ++ toBe 4 num ++ toBe 8 num

/-- AAD of ESP with extended sequence numbers (RFC 4106). -/
def espAad (d : Bytes) (num : Nat) : Bytes := toBe 4 (tunId d) ++ toBe 8 num

/-- The SecTAG of a frame that is sent (R113, IEEE 802.1AE): E and C are clear for integrity only. -/
def secTag (d : Bytes) (integrity : Bool) (an : BitVec 2) (num userLen : Nat) : Bytes :=
  toBe 2 0x88E5 ++ toBe 1 ((if tunFlag d 5 then 32 else 0) + (if integrity then 0 else 12) + an.toNat)
    ++ toBe 1 (if userLen < 48 then userLen else 0) ++ toBe 4 num ++ (if tunFlag d 5 then tunSci d else [])

/-- Bytes of the RTP header at `o` (R155, RFC 7714): its CSRCs and extension belong to it. -/
def rtpHeaderLen (bs : Bytes) (o : Nat) : Nat :=
  let n := 12 + 4 * (byteAt bs o % 16)
  if nbit (byteAt bs o) 4 then n + 4 + 4 * beAt bs (o + n + 2) 2 else n

/-- The parts of a frame that is to be sent under a descriptor (R113). -/
def protectFrame (d : Bytes) (integrity : Bool) (an : BitVec 2) (num : Nat) (hash : BitVec 16) (bs : Bytes) : Protected :=
  match tunType d with
  | 3 =>
    let inner := bs.drop (l3Off bs)
    let pt := inner ++ espTrailer inner.length (if ipVersion bs = 4 then 4 else 41)
    { head := outerIp d bs hash 50 (espHeader d num), aad := espAad d num, data := pt, tag := [], ext := toBe 8 num }
  | 4 =>
    let u := l4Off bs
    let inner := bs.drop u
    let pt := inner ++ espTrailer inner.length (ipProto bs)
    let h := patch (slice bs 0 u) (l3Off bs + (if ipVersion bs = 4 then 9 else 6)) [50]
    { head := h ++ espHeader d num, aad := espAad d num, data := pt, tag := [], ext := toBe 8 num }
  | 5 =>
    let user := bs.drop 12
    let tagged := slice bs 0 12 ++ secTag d integrity an num user.length
    { head := tagged, aad := tagged, data := user, tag := [], ext := tunSci d }
  | _ =>
    let u := l4Off bs + 8
    let n := rtpHeaderLen bs u
    { head := slice bs 0 (u + n), aad := slice bs u n, data := bs.drop (u + n), tag := [], ext := [] }

/-- The frame that is sent, from its head, its protected data and its tag: lengths and checksums follow (R113). -/
def sealedFrame (d : Bytes) (p : Protected) (data tag : Bytes) : Bytes :=
  let bs := p.head ++ data ++ tag
  if tunType d = 5 then bs else fixUdpSum (fixLengths bs)

/-- The parts of a frame that arrives under a descriptor (R114), with its number. -/
def openParts (d bs : Bytes) (num : Nat) : Protected :=
  match tunType d with
  | 5 =>
    let n := if nbit (byteAt bs 14) 5 then 28 else 20
    let sl := byteAt bs 15 % 64
    let dataLen := if sl = 0 then bs.length - n - 16 else min sl (bs.length - n - 16)
    { head := slice bs 0 12, aad := slice bs 0 n, data := slice bs n dataLen, tag := slice bs (n + dataLen) 16,
      ext := if nbit (byteAt bs 14) 5 then slice bs 20 8 else tunSci d }
  | 6 =>
    let u := l4Off bs + 8
    let n := rtpHeaderLen bs u
    { head := slice bs 0 (u + n), aad := slice bs u n, data := slice bs (u + n) (bs.length - u - n - 16),
      tag := slice bs (bs.length - 16) 16, ext := [] }
  | _ =>
    let u := l4Off bs
    let stop := l3Off bs + (if ipVersion bs = 4 then beAt bs (l3Off bs + 2) 2 else 40 + beAt bs (l3Off bs + 4) 2)
    let fin := min stop bs.length
    { head := slice bs 0 u, aad := espAad d num, data := slice bs (u + 16) (fin - u - 32), tag := slice bs (fin - 16) 16,
      ext := slice bs (u + 8) 8 }

/-- The number of a frame that arrives, as its slot extends it (R158). -/
def rxNumber (k : KeySlot) (d bs : Bytes) : Nat :=
  match tunType d with
  | 5 => if k.proto = 1 then xpnNumber k (beAt bs 16 4) else beAt bs 16 4
  | 6 => srtpNumber k (beAt bs (l4Off bs + 10) 2)
  | _ => espNumber k (beAt bs (l4Off bs + 4) 4)

/-- The frame inside a protected frame whose tag is good (R114). A tunnel gives back an IP packet under the outer MAC addresses;
padding that does not fit gives none. -/
def openedFrame (d : Bytes) (p : Protected) (plain : Bytes) : Option Bytes :=
  let nh := byteAt plain (plain.length - 1)
  let pad := byteAt plain (plain.length - 2)
  let inner := slice plain 0 (plain.length - 2 - pad)
  match tunType d with
  | 5 => some (p.head ++ plain)
  | 6 => some (fixUdpSum (fixLengths (p.head ++ plain)))
  | 3 =>
    if plain.length < 2 + pad then none
    else some (slice p.head 0 12 ++ toBe 2 (if nh = 41 then 0x86DD else 0x0800) ++ inner)
  | _ =>
    if plain.length < 2 + pad then none
    else
      let off := l3Off p.head + (if ipVersion p.head = 4 then 9 else 6)
      some (fixLengths (patch p.head off (toBe 1 nh) ++ inner))

/-- Whether a MACsec frame carries integrity only: E and C are clear. -/
def integrityFrame (d bs : Bytes) : Bool := tunType d = 5 && !nbit (byteAt bs 14) 3 && !nbit (byteAt bs 14) 2

end Sys2Proof.Machine
end

