-- ==== Sys2Proof/Machine/Cipher.lean ====
section
/-! DEFINITION. The cipher complex: dispatch, engines, release, the key cache (06_cipher_complex.md). -/

namespace Sys2Proof.Machine

/-- The state with the passes replaced. -/
def setPasses (m : Map Pass) (s : State) : State := { s with cph := { s.cph with passes := m } }

/-- The state with pass `n` replaced. -/
def setPass (n : Nat) (p : Pass) (s : State) : State := setPasses (minsert s.cph.passes n p) s

/-- Pass `n` is over, without a result: the results behind it are not delayed (R149). -/
def endPass (n : Nat) (s : State) : State := setPasses (merase s.cph.passes n) s

/-- The pass that runs on an engine is suspended (R152). -/
def suspendOn (e : Nat) (s : State) : State :=
  match s.cph.passes.find? (fun p => p.2.state = .running e) with
  | some (n, p) => incr cCPH_SUSPENDS (setPass n { p with state := .suspended e, suspensions := p.suspensions + 1 } s)
  | none => s

/-- Pass `n` starts on engine `e`, or waits in its queue. -/
def placePass (n e : Nat) (s : State) : State :=
  match mfind s.cph.passes n with
  | none => s
  | some p =>
    if p.ls then
      let s1 := suspendOn e s
      setPass n { p with state := .running e, started := s.now } s1
    else if engineRuns s e || s.cph.passes.any (fun q => q.2.state = .suspended e) then setPass n { p with state := .queued e } s
    else setPass n { p with state := .running e, started := s.now } s

/-- The number that a pass carries, and the slot with its number advanced (R157, R158). -/
def passNumber (k : KeySlot) (w : CipherWork) : Nat × KeySlot :=
  if w.enc then
    if tunType w.desc = 6 then
      let n := srtpNext k (beAt w.frame.bytes (l4Off w.frame.bytes + 10) 2)
      (n, { k with pn := n })
    else (k.pn, { k with pn := k.pn + 1 })
  else (rxNumber k w.desc w.frame.bytes, k)

/-- The parts of a frame under its pass. -/
def passParts (p : Pass) (k : KeySlot) : Protected :=
  if p.enc then protectFrame p.desc k.integrity (Config.macsecAn p.slot) p.number p.frame.hash p.frame.bytes
  else openParts p.desc p.frame.bytes p.number

/-- Whether the direction of a slot suits a pass (R160). -/
def directionFits (k : KeySlot) (enc : Bool) : Bool := k.tx = enc

/-- A frame that waits for a pass becomes a pass in the order of its domain, not yet bound to a key (R149, R164). -/
def enterPass (w : CipherWork) (ls : Bool) (s : State) : Nat × State :=
  let n := s.cph.nextPass
  let p : Pass :=
    { slot := tunSlot w.desc, generation := 0, bound := false, proto := 0, enc := w.enc, ls := ls, key := [], salt := [],
      integrity := false, param := 0, number := 0, frame := w.frame, payload := 0, desc := w.desc, next := w.next, state := .parked,
      started := 0, suspensions := 0 }
  (n, { s with cph := { s.cph with nextPass := n + 1, passes := minsert s.cph.passes n p } })

/-- The refusal of a frame's pass at dispatch (R157–R166): a slot of another protocol or direction holds no key for it. -/
def frameRefusal (s : State) (w : CipherWork) : Option Status :=
  let k := getSlot s (tunSlot w.desc)
  match passRefusal s (tunSlot w.desc) (typeProto k w.desc) w.frame.bytes.length with
  | some st => some st
  | none => match k with
    | some x => if directionFits x w.enc then none else some .keyAbsent
    | none => some .keyAbsent

/-- A pass is bound to its key (R163): its number is given, and the invocation is counted. An integrity-only pass has no payload (R146). -/
def bindPass (n : Nat) (k : KeySlot) (w : CipherWork) (ls : Bool) (s : State) : State :=
  match mfind s.cph.passes n with
  | none => s
  | some p =>
    let num := passNumber k w
    let p0 : Pass :=
      { p with slot := tunSlot w.desc, generation := k.generation, bound := true, proto := k.proto, ls := ls, key := slice k.key 0 (if k.key256 then 32 else 16) }
    let integ := k.integrity || integrityFrame w.desc w.frame.bytes && !w.enc
    let p1 : Pass := { p0 with salt := k.salt, param := k.param, number := num.1, integrity := integ }
    let len := if integ then 0 else (passParts p1 k).data.length
    let s1 := setPass n { p1 with payload := len } (setSlot (tunSlot w.desc) num.2 s)
    countPass w.enc len (touchSlot (tunSlot w.desc) (countInvocation (tunSlot w.desc) s1))

/-- Passes of a slot that wait. -/
def slotWaits (s : State) (slot : Nat) : Bool := s.cph.passes.any (fun p => p.2.slot = slot && p.2.state = .parked)

/-- What becomes of a frame at the head of a queue of the dispatcher. -/
inductive Dispatch where
  /-- no pass can be taken now: the frame stays where it is -/
  | stay
  /-- the frame has been taken, dropped or parked -/
  | took (s : State)

/-- An LS pass is dropped: none of CE0–CE15 is left (R154). -/
def dropLsPass (s : State) : State := evCph 8 (incr cCPH_LS_QUEUE_DROP s)

/-- A frame reaches the dispatcher (R33, R148, R152, R154, R158, R163, R164, R172). `entry` is the ECC result of the slot's cache entry:
one that cannot be read is discarded, and the pass waits for its LOAD. -/
def dispatchWork (w : CipherWork) (ls : Bool) (entry : EccResult) (s : State) : Dispatch :=
  let slot := tunSlot w.desc
  if ls && lsEnginesFenced s then .took (dropLsPass s)
  else
    match frameRefusal s w with
    | some st => .took (countRefusal slot st s)
    | none =>
      match getSlot s slot with
      | none => .stay
      | some k =>
        if !w.enc && belowWindow k (rxNumber k w.desc w.frame.bytes) then .took (countReplay slot s)
        else if noToken s ls then .stay
        else if !slotCached s slot k then
          if 512 ≤ missQueue s then .stay else .took (incr cCPH_KEY_MISS (enterPass w ls s).2)
        else if entry = .uncorrectable then
          if 512 ≤ missQueue s then .stay else .took (enterPass w ls (discardEntry slot s)).2
        else if slotStalled k || slotWaits s slot then .took (enterPass w ls s).2
        else
          match (if ls then lsEngine s w.frame.bytes.length else bestEngine s w.frame.bytes.length) with
          | none => .stay
          | some e =>
            let r := enterPass w ls s
            .took (placePass r.1 e (bindPass r.1 k w ls r.2))

/-- A parked pass is dispatched, when it is the oldest that waits in its domain (R149, R154, R163). -/
def dispatchParked (n : Nat) (s : State) : State :=
  match mfind s.cph.passes n with
  | none => s
  | some p =>
    let older := s.cph.passes.any (fun q => decide (q.1 < n) && q.2.slot = p.slot && q.2.state = .parked)
    if p.state ≠ .parked || older then s
    else if p.ls && lsEnginesFenced s then endPass n (dropLsPass s)
    else
      let eng := if p.ls then lsEngine s p.frame.bytes.length else bestEngine s p.frame.bytes.length
      if p.bound then (match eng with | some e => placePass n e s | none => s)
      else
        let w : CipherWork := { frame := p.frame, desc := p.desc, enc := p.enc, next := p.next }
        match frameRefusal s w with
        | some st => endPass n (countRefusal p.slot st s)
        | none =>
          match getSlot s p.slot with
          | none => s
          | some k =>
            if !p.enc && belowWindow k (rxNumber k p.desc p.frame.bytes) then endPass n (countReplay p.slot s)
            else if slotStalled k || !slotCached s p.slot k then s
            else match eng with
              | some e => placePass n e (bindPass n k w p.ls s)
              | none => s

/-- The state after a frame has stayed where it was, or has been taken. -/
def Dispatch.from (d : Dispatch) (s : State) : State :=
  match d with
  | .stay => s
  | .took t => t

/-- The oldest pass of the LS dispatch queue goes to the dispatcher (R152). -/
def dispatchLs (entry : EccResult) (s : State) : State :=
  match s.cph.lsDispatch with
  | [] => s
  | w :: rest => (dispatchWork w true entry { s with cph := { s.cph with lsDispatch := rest } }).from s

/-- CIPHER_DISPATCH (R148, R157, R158, R163, R164, R166, R172): a frame at the head of a queue, or a parked pass, is given to an engine.
Of the decrypt frames those of SP25's LS queue go first. -/
def execCipherDispatch (src : CipherFrom) (s : State) : Result :=
  match src with
  | .decrypt entry =>
    match s.cph.decryptLs, s.cph.decryptIn with
    | w :: rest, _ => .next ((dispatchWork w true entry { s with cph := { s.cph with decryptLs := rest } }).from s)
    | [], w :: rest => .next ((dispatchWork w false entry { s with cph := { s.cph with decryptIn := rest } }).from s)
    | [], [] => .next s
  | .handover fp entry =>
    match mget (fun _ => []) s.cph.handover fp with
    | [] => .next s
    | w :: rest => .next ((dispatchWork w false entry { s with cph := { s.cph with handover := mset (fun _ => []) s.cph.handover fp rest } }).from s)
  | .parked n => .next (dispatchParked n s)
  | .lsEntryLost => .next (dispatchLs .uncorrectable s)

/-- LS_PASS_DISPATCH (R152, R154): the oldest pass of the LS dispatch queue starts on one of CE0–CE15, or is dropped when all of them
are fenced. -/
def execLsPassDispatch (s : State) : Result := .next (dispatchLs .clean s)

/-- PASS_RESUME (R152): the suspended pass of an engine goes on once no LS pass runs there or waits. -/
def execPassResume (engine : Nat) (s : State) : Result :=
  match s.cph.passes.find? (fun p => p.2.state = .suspended engine) with
  | some (n, p) =>
    if engineRuns s engine || !s.cph.lsDispatch.isEmpty then .next s else .next (setPass n { p with state := .running engine } s)
  | none => .next s

/-- The next queued pass of an engine starts, when none runs or is suspended there and its hold space is free (R151); CE0–CE15 start none
while they take LS passes only (R152). -/
def startQueued (e : Nat) (s : State) : State :=
  if engineRuns s e || s.cph.passes.any (fun p => p.2.state = .suspended e) || (decide (e < 16) && lsEnginesOnly s) then s
  else
    match s.cph.passes.find? (fun p => p.2.state = .queued e) with
    | some (n, p) =>
      if holdUsed s e + p.frame.bytes.length ≤ 16384 then setPass n { p with state := .running e, started := s.now } s else s
    | none => s

/-- Bytes in a release buffer (R150). -/
def releaseUsed (s : State) (enc : Bool) : Nat :=
  ((s.cph.passes.filter (fun p => p.2.state = .buffered && p.2.enc = enc)).map (fun p => p.2.frame.bytes.length)).sum

/-- Whether a pass is the oldest of its domain (R149). -/
def isOldest (s : State) (n slot : Nat) : Bool := !s.cph.passes.any (fun q => decide (q.1 < n) && q.2.slot = slot)

/-- Whether the result of a pass moves to the release buffer: it is not the oldest of its domain, and the buffer has room (R150). -/
def goesToBuffer (s : State) (n : Nat) (p : Pass) (len : Nat) : Bool :=
  !isOldest s n p.slot && decide (releaseUsed s p.enc + len ≤ 4194304)

/-- A result in a hold buffer moves on when the release buffer has come to have room (R150). -/
def releaseHold (n : Nat) (s : State) : State :=
  match mfind s.cph.passes n with
  | some p =>
    match p.state with
    | .held _ => if goesToBuffer s n p p.frame.bytes.length then setPass n { p with state := .buffered } s else s
    | _ => s
  | none => s

/-- What follows a result that has left: results move from the hold buffers to the release buffers, and engines whose hold space is free
start their next passes (R150, R151). -/
def settleEngines (s : State) : State :=
  let s1 := forEach releaseHold (s.cph.passes.map Prod.fst) s
  forEach startQueued (((s.cph.passes.filterMap (fun p => match p.2.state with | .queued e => some e | _ => none))).eraseDups) s1

/-- What the engine of a pass computes: the frame that leaves, or none on a failing tag (R151). -/
def computePass (p : Pass) : Option Bytes :=
  let iv := fun (x : Protected) => passIv p.proto p.salt p.param p.number x.ext
  if p.enc then
    let x := protectFrame p.desc p.integrity (Config.macsecAn p.slot) p.number p.frame.hash p.frame.bytes
    let r := if p.integrity then (x.data, gmac p.key (iv x) (x.aad ++ x.data)) else gcmSeal p.key (iv x) x.aad x.data
    some (sealedFrame p.desc x r.1 r.2)
  else
    let x := openParts p.desc p.frame.bytes p.number
    let r := if p.integrity then (x.data, gmac p.key (iv x) (x.aad ++ x.data)) else gcmOpen p.key (iv x) x.aad x.data
    if r.2 = x.tag then openedFrame p.desc x r.1 else none

/-- Device time that a pass takes at least: 1.5 clocks in each ns (R145, R146). -/
def passNs (p : Pass) : Nat := passClocks (p.key.length = 32) p.payload * 2 / 3

/-- CIPHER_PASS_COMPLETE (R146, R150, R151): the pass that runs on an engine ends. A failing tag drops the frame; a result that is not
the oldest of its domain moves to the release buffer when that has room. -/
def execCipherPassComplete (engine : Nat) (s : State) : Result :=
  match s.cph.passes.find? (fun p => p.2.state = .running engine) with
  | none => .next s
  | some (n, p) =>
    let s1 := reachTime (p.started + passNs p) s
    let s2 := if p.ls then incr cCPH_LS_PASSES s1 else s1
    match computePass p with
    | none => .next (startQueued engine (endPass n (countAuthFail p.slot s2)))
    | some bs =>
      let f := { p.frame with bytes := bs }
      .next (startQueued engine (setPass n { p with frame := f, state := if goesToBuffer s n p bs.length then .buffered else .held engine } s2))

/-- A result leaves the complex (R114, R115): a decrypted frame returns to the pipeline that dispatched it, an encrypted one to the
point behind its egress pass. -/
def deliverPass (p : Pass) (s : State) : State :=
  match p.next with
  | .recirculate => toIngress p.frame.fp { p.frame with recirc := true, decap := none } s
  | .egress sp => enqueueOut sp p.frame s
  | .toSwitch _ => toSwitch p.frame s

/-- RESULT_RELEASE (R149, R150, R158): the oldest result of a key slot's domain leaves. A received number that is marked already drops
the frame; otherwise it is marked. -/
def execResultRelease (slot : Nat) (s : State) : Result :=
  match s.cph.passes.find? (fun p => p.2.slot = slot) with
  | none => .next s
  | some (n, p) =>
    let ready := match p.state with | .held _ => true | .buffered => true | _ => false
    if !ready then .next s
    else
      let s1 := settleEngines (endPass n s)
      if p.enc then .next (deliverPass p s1)
      else
        match getSlot s1 slot with
        | none => .next (deliverPass p s1)
        | some k =>
          if k.generation ≠ p.generation then .next (deliverPass p s1)
          else if isMarked k p.number || belowWindow k p.number then .next (countReplay slot s1)
          else .next (deliverPass p (setSlot slot (markNumber k p.number) s1))

/-- PREEMPT_ABANDON (R153): a non-LS pass that LS passes have kept from completing on one of CE0–CE15 is abandoned 5.76 µs after
EMERGENCY or DRILL was driven. -/
def execPreemptAbandon (engine : Nat) (s : State) : Result :=
  match s.cph.entryAt, s.cph.passes.find? (fun p => !p.2.ls && (p.2.state = .suspended engine ||
      (p.2.state = .running engine && decide (0 < p.2.suspensions)))) with
  | some t, some (n, _) =>
    if 16 ≤ engine || !lsEnginesOnly s then .next s
    else .next (startQueued engine (evCph 7 (incr cCPH_PREEMPT_DROP (endPass n (reachTime (t + 5760) s)))))
  | _, _ => .next s

/-- The queued non-LS passes of CE0–CE15 go back to the dispatcher when those engines take LS passes only (R152): their keys and numbers
stay as they are. -/
def returnQueued (s : State) : State :=
  setPasses (mmap (fun _ p =>
    match p.state with
    | .queued e => if e < 16 then { p with state := .parked } else p
    | _ => p) s.cph.passes) s

/-- The parked passes of a slot are dropped: its working copy cannot be read (R172). -/
def dropParked (slot : Nat) (s : State) : State :=
  let s1 := forEach (fun n s => incr cCPH_KEY_ABSENT_DROP (endPass n s))
    ((s.cph.passes.filter (fun p => p.2.slot = slot && p.2.state = .parked && !p.2.bound)).map Prod.fst) s
  { s1 with cph := { s1.cph with jobMisses := s1.cph.jobMisses.filter (· ≠ slot) } }

/-- The entry of a slot is in the cache again, and nothing of it waits in the miss queue. -/
def enterCache (slot : Nat) (s : State) : State :=
  touchSlot slot { s with cph := { s.cph with lostEntries := s.cph.lostEntries.filter (· ≠ slot), jobMisses := s.cph.jobMisses.filter (· ≠ slot) } }

/-- KEY_LOAD (R164, R165, R172): the working copy of a slot is unwrapped into the cache; the least recently used slot leaves. In Refuge
mode HBM is unpowered and no LOAD occurs: a lost entry is unwrapped anew from its NVM copy (DEDUCED, log entry 63). -/
def execKeyLoad (slot : Nat) (ecc : EccResult) (s : State) : Result :=
  match getSlot s slot with
  | none => .next s
  | some k =>
    if s.crt.sec = .zeroised || slotCached s slot k || !(slotWaits s slot || s.cph.jobMisses.contains slot) then .next s
    else if s.pcr.refuge then .next (enterCache slot s)
    else if ecc = .uncorrectable then
      .next (dropParked slot (setSlot slot { k with damaged := true } (hbmBlockRead ecc s)))
    else .next (enterCache slot (hbmBlockRead ecc s))

/-- WORKING_COPY_RESTORE (R172): Crater restores a damaged working copy from NVM. -/
def execWorkingCopyRestore (slot : Nat) (s : State) : Result :=
  match getSlot s slot with
  | some k => .next (if k.damaged && s.crt.sec ≠ .zeroised then setSlot slot { k with damaged := false } s else s)
  | none => .next s

/-- The readable state of a slot, 32 bytes (R160). -/
def slotBytes (k : KeySlot) : Bytes :=
  let flags := (if k.key256 then 1 else 0) + (if k.tx then 2 else 0) + (if k.ls then 4 else 0) + (if k.near then 8 else 0)
    + (if k.stopped then 16 else 0) + (if k.pinned then 32 else 0) + (if k.integrity then 64 else 0)
  toLe 1 k.proto ++ toLe 1 flags ++ toLe 1 k.limitLog2 ++ [0] ++ toLe 2 k.generation.toNat ++ [0, 0] ++ toLe 8 k.invocations
    ++ toLe 8 k.pn ++ toLe 4 k.param.toNat ++ toLe 4 k.replayWin

/-- The readable state of a slot without a key: its generation is that of its commit line (R160, R406). -/
def emptySlotBytes (s : State) (slot : Nat) : Bytes :=
  let gen := match mfind s.crt.store slot with
    | some x =>
      match x.c0, x.c1 with
      | some a, some b => if a.cseq.toNat < b.cseq.toNat then b.generation.toNat else a.generation.toNat
      | some a, none => a.generation.toNat
      | none, some b => b.generation.toNat
      | none, none => 0
    | none => 0
  List.replicate 4 0 ++ toLe 2 gen ++ List.replicate 26 0

/-- A READ of the key slots (R160, R541): table 0 slot state, table 1 slot counters. -/
def cphIndirect (p : Party) (s : State) : State :=
  let a := getView s p rCPH_IND_ADDR
  let slot := fld a 0 16
  let data := match fld a 16 4, getSlot s slot with
    | 0, some k => some (slotBytes k)
    | 0, none => some (emptySlotBytes s slot)
    | 1, some k => some (toLe 8 k.passes.toNat ++ toLe 8 k.authFail.toNat ++ toLe 8 k.replayDrop.toNat ++ toLe 8 k.limitDrop.toNat)
    | 1, none => some (List.replicate 32 0)
    | _, _ => none
  match data with
  | some d => setViewWords p (rCPH_IND_DATA 0) (bytesToWords 8 d) (setErr p rCPH_IND_CTL 0 s)
  | none => setErr p rCPH_IND_CTL 3 s

/-- CPH_IND_READ (R160). -/
def execCphIndRead (p : Party) (s : State) : Result := .next (cphIndirect p s)

/-- NEAR_FIFO_POP (R166): a read of CPH_NEAR_FIFO returns the oldest entry and pops it. -/
def execNearFifoPop (p : Party) (s : State) : Result :=
  match s.cph.nearFifo with
  | [] => .next (returnValue p rCPH_NEAR_FIFO 0 s)
  | e :: rest =>
    .next (returnValue p rCPH_NEAR_FIFO (putFld 0 16 e.slot ||| putBit 16 e.limit ||| putBit 31 true)
      { s with cph := { s.cph with nearFifo := rest } })

end Sys2Proof.Machine
end

