-- ==== Sys2Proof/Machine/KeyStore.lean ====
section
/-! DEFINITION. Crater's key store (R404–R412): derived keys, copies and commit lines, installs and retires, high-water marks, recovery
at a start, and the causes of DEGRADED (R403). -/

namespace Sys2Proof.Machine

/-- The bytes of an ASCII label. -/
def labelBytes (l : String) : Bytes := l.toList.map (fun c => BitVec.ofNat 8 c.toNat)

/-- SP 800-108 in counter mode with HMAC-SHA-384, one block, 256 bits of output (R408). Counter and length are 32 bits (PRESUMED). -/
def kdf (key : Bytes) (label : String) (context : Bytes) : Bytes :=
  (hmac384 key (toBe 4 1 ++ labelBytes label ++ [0] ++ context ++ toBe 4 256)).take 32

/-- HUK ‖ SEED; without a SEED, 256 zero bits stand for it (R408, R439). -/
def derivationKey (s : State) : Bytes := Config.huk ++ s.crt.seed.getD (List.replicate 32 0)

/-- KSK wraps copies. -/
def ksk (s : State) : Bytes := kdf (derivationKey s) "KSK" []
/-- KMK makes the MACs of commit and BOOT_COUNT lines. -/
def kmk (s : State) : Bytes := kdf (derivationKey s) "KMK" []
/-- IMG unwraps the key section of the image. -/
def imgKey (s : State) : Bytes := kdf (derivationKey s) "IMG" []

/-- An IV of Crater: BOOT_COUNT[31:0] ‖ WRITE_COUNT[63:0]; WRITE_COUNT rises by 1 (R407). -/
def drawIv (s : State) : Bytes × State :=
  (toBe 4 s.crt.bootCount.toNat ++ toBe 8 s.crt.writeCount.toNat, { s with crt := { s.crt with writeCount := s.crt.writeCount + 1 } })

/-- Bytes 0–23 of a copy (R405). -/
def KeyCopy.head (c : KeyCopy) : Bytes :=
  toLe 2 c.slot.toNat ++ toLe 2 c.generation.toNat ++ [c.proto, c.flags, c.limitLog2, 0] ++ toLe 8 c.startPn.toNat
    ++ toLe 4 c.param.toNat ++ toLe 4 c.replayWin.toNat

/-- Bytes 0–47 of a commit line (R406). -/
def CommitLine.head (l : CommitLine) : Bytes :=
  toLe 2 0x4B43 ++ toLe 2 l.slot.toNat ++ toLe 8 l.cseq.toNat ++ toLe 2 l.generation.toNat ++ [l.current, 0] ++ toLe 6 l.high.toNat
    ++ List.replicate 14 0 ++ slice l.iv 0 12

/-- A slot that was never written. -/
def StoreSlot.blank : StoreSlot := { copyA := none, copyB := none, c0 := none, c1 := none }

/-- A slot of the key store. -/
def getStore (s : State) (n : Nat) : StoreSlot := mget (fun _ => StoreSlot.blank) s.crt.store n

/-- The state with a slot of the key store replaced. -/
def setStore (n : Nat) (x : StoreSlot) (s : State) : State :=
  { s with crt := { s.crt with store := mset (fun _ => StoreSlot.blank) s.crt.store n x } }

/-- A line is valid when its slot matches and its MAC verifies (R406). -/
def lineValid (s : State) (n : Nat) (l : CommitLine) : Bool := decide (l.slot.toNat = n) && decide (gmac (kmk s) l.iv l.head = l.mac)

/-- The valid lines of a slot. -/
def validLine (s : State) (n : Nat) (l : Option CommitLine) : Option CommitLine := l.filter (lineValid s n)

/-- The line in force: the valid one with the higher CSEQ (R411). -/
def lineInForce (s : State) (n : Nat) : Option CommitLine :=
  let x := getStore s n
  match validLine s n x.c0, validLine s n x.c1 with
  | some a, some b => if a.cseq.toNat < b.cseq.toNat then some b else some a
  | some a, none => some a
  | none, b => b

/-- The commit line that does not hold the higher CSEQ is written (R409 step 4, R410). -/
def writeLine (n : Nat) (generation : BitVec 16) (current : BitVec 8) (high : Nat) (s : State) : State :=
  let x := getStore s n
  let cseq := match lineInForce s n with | some l => l.cseq + 1 | none => 1
  let (iv, s1) := drawIv s
  let l0 : CommitLine :=
    { slot := BitVec.ofNat 16 n, cseq := cseq, generation := generation, current := current, high := BitVec.ofNat 48 high, iv := iv, mac := [] }
  let l := { l0 with mac := gmac (kmk s1) iv l0.head }
  let firstHolds := match validLine s n x.c0, validLine s n x.c1 with
    | some a, some b => decide (b.cseq.toNat ≤ a.cseq.toNat)
    | some _, none => true
    | _, _ => false
  setStore n (if firstHolds then { x with c1 := some l } else { x with c0 := some l }) s1

/-- Generation of a slot, with or without a key (R160, R411). -/
def slotGeneration (s : State) (n : Nat) : BitVec 16 :=
  match getSlot s n with
  | some k => k.generation
  | none => match lineInForce s n with | some l => l.generation | none => 0

/-- What an install puts into a slot. -/
structure KeyData where
  proto : Nat
  key256 : Bool
  tx : Bool
  ls : Bool
  integrity : Bool
  limitLog2 : Nat
  startPn : Nat
  param : Word
  replayWin : Nat
  /-- 32 bytes of key, 12 of salt -/
  secret : Bytes

/-- The new copy of an install: the one that CURRENT does not name (R405, R409 step 3). Answers the CURRENT that names it. -/
def writeCopy (n : Nat) (generation : BitVec 16) (d : KeyData) (s : State) : BitVec 8 × State :=
  let x := getStore s n
  let b := match lineInForce s n with | some l => decide (l.current = 1) | none => false
  let (iv, s1) := drawIv s
  let flags := (if d.key256 then 1 else 0) + (if d.tx then 2 else 0) + (if d.ls then 4 else 0) + (if d.integrity then 64 else 0)
  let c0 : KeyCopy :=
    { slot := BitVec.ofNat 16 n, generation := generation, proto := BitVec.ofNat 8 d.proto, flags := BitVec.ofNat 8 flags,
      limitLog2 := BitVec.ofNat 8 d.limitLog2, startPn := BitVec.ofNat 64 d.startPn, param := d.param,
      replayWin := BitVec.ofNat 32 d.replayWin, iv := iv, cipher := [], mac := [] }
  let (ct, tag) := gcmSeal (ksk s1) iv c0.head d.secret
  let c := { c0 with cipher := ct, mac := tag }
  if b then (2, setStore n { x with copyB := some c } s1) else (1, setStore n { x with copyA := some c } s1)

/-- A slot with its key, its count and its number as given (R160, R162, R411). -/
def slotOf (d : KeyData) (generation : BitVec 16) (inv pn high : Nat) : KeySlot :=
  let k0 : KeySlot :=
    { proto := d.proto, key256 := d.key256, tx := d.tx, ls := d.ls, near := false, stopped := false, pinned := false,
      integrity := d.integrity, limitLog2 := d.limitLog2, generation := generation, invocations := inv, pn := pn, param := d.param,
      replayWin := d.replayWin, seen := 0, anySeen := false, high := high, ckpt := false, damaged := false, key := [], salt := [],
      passes := 0, authFail := 0, replayDrop := 0, limitDrop := 0 }
  { k0 with key := slice d.secret 0 (if d.key256 then 32 else 16), salt := slice d.secret 32 12 }

/-- The cached entry of a slot is given up. -/
def uncacheSlot (n : Nat) (s : State) : State :=
  let drop := fun (l : List Nat) => l.filter (fun k => decide (k ≠ n))
  { s with cph := { s.cph with cached := drop s.cph.cached, lostEntries := drop s.cph.lostEntries, jobMisses := drop s.cph.jobMisses } }

/-- The slot takes a new key (R162, R409 step 5). -/
def loadSlot (n : Nat) (k : KeySlot) (s : State) : State :=
  let s1 := setSlot n k (uncacheSlot n s)
  if k.pinned then s1 else touchSlot n s1

/-- The slot becomes empty. -/
def emptySlot (n : Nat) (s : State) : State :=
  let s1 := uncacheSlot n s
  { s1 with cph := { s1.cph with slots := merase s1.cph.slots n } }

/-- The security state has changed: the event and its log entry (R403, R481). -/
def secEvent (s : State) : State := logEvent .secState (toLe 4 s.crt.sec.code ++ toLe 4 s.crt.degCause.toNat) (evCrt 0 s)

/-- A start that has looked for every cause and found none of them leaves DEGRADED (R403). -/
def leaveDegraded (s : State) : State :=
  if s.crt.sec = .degraded && s.crt.degCause = 0 then secEvent { s with crt := { s.crt with sec := .operational } } else s

/-- A cause of DEGRADED is found (R403): 0 engine fenced, 1 patch rejected, 2 slot damaged, 3 self-test. -/
def degrade (cause : Nat) (s : State) : State :=
  let s1 := { s with crt := { s.crt with degCause := s.crt.degCause ||| BitVec.ofNat 4 (2 ^ cause) } }
  if s.crt.sec = .operational then
    secEvent { s1 with crt := { s1.crt with sec := .degraded } }
  else s1

/-- Whether a known-answer test of an engine runs (R154): at start-up before emergency-path ready, and after it has regained power. -/
def katRuns (s : State) (e : Nat) : Bool := isRunning s && enginePowered s e && (!s.pcr.pathReady || engineUntested s e)

/-- ENGINE_KAT_DONE (R154): the known-answer test of an engine ends; an engine that fails is fenced. -/
def execEngineKatDone (engine : Nat) (pass : Bool) (s : State) : Result :=
  if !katRuns s engine then .next s
  else
    let s1 := { s with cph := { s.cph with untested := s.cph.untested &&& ~~~ (1#256 <<< engine) } }
    if pass then .next s1
    else
      let s2 := { s1 with cph := { s1.cph with fenced := mset (fun _ => false) s1.cph.fenced engine true } }
      .next (degrade 0 (evCph 4 s2))

/-- Fields of an install or retire blob (R161). -/
def blobSlot (b : Bytes) : Nat := leAt b 0 2
/-- The transport slot. -/
def blobXport (b : Bytes) : Nat := byteAt b 5 * 256 + byteAt b 6
/-- EXPECT_GEN. -/
def blobExpect (b : Bytes) : BitVec 16 := BitVec.ofNat 16 (leAt b 8 2)

/-- REPLAY_WIN is valid for a protocol and direction (R160). -/
def replayWinOk (proto : Nat) (tx : Bool) (w : Nat) : Bool :=
  if tx then decide (w = 0)
  else match proto with
    | 1 => decide (w ≤ 65535)
    | 2 => decide (w ≤ 65535)
    | 3 => decide (64 ≤ w) && decide (w ≤ 4096)
    | 4 => decide (64 ≤ w) && decide (w ≤ 65535)
    | _ => decide (w = 0)

/-- The fields that an install judges hold valid values (R160, R161, R162); ESP and SRTP have no integrity-only option (R155). -/
def installFieldsOk (b : Bytes) : Bool :=
  let proto := byteAt b 2
  let flags := byteAt b 3
  let lim := byteAt b 4
  decide (1 ≤ proto) && (decide (proto ≤ 9) || (decide (proto ≤ 11) && decide (blobSlot b < 1024)))
    && decide (flags &&& 0xBC = 0) && !(nbit flags 6 && (proto = 3 || proto = 4)) && (decide (lim = 0) || (decide (20 ≤ lim) && decide (lim ≤ 48)))
    && (proto = 1 || proto = 4 || decide (leAt b 12 4 = 0)) && replayWinOk proto (nbit flags 1) (leAt b 24 4)

/-- The reserved bytes of a blob are 0. -/
def blobReservedOk (b : Bytes) : Bool := decide (byteAt b 7 = 0) && decide (leAt b 10 2 = 0) && allZero (slice b 100 28)

/-- The secret of a blob under its transport key: opened bytes, and whether the tag verifies (R161). -/
def openBlob (xport : KeySlot) (b : Bytes) : Bytes × Bool :=
  let (pt, tag) := gcmOpen xport.key (slice b 28 12) (slice b 0 40) (slice b 40 44)
  (pt, decide (tag = slice b 84 16))

/-- The first failing check of R162, none when the operation proceeds. -/
def keyJobRefusal (s : State) (retire : Bool) (b : Bytes) : Option Status :=
  if s.crt.sec = .zeroised then some .zeroised
  else if !blobReservedOk b || (!retire && !installFieldsOk b) then some .malformed
  else match getSlot s (blobXport b) with
    | none => some .malformed
    | some x =>
      if x.proto ≠ 8 || !x.key256 then some .malformed
      else if blobSlot b < 1024 then some .permission
      else if blobExpect b ≠ slotGeneration s (blobSlot b) then some .malformed
      else
        let (pt, good) := openBlob x b
        if !good then some .authFail
        else if !retire && !nbit (byteAt b 3) 0 && !allZero (slice pt 16 16) then some .malformed
        else none

/-- The key data of an install blob. -/
def blobData (s : State) (b : Bytes) : KeyData :=
  let secret := match getSlot s (blobXport b) with | some x => (openBlob x b).1 | none => []
  let flags := byteAt b 3
  { proto := byteAt b 2, key256 := nbit flags 0, tx := nbit flags 1, ls := false, integrity := nbit flags 6,
    limitLog2 := if byteAt b 4 = 0 then 44 else byteAt b 4, startPn := leAt b 16 8, param := BitVec.ofNat 32 (leAt b 12 4),
    replayWin := leAt b 24 4, secret := secret }

/-- Whether a high-water mark is requested for some slot: such a commit is taken first (R410). -/
def ckptPending (s : State) : Bool := s.cph.slots.any (fun e => e.2.ckpt)

/-- The command of the oldest key job completes (key commands come from the PF ring alone, R267). -/
def endKeyJob (st : Status) (s : State) : State :=
  let gone := match s.crt.keyJobs with | j :: _ => j.orphan | [] => true
  let s1 := { s with crt := { s.crt with keyJobs := s.crt.keyJobs.drop 1 } }
  if gone then s1 else endAdmin { ring := false, status := st, count := 0, value := 0 } s1

/-- Crater takes up the next key command (R409, R410): the checks of R162, the record in retention, the new copy. -/
def takeKeyJob (s : State) : State :=
  match s.crt.keyJobs with
  | [] => s
  | j :: rest =>
    if j.taken || s.crt.restarting || ckptPending s then s
    else
      match keyJobRefusal s j.retire j.blob with
      | some st => endKeyJob st s
      | none =>
        let n := blobSlot j.blob
        let op : KeyOp := { slot := BitVec.ofNat 16 n, retire := j.retire, expectGen := blobExpect j.blob }
        let s1 := { s with crt := { s.crt with keyJobs := { j with taken := true } :: rest, ret := { s.crt.ret with keyOp := some op } } }
        if j.retire then s1 else (writeCopy n (blobExpect j.blob + 1) (blobData s1 j.blob) s1).2

/-- A key command is handed to Crater. -/
def queueKeyJob (retire : Bool) (blob : Bytes) (s : State) : State :=
  takeKeyJob { s with crt := { s.crt with keyJobs := s.crt.keyJobs ++ [{ retire := retire, blob := blob, taken := false, orphan := false }] } }

/-- The commit point of an install or retire, and what follows it (R409 steps 4 and 5). A CKPT pending for the slot is discarded. -/
def commitKeyJob (j : KeyJob) (s : State) : State :=
  let n := blobSlot j.blob
  let gen := blobExpect j.blob + 1
  let other := match lineInForce s n with | some l => if l.current = 1 then 2 else 1 | none => 1
  let s1 := writeLine n gen (if j.retire then 0 else other) (2 ^ 24) s
  let s2 := incr cCRT_KEY_COMMITS { s1 with crt := { s1.crt with ret := { s1.crt.ret with keyOp := none } } }
  let d := blobData s2 j.blob
  let s3 := if j.retire then emptySlot n s2 else loadSlot n (slotOf d gen 0 d.startPn (2 ^ 24)) s2
  takeKeyJob (endKeyJob .ok s3)

/-- KEY_COMMIT_DONE (R409): the commit line of the key command under way is written. -/
def execKeyCommitDone (s : State) : Result :=
  match s.crt.keyJobs with
  | j :: _ => if j.taken && !s.crt.restarting then .next (commitKeyJob j s) else .next (takeKeyJob s)
  | [] => .next s

/-- CKPT_COMMIT (R167, R410): the new high-water mark of a slot is committed; commits are made one at a time. -/
def execCkptCommit (slot : Nat) (s : State) : Result :=
  match getSlot s slot with
  | none => .next s
  | some k =>
    if !k.ckpt || s.crt.restarting || s.crt.keyJobs.any (fun j => j.taken) then .next s
    else
      let cur := match lineInForce s slot with | some l => l.current | none => 0
      let s1 := writeLine slot k.generation cur (k.high + 2 ^ 24) s
      let s2 := setSlot slot { k with high := k.high + 2 ^ 24, ckpt := false } s1
      .next (takeKeyJob (incr cCRT_CKPT_COMMITS s2))

/-- The copy that a line names, when its MAC verifies and its generation is the line's (R411). -/
def namedCopy (s : State) (n : Nat) (l : CommitLine) : Option KeyData :=
  let x := getStore s n
  let c := if l.current = 1 then x.copyA else if l.current = 2 then x.copyB else none
  match c with
  | none => none
  | some c =>
    let (pt, tag) := gcmOpen (ksk s) c.iv c.head c.cipher
    let fl := c.flags.toNat
    if tag ≠ c.mac || c.generation ≠ l.generation then none
    else some { proto := c.proto.toNat, key256 := nbit fl 0, tx := nbit fl 1, ls := nbit fl 2, integrity := nbit fl 6,
                limitLog2 := c.limitLog2.toNat, startPn := c.startPn.toNat, param := c.param, replayWin := c.replayWin.toNat, secret := pt }

/-- A slot that is found damaged (R411). -/
def damagedSlot (n : Nat) (s : State) : State :=
  signalOnce rCRT_EVENT rCRT_EVENT_MASK (fun s => degrade 2 (logEvent .slotDamaged (toLe 4 n) (evCrt 1 s))) (incr cCRT_SLOTS_DAMAGED (emptySlot n s))

/-- A slot is recovered at a start (R411, R167): its count resumes from H, and with it a number that the device chooses. The thresholds
of R166 are judged when STORE_READY is set. -/
def recoverSlot (n : Nat) (s : State) : State :=
  match lineInForce s n with
  | none => emptySlot n s
  | some l =>
    if l.current = 0 then emptySlot n s
    else match namedCopy s n l with
      | none => damagedSlot n s
      | some d =>
        let h := l.high.toNat
        let k0 := slotOf d l.generation (min h (2 ^ 48 - 1)) d.startPn h
        let k1 := { k0 with pn := (if ownNumbers k0 then d.startPn + h else d.startPn), pinned := d.ls }
        requestCkpt n (setSlot n k1 (uncacheSlot n s))

/-- The slots that the key store names. -/
def storeSlots (s : State) : List Nat := s.crt.store.map Prod.fst

/-- Every LS slot that holds a key is loaded and pinned (R164, R400 step 6). -/
def recoverLsSlots (s : State) : State := forEach (fun n s => if n < 1024 then recoverSlot n s else s) (storeSlots s) s

/-- Every other slot is recovered (R411); none in Refuge mode, where only LS slots are used. -/
def recoverStore (s : State) : State := forEach (fun n s => if n < 1024 then s else recoverSlot n s) (storeSlots s) s

end Sys2Proof.Machine
end

