-- ==== Sys2Proof/Machine/Sideband.lean ====
section
/-! DEFINITION. The declaration sources, the sideband tree and the fields of the markers (R41, R53, R354, R366, R371). -/

namespace Sys2Proof.Machine

/-- Whether an originator that arrived through a path is active (R53). -/
def pathActive (s : State) (p : EmsgPath → Bool) : Bool := s.alp.active.any (fun a => p a.path)

/-- An EMSG path on loop `n`. -/
def onLoop (n : Nat) : EmsgPath → Bool
  | .loop k => k = n
  | .eth => false
  | .cascade _ => false

/-- The Ethernet path. -/
def onEth : EmsgPath → Bool
  | .eth => true
  | .loop _ => false
  | .cascade _ => false

/-- A Cascade path. -/
def onCascade : EmsgPath → Bool
  | .cascade _ => true
  | .loop _ => false
  | .eth => false

/-- A declaration other than CAS is active: the local-source flag of R67. -/
def localSource (s : State) : Bool :=
  s.alp.srcInput || s.alp.srcFault || pathActive s (fun p => !onCascade p)

/-- Root of the sideband tree: the lowest reachable Cascade ID (R366). -/
def treeRoot (s : State) : Nat :=
  ((List.range 64).find? (fun d => d = s.ident.cid || isReachable s d)).getD s.ident.cid

/-- Parent of a device: its lowest-ID neighbour on a shortest path to the root (R366). -/
def treeParent (s : State) (d : Nat) : Option Nat :=
  let firsts := (shortestPaths s d (treeRoot s)).filterMap (fun p => (p.head?).bind (edgeFrom s d))
  firsts.foldl (fun b x => match b with | some y => some (min x y) | none => some x) none

/-- Relation of this device to the peer of a link: 0 none, 1 this device is the peer's parent, 2 its child (R354, FLAGS.REL). -/
def relTo (s : State) (g : Nat) : Nat :=
  let l := getLink s g
  if !linkCarries l || !l.peerValid then 0
  else if treeParent s l.peer = some s.ident.cid then 1
  else if treeParent s s.ident.cid = some l.peer then 2
  else 0

/-- LOCAL_MAP of the sideband in effect on a link. -/
def mapFrom (s : State) (g : Nat) : Nat :=
  let l := getLink s g
  match l.sideband with
  | some b => if linkCarries l then b.map else 0
  | none => 0

/-- This device's own bit. -/
def ownBit (s : State) : Nat := if localSource s then 2 ^ s.ident.cid else 0

/-- The maps received on the tree links that satisfy `p`, ORed. -/
def treeMaps (s : State) (p : Nat → Bool) : Nat :=
  (List.range 4).foldl (fun m g => if relTo s g ≠ 0 && p g then m ||| mapFrom s g else m) 0

/-- LOCAL_MAP that a link sends (R371). -/
def mapTo (s : State) (g : Nat) : Nat :=
  match relTo s g with
  | 2 => ownBit s ||| treeMaps s (fun k => relTo s k = 1)
  | 1 => ownBit s ||| treeMaps s (fun k => k ≠ g)
  | _ => ownBit s

/-- The view of R371. -/
def viewMap (s : State) : Nat := ownBit s ||| treeMaps s (fun _ => true)

/-- CAS_MAP: the view with the held bits of R372. -/
def casMap (s : State) : Nat := s.cas.mapHold.foldl (fun m e => m ||| 2 ^ e.1) s.cas.view

/-- ALP_SOURCES.CAS (R68, R371). -/
def casSource (s : State) : Bool :=
  let m := casMap s
  decide (m - (m &&& 2 ^ s.ident.cid) ≠ 0) || decide (s.cas.heldMap ≠ 0) || pathActive s onCascade

/-- ALP_SOURCES. -/
def sourcesWord (s : State) : Word :=
  putBit 0 s.alp.srcInput ||| putBit 1 s.alp.srcFault ||| putBit 2 (pathActive s (onLoop 0)) ||| putBit 3 (pathActive s (onLoop 1))
    ||| putBit 4 (pathActive s (onLoop 2)) ||| putBit 5 (pathActive s (onLoop 3)) ||| putBit 6 (pathActive s onEth)
    ||| putBit 7 (casSource s) ||| putFld 16 9 (s.alp.active.map ActiveOrigin.origin).eraseDups.length

/-- Any declaration is active (R41). -/
def declared (s : State) : Bool := localSource s || casSource s

/-- ACK field of a channel: the last SEQ accepted in order, 4,095 before the first, with its NAK flag (R354, R362). -/
def ackField (c : LinkChannel) : Nat := (c.expected + 4095) % 4096 + (if c.nak then 4096 else 0)

/-- The fields of the marker that a link sends: SRC, FLAGS, DRILL_GEN, STOP_GEN, ACK0, LOCAL_MAP, ACK1 (R354). -/
def markerFields (s : State) (g : Nat) : List Nat :=
  let l := getLink s g
  [s.ident.cid + 64 * (match s.alp.state with | .normal => 0 | .drill => 1 | .emergency => 2 | .holdover => 3),
   (if localSource s then 1 else 0) + 2 * relTo s g, s.cas.drillGen, s.cas.stopGen, ackField l.ch0, mapTo s g, ackField l.ch1]

/-- The markers of the links that are not DOWN, for those whose fields an operation has changed: a marker leaves in every slot (R353),
and the trace shows the first one of each content. -/
def withMarkers (f : State → State) (s : State) : State :=
  let t := f s
  forEach (fun g t => if (getLink t g).state ≠ .down && markerFields t g ≠ markerFields s g then emit (.gondolaMarker g (markerFields t g)) t else t)
    (List.range 4) t

end Sys2Proof.Machine
end

