-- ==== Sys2Proof/Machine/Alarm.lean ====
section
/-! DEFINITION. The alarm state machine and the checks of emergency messages (02_emergency_precedence.md). -/

namespace Sys2Proof.Machine

/-- The state with Crater retention replaced. -/
def setRet (r : Retention) (s : State) : State := { s with crt := { s.crt with ret := r } }

/-- An ALARM entry of the log (R481): new state, ALP_SOURCES, ALP_ENTRY_LAT. -/
def logAlarm (s : State) : State :=
  logEvent .alarm (toLe 4 s.alp.state.code ++ toLe 4 (sourcesWord s).toNat ++ toLe 4 (getReg s rALP_ENTRY_LAT).toNat) s

/-- The holdover flag of Crater retention (R70, R399). -/
def setHoldFlag (b : Bool) (s : State) : State := setRet { s.crt.ret with holdover := b } s

/-- Crater drives EMERGENCY (R42): the latency of the entry runs from `t0` (R58). On re-entry from HOLDOVER the actions in force are
not repeated, and ENTRY_DONE stays as it is (R45). A P3 entry under way is abandoned (R463). -/
def driveEmergency (t0 : Nat) (s0 : State) : State :=
  let s := if s0.pcr.target = some .p3 then evPcr 4 { s0 with pcr := { s0.pcr with target := none } } else s0
  let done := s.alp.entryDone && s.alp.state = .holdover
  setHoldFlag false
    { s with alp := { s.alp with state := .emergency, entryDone := done, entryOwed := true, entryFrom := t0, holdEnd := none, drillEnd := none } }

/-- Crater drives HOLDOVER: the timer loads 60,000 ms (R42, R43). -/
def driveHoldover (s : State) : State :=
  let s1 := { s with alp := { s.alp with state := .holdover, holdEnd := some (s.now + ms 60000), drillEnd := none } }
  logAlarm (evAlp 1 (setHoldFlag true s1))

/-- Crater drives NORMAL (R42): ALP_EVENT.NORMAL and the bits of `why` are set in one clock. -/
def driveNormal (why : Word) (s : State) : State :=
  let s1 := { s with alp := { s.alp with state := .normal, entryDone := false, entryOwed := false, holdEnd := none, drillEnd := none } }
  logAlarm (raiseBits rALP_EVENT rALP_EVENT_MASK (putBit 2 true ||| why) (setHoldFlag false s1))

/-- ALP_DRILL_CTL.LIMIT_S in ns. -/
def drillLimit (s : State) : Nat := ms (1000 * regFld s rALP_DRILL_CTL 16 12)

/-- Crater drives DRILL: the limit runs from now (R66). Its end is fixed here: a later write of LIMIT_S does not move the end of the drill
that runs (DESIGN CHOICE, the spec is silent; log entry 20). -/
def driveDrill (s : State) : State :=
  evAlp 3 { s with alp := { s.alp with state := .drill, entryDone := false, entryOwed := true, entryFrom := s.now,
                                       drillEnd := some (s.now + drillLimit s) } }

/-- Whether Crater runs the alarm state machine: from emergency-path ready on, and not during its restart (R42, R59, R70). -/
def alarmRuns (s : State) : Bool := s.alp.pathReady && !s.crt.restarting

/-- The device time from which the latency of an entry runs when it answers the declarations that are active (R58): the earliest of the
first sample of the input pair and the last bits of the messages in the set; the present where only the Cascade declares. -/
def declaredFrom (s : State) : Nat :=
  let pair := if s.alp.srcInput || s.alp.srcFault then [s.alp.inSince] else []
  match pair ++ s.alp.active.map ActiveOrigin.rx with
  | [] => s.now
  | t :: ts => ts.foldl min t

/-- The state follows the declarations (R42): the latency of an entry runs from `t0`. -/
def settleAlarm (t0 : Nat) (s : State) : State :=
  if !alarmRuns s then s
  else
    match s.alp.state, declared s with
    | .normal, true => driveEmergency t0 s
    | .drill, true => driveEmergency t0 s
    | .holdover, true => driveEmergency t0 s
    | .emergency, false => driveHoldover s
    | .normal, false => s
    | .drill, false => s
    | .holdover, false => s
    | .emergency, true => s

/-- One device whose bit stands in CAS_MAP and that is not reachable is held (R68, R372). -/
def holdLost (k : Nat) (s : State) : State :=
  if k ≠ s.ident.cid && nbit (casMap s) k && !isReachable s k && !nbit s.cas.heldMap k then
    evAlp 9 { s with cas := { s.cas with heldMap := s.cas.heldMap ||| 2 ^ k } }
  else s

/-- The view of R371 afresh: a bit that leaves it is held for 20 µs, and the bits of lost devices are held in CAS_HELD (R372). -/
def refreshView (s : State) : State :=
  let new := viewMap s
  let old := s.cas.view
  let holds := (List.range 64).foldl (fun m k =>
    if nbit new k then merase m k
    else if nbit old k then minsert m k (s.now + us 20) else m) s.cas.mapHold
  forEach holdLost (List.range 64) { s with cas := { s.cas with view := new, mapHold := holds } }

/-- The sources have changed: the view, then the state (R42, R371). -/
def sourcesChanged (t0 : Nat) (s : State) : State :=
  signalOnce rALP_EVENT rALP_EVENT_MASK (fun s => settleAlarm t0 (refreshView s)) s

/-- The next value of a drill generation (R373). -/
def nextGen (g : Nat) : Nat := (g + 1) % 256

/-- A drill request (R65): accepted in NORMAL; refused in EMERGENCY and HOLDOVER. A drill that starts here takes a new generation
(R373). -/
def requestDrill (own : Bool) (s : State) : State :=
  if !alarmRuns s then s
  else
    match s.alp.state with
    | .normal => driveDrill (if own then { s with cas := { s.cas with drillGen := nextGen s.cas.drillGen } } else s)
    | .drill => s
    | .emergency => evAlp 6 s
    | .holdover => evAlp 6 s

/-- A drill stop (R66). -/
def stopDrill (own : Bool) (s : State) : State :=
  if !alarmRuns s || s.alp.state ≠ .drill then s
  else driveNormal (putBit 4 true) (if own then { s with cas := { s.cas with stopGen := nextGen s.cas.stopGen } } else s)

/-- DRILL_CTL_START (R65). Crater has no use for the register. -/
def execDrillCtlStart (p : Party) (s : State) : Result := .next (if isCrater p then s else withMarkers (requestDrill true) s)

/-- DRILL_CTL_STOP (R66). -/
def execDrillCtlStop (p : Party) (s : State) : Result := .next (if isCrater p then s else withMarkers (stopDrill true) s)

/-- DRILL_TIMEOUT (R66): no sooner than LIMIT_S after the drill was driven. -/
def execDrillTimeout (s : State) : Result :=
  match s.alp.drillEnd with
  | some t => .next (if alarmRuns s && s.alp.state = .drill then withMarkers (driveNormal (putBit 5 true)) (reachTime t s) else s)
  | none => .next s

/-- HOLDOVER_EXPIRY (R43): no sooner than 60.000 s after the last declaration cleared. -/
def execHoldoverExpiry (s : State) : Result :=
  match s.alp.holdEnd with
  | some t => .next (if alarmRuns s && s.alp.state = .holdover then withMarkers (driveNormal 0) (reachTime t s) else s)
  | none => .next s

/-- A combination of the input pair is accepted (R46–R49); `since` is the device time of its first sample. -/
def acceptInputs (a b : Bool) (since : Nat) (s : State) : State :=
  let s0 := { s with alp := { s.alp with inA := a, inB := b, inSince := since } }
  match a, b with
  | false, true => sourcesChanged s.now { s0 with alp := { s0.alp with inFault := false, srcInput := false, srcFault := false } }
  | true, false => sourcesChanged since { s0 with alp := { s0.alp with inFault := false, srcInput := true, srcFault := false } }
  | _, _ =>
    signalOnce rALP_EVENT rALP_EVENT_MASK (fun s => sourcesChanged since (evAlp 7 s))
      { s0 with alp := { s0.alp with inFault := true, srcFault := s.alp.srcFault || s.alp.faultDeclares } }

/-- INPUT_COMBINATION_ACCEPT (R47–R49): a combination held for 50 µs, other than the one accepted last. VAUX33 must be good (R46). -/
def execInputCombinationAccept (a b : Bool) (since : Nat) (s : State) : Result :=
  if !s.pcr.vaux33 || (a = s.alp.inA && b = s.alp.inB) then .next s
  else .next (withMarkers (acceptInputs a b since) (reachTime (since + us 50) s))

/-- Whether every subsystem has reached the level driven. -/
def levelsArrived (s : State) : Bool := allSubsystems.all (fun b => levelAt s b = s.alp.state)

/-- The auto-plays that an entry calls for start AUTO_DELAY_MS after ENTRY_DONE (R198, R201). -/
def armAutoPlay (s : State) : State :=
  let f := fun (_ : Nat) (c : PlayChannel) => match c.autoDue, c.autoAt with
    | some _, none => { c with autoAt := some (s.now + ms c.autoDelay) }
    | _, _ => c
  { s with str := { s.str with chans := mmap f s.str.chans } }

/-- ENTRY_DONE (R56, R58): every entry action is complete. The latency and the count are those of an entry to the Emergency schedule.
While Crater restarts no entry action runs, and none completes (R70). -/
def execEntryDone (s : State) : Result :=
  if !s.alp.entryOwed || s.alp.state = .normal || !levelsArrived s || s.crt.restarting then .next s
  else
    let s1 := setReg64 rALP_ENTRY_TIME (BitVec.ofNat 64 s.now)
      { s with alp := { s.alp with entryDone := true, entryOwed := false } }
    let s2 := if s.alp.state = .drill then s1
      else incr cALP_ENTRY_COUNT (setReg rALP_ENTRY_LAT (BitVec.ofNat 32 (min (s.now - s.alp.entryFrom) 4294967295)) s1)
    .next (armAutoPlay (logAlarm (evAlp 0 s2)))

/-- ORIGIN of a message (R50). -/
def emsgOrigin (m : Bytes) : DWord := BitVec.ofNat 64 (beAt m 4 8)
/-- SEQ[31:0]. -/
def emsgSeq (m : Bytes) : Word := BitVec.ofNat 32 (beAt m 16 4)
/-- KIND. -/
def emsgKind (m : Bytes) : Nat := byteAt m 3

/-- MAGIC, VERSION, KIND, SEQ[63:32] and the reserved bytes are correct (R50). -/
def emsgFormat (m : Bytes) : Bool :=
  m.length = 64 && beAt m 0 2 = 0xE5A1 && byteAt m 2 = 1 && decide (1 ≤ emsgKind m) && decide (emsgKind m ≤ 4)
    && beAt m 12 4 = 0 && allZero (slice m 28 20)

/-- The authority that KIND needs (R52). -/
def mayIssueKind (o : Originator) (kind : Nat) : Bool :=
  if kind = 1 then o.mayDeclare else if kind = 2 then o.mayClear else o.mayDrill

/-- Last accepted SEQ of an originator; none before the first. -/
def lastSeqOf (l : List LastSeq) (origin : DWord) : Option Word := (l.find? (fun e => e.origin = origin)).map LastSeq.seq

/-- The list with an originator's last SEQ replaced. -/
def setLastSeq (l : List LastSeq) (origin : DWord) (q : Word) : List LastSeq :=
  if l.any (fun e => e.origin = origin) then l.map (fun e => if e.origin = origin then { e with seq := q } else e)
  else l ++ [{ origin := origin, seq := q }]

/-- The 256-bit key of a slot, when it holds one. -/
def slotKey (s : State) (slot : Nat) : Option Bytes :=
  match mfind s.cph.slots slot with
  | some k => if k.key256 then some k.key else none
  | none => none

/-- Whether a 64-byte message carries the GMAC of its first 48 bytes under a slot, IV ORIGIN ‖ SEQ[31:0] (R51). -/
def tagGood (s : State) (slot : Nat) (m : Bytes) : Bool :=
  match slotKey s slot with
  | some key => slice m 48 16 = gmac key (slice m 4 8 ++ slice m 16 4) (slice m 0 48)
  | none => false

/-- The reason for which a message is rejected (R52, ALP_LAST_REJECT), checked in this order: zeroised, format, originator, authority,
SEQ, tag. -/
def emsgReject (s : State) (m : Bytes) : Option Nat :=
  if s.crt.sec = .zeroised then some 6
  else if !emsgFormat m then some 5
  else
    match s.alp.originators.find? (fun o => o.origin = emsgOrigin m) with
    | none => some 2
    | some o =>
      if !mayIssueKind o (emsgKind m) then some 3
      else if (match lastSeqOf s.crt.ret.emsgSeq (emsgOrigin m) with | some q => decide (emsgSeq m ≤ q) | none => false) then some 4
      else if !tagGood s s.alp.emsgSlot m then some 1
      else none

/-- PATH of ALP_LAST_REJECT. -/
def pathCode : EmsgPath → Nat
  | .loop n => n
  | .eth => 4
  | .cascade _ => 5

/-- A rejected message (R54). -/
def rejectEmsg (path : EmsgPath) (reason : Nat) (s : State) : State :=
  evAlp 8 (setReg rALP_LAST_REJECT (putFld 0 4 reason ||| putFld 4 4 (pathCode path)) (incr cALP_MSG_REJECT s))

/-- The state with the active-originator set replaced, in Crater retention too (R53, R399). -/
def setActive (l : List ActiveOrigin) (s : State) : State :=
  setRet { s.crt.ret with active := l } { s with alp := { s.alp with active := l } }

/-- The device that a serial names, among those known from TOPO. -/
def deviceOfSerial (s : State) (n : DWord) : Option Nat := (s.cas.topo.find? (fun e => e.2.serial = n)).map Prod.fst

/-- A CLEAR removes its originator, and lets go of a lost device of that serial (R53, R68, R372): its held bit, and its bit among those that
stay in force for 20 µs. -/
def clearOrigin (origin : DWord) (s : State) : State :=
  let s1 := setActive (s.alp.active.filter (fun a => a.origin ≠ origin)) s
  match deviceOfSerial s origin with
  | some k =>
    let hold := if isReachable s1 k then s1.cas.mapHold else merase s1.cas.mapHold k
    { s1 with cas := { s1.cas with heldMap := if nbit s1.cas.heldMap k then s1.cas.heldMap - 2 ^ k else s1.cas.heldMap, mapHold := hold } }
  | none => s1

/-- SEQ is kept in retention and mirrored in NVM (R52, R399). -/
def keepSeq (origin : DWord) (q : Word) (s : State) : State :=
  let r := setLastSeq s.crt.ret.emsgSeq origin q
  { s with crt := { s.crt with ret := { s.crt.ret with emsgSeq := r }, mirrorEmsg := r } }

/-- An EMSG entry of the log (R481): ORIGIN, SEQ, KIND, path. -/
def logEmsg (path : EmsgPath) (m : Bytes) (s : State) : State :=
  logEvent .emsg (toLe 8 (emsgOrigin m).toNat ++ toLe 8 (emsgSeq m).toNat ++ toLe 1 (emsgKind m) ++ toLe 1 (pathCode path)) s

/-- What an accepted message does (R53, R55); `rx` is the device time of its last bit. EMERGENCY is driven no sooner than 0.5 µs after the
last bit of a DECLARE (R57). -/
def applyEmsg (path : EmsgPath) (m : Bytes) (rx : Nat) (s : State) : State :=
  let s1 := logEmsg path m (incr cALP_MSG_ACCEPT (keepSeq (emsgOrigin m) (emsgSeq m) s))
  match emsgKind m with
  | 1 =>
    let e : ActiveOrigin := { origin := emsgOrigin m, path := path, rx := rx }
    let known := s1.alp.active.any (fun a => decide (a.origin = e.origin) && decide (a.path = e.path))
    sourcesChanged rx (reachTime (rx + 500) (setActive (if known then s1.alp.active else s1.alp.active ++ [e]) s1))
  | 2 => sourcesChanged rx (clearOrigin (emsgOrigin m) s1)
  | 3 => requestDrill true s1
  | _ => stopDrill true s1

end Sys2Proof.Machine
end

