-- ==== Sys2Proof/Machine/TimeBase.lean ====
section
/-! DEFINITION. The time base, the event log and telemetry (R476–R483). -/

namespace Sys2Proof.Machine

/-- The PF, which alone writes TIM_CFG, TIM_PTP_RATE and TIM_PTP_STEP; Crater may write every register (R499). -/
def isPf (p : Party) : Bool := match p with | .service _ => false | _ => true

/-- Source of an encoding. -/
def ptpSource : Nat → PtpSource
  | 1 => .ptp
  | 2 => .loop
  | _ => .free

/-- TIM_PTP_RATE as a signed number. -/
def rateReg (s : State) : Int := (getReg s rTIM_PTP_RATE).toInt

/-- A write of TIM_CFG (R477): SRC 3 is reserved, and SRC then stays as it is. -/
def writeTimCfg (v : Word) (s : State) : State :=
  let src := if fld v 0 2 = 3 then regFld s rTIM_CFG 0 2 else fld v 0 2
  let s1 := settlePtp (setReg rTIM_CFG (putFld 0 2 src ||| putFld 4 2 (fld v 4 2)) s)
  let new := ptpSource src
  if new = s.tim.src then s1
  else
    let rate := match new with | .free => 0 | .ptp => rateReg s1 | .loop => s1.tim.rate
    { s1 with tim := { s1.tim with src := new, rate := rate, locked := false, freewheel := false, heldFrom := none, lastSweep := s1.now } }

/-- TIM_CFG_WRITE (R477). -/
def execTimCfgWrite (p : Party) (v : Word) (s : State) : Result := .next (if isPf p then writeTimCfg v s else s)

/-- LOCKED is set once PTP time has held for 1 s in LOOP mode (R478). -/
def settleLock (s : State) : State :=
  match s.tim.heldFrom with
  | some t =>
    if s.tim.src = .loop && !s.tim.locked && !s.tim.freewheel && t + ms 1000 ≤ s.now then
      evTim 0 { s with tim := { s.tim with locked := true } }
    else s
  | none => s

/-- A write that LOOP mode ignores (R478). -/
def timWriteError (s : State) : State := settleLock { s with tim := { s.tim with wrErr := true } }

/-- A write of TIM_PTP_RATE (R479). -/
def writePtpRate (v : Word) (s : State) : State :=
  if s.tim.src = .loop then timWriteError s
  else
    let s1 := settlePtp (setReg rTIM_PTP_RATE v s)
    if s1.tim.src = .ptp then { s1 with tim := { s1.tim with rate := v.toInt } } else s1

/-- PTP_RATE_WRITE (R479). -/
def execPtpRateWrite (p : Party) (v : Word) (s : State) : Result := .next (if isPf p then writePtpRate v s else s)

/-- Whether some loop port sources cycles. -/
def anySourcing (s : State) : Bool := s.loops.ports.any (fun e => e.2.on && e.2.sourcing)

/-- PTP time moves by `d` ns, and a slew under way ends. -/
def stepPtp (d : Int) (s : State) : State :=
  let s1 := settlePtp s
  { s1 with tim := { s1.tim with ptpNs := s1.tim.ptpNs + d * ptpUnit, slew := 0, slewEnd := none } }

/-- A write of TIM_PTP_STEP_HI (R479): at once, or as a slew of 1,000 ppm while a loop is sourced and the step is at most 1 ms. -/
def writePtpStep (hi : Word) (s : State) : State :=
  let s0 := setReg rTIM_PTP_STEP_HI hi s
  let d := (join64 hi (getReg s rTIM_PTP_STEP_LO)).toInt
  if s.tim.src = .loop then timWriteError s
  else if anySourcing s && d.natAbs ≤ ms 1 then
    let s1 := settlePtp s0
    incr cTIM_TIME_STEPS { s1 with tim := { s1.tim with slew := d * ptpUnit, slewEnd := some (s1.now + 1000 * d.natAbs) } }
  else incr cTIM_TIME_STEPS (stepPtp d s0)

/-- PTP_STEP_WRITE (R479). -/
def execPtpStepWrite (p : Party) (hi : Word) (s : State) : Result := .next (if isPf p then writePtpStep hi s else s)

/-- SLEW_END (R479). -/
def execSlewEnd (s : State) : Result :=
  match s.tim.slewEnd with
  | none => .next s
  | some t =>
    let s1 := settlePtp (reachTime t s)
    .next { s1 with tim := { s1.tim with slew := 0, slewEnd := none } }

/-- A read of TIM_PTP_NS, which latches the seconds for the reader's view (R477, R500). -/
def readPtpNs (p : Party) (s : State) : Word × State :=
  let sec := ptpSeconds s
  let l1 := mset (fun _ => 0) s.latch (viewKey p rTIM_PTP_SEC_LO) (BitVec.ofNat 32 sec)
  let l2 := mset (fun _ => 0) l1 (viewKey p rTIM_PTP_SEC_HI) (BitVec.ofNat 32 (sec / 2 ^ 32))
  (BitVec.ofNat 32 (ptpNanos s), { s with latch := l2 })

/-- PTP_NS_READ (R477). -/
def execPtpNsRead (p : Party) (s : State) : Result :=
  let (v, s1) := readPtpNs p s
  .next (returnValue p rTIM_PTP_NS v s1)

/-- Cycle length of a loop port in ns (R328). -/
def cycleNs (s : State) (lp : Nat) : Nat := 125000 * 2 ^ regFld s (rLOOP_CFG lp) 2 2

/-- FREEWHEEL_TIMEOUT (R478): ten cycles without a valid sweep in LOOP mode. -/
def execFreewheelTimeout (s : State) : Result :=
  if s.tim.src ≠ .loop || s.tim.freewheel then .next s
  else
    let s1 := settleLock (reachTime (s.tim.lastSweep + 10 * cycleNs s (regFld s rTIM_CFG 4 2)) s)
    .next (evTim 1 { s1 with tim := { s1.tim with freewheel := true, locked := false, heldFrom := none } })

/-- A valid sweep gives loop time in LOOP mode (R478): `t` in units of 2^-32 ns at the present. The clock follows without a step when it
freewheels within 1 µs, with one step otherwise. -/
def followLoop (t : Int) (s : State) : State :=
  if s.tim.src ≠ .loop then s
  else
    let jump := decide (1000 * ptpUnit < (t - ptpNow s).natAbs)
    let tim := { s.tim with ptpNs := t, ptpAt := s.now, slew := 0, slewEnd := none, freewheel := false, lastSweep := s.now }
    let held := if jump || s.tim.freewheel then some s.now else some (s.tim.heldFrom.getD s.now)
    let s1 := { s with tim := { tim with heldFrom := held, locked := s.tim.locked && !jump && !s.tim.freewheel } }
    settleLock (if jump then incr cTIM_TIME_STEPS s1 else s1)

/-- An entry with PINNED and its CRC, as it lies in the log (R481). -/
def logEntry (e : Bytes) (pinned : Bool) : Bytes :=
  let f := byteAt e 3
  let b := patch (slice e 0 60) 3 [BitVec.ofNat 8 (if pinned then f ||| 1 else f)]
  b ++ toLe 4 (crc32c b).toNat

/-- The oldest queued entry is written to NVM (R480, R482). -/
def writeLogEntry (s : State) : State :=
  match s.tim.queue with
  | [] => s
  | e :: rest =>
    let pinned := nbit (byteAt e 3) 1 && decide (s.tim.pinnedUsed < 4096)
    let slot := if pinned then s.tim.pinnedUsed else s.tim.nextGeneral
    let next := if pinned then s.tim.nextGeneral else if s.tim.nextGeneral = 65535 then 4096 else s.tim.nextGeneral + 1
    let used := if pinned then s.tim.pinnedUsed + 1 else s.tim.pinnedUsed
    let tim := { s.tim with queue := rest, log := minsert s.tim.log slot (logEntry e pinned), nextGeneral := next, pinnedUsed := used }
    let s1 := incr cTIM_LOG_ENTRIES { s with tim := tim }
    if pinned && used = 4096 then evTim 3 s1 else s1

/-- EVENT_LOG_WRITE (R480, R482): the oldest queued entry becomes durable. -/
def execEventLogWrite (s : State) : Result := .next (writeLogEntry s)

/-- A log entry that passes its CRC. -/
def logValid (e : Bytes) : Bool := decide (e.length = 64) && decide (leAt e 60 4 = (crc32c (slice e 0 60)).toNat)

/-- A write of TIM_LOG_SEL loads an entry into the data registers of the writer's view (R485, R500). -/
def loadLogEntry (p : Party) (index : Nat) (s : State) : State :=
  let i := index % 65536
  let e := (mfind s.tim.log i).getD []
  let s1 := setViewWords p (rTIM_LOG_DATA 0) (bytesToWords 16 (slice e 0 64)) (setView p rTIM_LOG_SEL (putFld 0 16 i) s)
  setView p rTIM_LOG_VALID (putBit 0 (logValid e)) s1

/-- LOG_ENTRY_LOAD (R485). -/
def execLogEntryLoad (p : Party) (index : Nat) (s : State) : Result := .next (loadLogEntry p index s)

/-- TELEMETRY_SAMPLE (R483). -/
def execTelemetrySample (r : TelemetryReading) (s : State) : Result := .next { s with tim := { s.tim with reading := r } }

/-- A signed number of 16 bits, little-endian. -/
def le16s (x : Int) : Bytes := toLe 2 (BitVec.ofInt 16 x).toNat

/-- A snapshot (R483). -/
def snapshotBytes (s : State) : Bytes :=
  let r := s.tim.reading
  toLe 8 s.now ++ ((List.range 8).flatMap (fun i => le16s (r.junctions.getD i 0))) ++ toLe 2 r.vin12mV ++ toLe 2 r.vin12cA
    ++ toLe 2 r.vaux33mV ++ toLe 2 r.vaux33mA ++ toLe 4 r.powerMw ++ toLe 1 (statesByte s) ++ [0, 0, 0] ++ toLe 8 s.tim.snapshots
    ++ List.replicate 16 0

/-- TELEMETRY_SNAPSHOT (R483): a snapshot is due; none is written in EMERGENCY and HOLDOVER (R60). -/
def execTelemetrySnapshot (s : State) : Result :=
  if regFld s rTIM_TELEM_CFG 0 1 = 0 then .next s
  else
    let t := max s.now s.tim.snapDue
    let s1 := { reachTime t s with tim := { s.tim with snapDue := t + ms (regFld s rTIM_TELEM_CFG 16 10) } }
    if !backgroundRuns s then .next s1
    else
      let size := 2 ^ regFld s rTIM_TELEM_CFG 8 4
      let prod := getReg s1 rTIM_TELEM_PROD
      if size ≤ (prod - getReg s1 rTIM_TELEM_CONS).toNat then .next (evTim 4 (incr cTIM_TELEM_LOST s1))
      else
        let base := (getReg64 s1 rTIM_TELEM_BASE_LO).toNat / 64 * 64
        let s2 := svcStore none (base + 64 * (prod.toNat % size)) (snapshotBytes s1) s1
        let s3 := setReg rTIM_TELEM_PROD (prod + 1) { s2 with tim := { s2.tim with snapshots := s2.tim.snapshots + 1 } }
        .next (incr cTIM_TELEM_SNAPSHOTS s3)

/-- DEVICE_TIME_SECOND (R281): REQ36 is asserted at each whole second of device time. -/
def execDeviceTimeSecond (s : State) : Result :=
  let n := s.tim.seconds + 1
  let s1 := reachTime (ms 1000 * n) s
  .next (assertLine 36 { s1 with tim := { s1.tim with seconds := n } })

end Sys2Proof.Machine
end

