-- ==== Sys2Proof/Machine/Loop.lean ====
section
/-! DEFINITION. The Drevin loop ports: sides and breaks, the sweep frame, the token phase and its frames, and the node tables
(14_drevin_loops.md). -/

namespace Sys2Proof.Machine

/-- A side of a port before it has lock. -/
def LoopSide.init : LoopSide :=
  { lock := false, lockSince := 0, lost := false, breakAt := none, delay := 0, pdSeq := 0, pdSentAt := none, pdNext := 0, sentAt := none,
    returned := none, lastAnswer := none, ownUntil := 0 }

/-- A node of which nothing has been heard. -/
def LoopNode.init : LoopNode :=
  { state := 0, misses := 0, seq := 0, opcode := 0, data := [], answer := [], queue := [], answered := false }

/-- A port that is off. -/
def LoopPort.init : LoopPort :=
  { on := false, slot := 0, sourcing := false, broken := false, breakSeen := false, east := LoopSide.init, west := LoopSide.init,
    listenFrom := 0, heard := false, best := none, bestAt := 0, accepted := none, audioDue := false, audioGot := false, audioMap := (0, 0), masterAlarm := 0,
    cycleAt := none, cycleNo := 0, tokenOut := 0, nodes := [], staged := List.replicate 16 0, lastReq := none, reqs := [], addrs := [],
    txQueue := [], playAudio := [], rxAudio := [], rate := RateBucket.full, wakeUntil := none, wakeReason := 0 }

/-- A loop port. -/
def getLoop (s : State) (lp : Nat) : LoopPort := mget (fun _ => LoopPort.init) s.loops.ports lp

/-- The state with a loop port replaced. -/
def setLoop (lp : Nat) (x : LoopPort) (s : State) : State :=
  { s with loops := { s.loops with ports := mset (fun _ => LoopPort.init) s.loops.ports lp x } }

/-- Role that the image gives a port: 0 MASTER, 1 MEMBER, 2 MONITOR, 3 disabled (R324). -/
def loopRole (s : State) (lp : Nat) : Nat := regFld s (rLOOP_CFG lp) 0 2

/-- Code of the cycle length. -/
def cycleCode (s : State) (lp : Nat) : Nat := regFld s (rLOOP_CFG lp) 2 2

/-- Cycle length in ns (R328). -/
def cycleLen (s : State) (lp : Nat) : Nat := 125000 * 2 ^ cycleCode s lp

/-- Slots of a sweep. -/
def loopNodes (s : State) (lp : Nat) : Nat := regFld s (rLOOP_CFG lp) 4 10

/-- The node's own address: entry 0 of the match registers (R337). -/
def loopAddr (s : State) (lp : Nat) : Nat := regFld s (rLOOP_MATCH0 lp) 0 10

/-- The loop block runs and the port is configured (R324, R325). -/
def loopRuns (s : State) (lp : Nat) : Bool := isRunning s && decide (lp < 4) && (getLoop s lp).on

/-- A side: west or east. -/
def LoopPort.side (x : LoopPort) (west : Bool) : LoopSide := if west then x.west else x.east

/-- The port with a side replaced. -/
def LoopPort.withSide (x : LoopPort) (west : Bool) (y : LoopSide) : LoopPort := if west then { x with west := y } else { x with east := y }

/-- Number of a side in the trace: 0 east, 1 west. -/
def sideNo (west : Bool) : Nat := if west then 1 else 0

/-- What stands on a lost side in place of data (R346, R349): WAKE while it is called for, else BREAK. -/
def signalLost (lp : Nat) (west : Bool) (s : State) : State :=
  let x := getLoop s lp
  let wake := match x.wakeUntil with | some t => decide (s.now < t) | none => false
  emit (.loopSet lp (sideNo west) (if wake then 7 else 6) (loopAddr s lp + (if wake then x.wakeReason * 65536 else 0))) s

/-- A side is lost: the node wraps there, and a master sets BROKEN from the next cycle (R346). -/
def loseSide (lp : Nat) (west : Bool) (s : State) : State :=
  let x := getLoop s lp
  if (x.side west).lost then s
  else
    let y := { x with breakSeen := x.breakSeen || x.sourcing }
    signalLost lp west (incr (cLOOP_WRAPS lp) (setLoop lp (y.withSide west { x.side west with lost := true }) s))

/-- BREAK_RX (R346). -/
def execBreakRx (lp : Nat) (west : Bool) (sender : Nat) (s : State) : Result :=
  let x := getLoop s lp
  if !loopRuns s lp || 1023 < sender then .next s
  else .next (loseSide lp west (setLoop lp (x.withSide west { x.side west with breakAt := some s.now }) s))

/-- LOOP_LOCK_LOSS (R346). -/
def execLoopLockLoss (lp : Nat) (west : Bool) (s : State) : Result :=
  let x := getLoop s lp
  if !loopRuns s lp || !(x.side west).lock then .next s
  else .next (loseSide lp west (setLoop lp (x.withSide west { x.side west with lock := false }) s))

/-- BLOCK_LOCK_REGAINED (R347). -/
def execBlockLockRegained (lp : Nat) (west : Bool) (s : State) : Result :=
  let x := getLoop s lp
  if !loopRuns s lp || (x.side west).lock then .next s
  else .next (setLoop lp (x.withSide west { x.side west with lock := true, lockSince := s.now }) s)

/-- LOOP_UNWRAP (R347): lock held for 10 ms, and no BREAK for as long. -/
def execLoopUnwrap (lp : Nat) (west : Bool) (s : State) : Result :=
  let x := getLoop s lp
  let y := x.side west
  if !loopRuns s lp || !y.lost || !y.lock then .next s
  else .next (setLoop lp (x.withSide west { y with lost := false, breakAt := none }) (reachTime (max y.lockSince (y.breakAt.getD 0) + ms 10) s))

/-- A call for WAKE on every lost side until `t` (R349). -/
def startWake (lp reason t : Nat) (s : State) : State :=
  let x := getLoop s lp
  let s1 := setLoop lp { x with wakeUntil := some (max t (x.wakeUntil.getD 0)), wakeReason := reason } s
  forEach (fun w s => if ((getLoop s lp).side w).lost then signalLost lp w s else s) [false, true] s1

/-- A write of LOOP_WAKE (R349). -/
def writeLoopWake (lp : Nat) (v : Word) (s : State) : State :=
  let old := getReg s (rLOOP_WAKE lp)
  let s1 := setReg (rLOOP_WAKE lp) (setFld (if bit v 31 then setFld old 31 1 0 else old) 1 4 (fld v 1 4)) s
  if bit v 0 && loopRuns s lp then startWake lp (fld v 1 4) (s.now + ms 1) s1 else s1

/-- LOOP_WAKE_SEND (R349). -/
def execLoopWakeSend (p : Party) (lp : Nat) (v : Word) (s : State) : Result :=
  .next (if isCrater p || !isRunning s || 4 ≤ lp then s else writeLoopWake lp v s)

/-- WAKE_SIGNALLING_END (R349): the lost sides send BREAK again. -/
def execWakeSignallingEnd (lp : Nat) (s : State) : Result :=
  let x := getLoop s lp
  match x.wakeUntil with
  | none => .next s
  | some t =>
    let s1 := setLoop lp { x with wakeUntil := none } (reachTime t s)
    .next (forEach (fun w s => if ((getLoop s lp).side w).lost then signalLost lp w s else s) [false, true] s1)

/-- PD_MEASURE (R340): once per second and lane. -/
def execPdMeasure (lp : Nat) (west : Bool) (s : State) : Result :=
  let x := getLoop s lp
  let y := x.side west
  if !loopRuns s lp || !y.lock || y.lost then .next s
  else
    let s1 := reachTime y.pdNext s
    let q := (y.pdSeq + 1) % 256
    .next (emit (.loopSet lp (sideNo west) 8 q) (setLoop lp (x.withSide west { y with pdSeq := q, pdSentAt := some s1.now, pdNext := s1.now + ms 1000 }) s1))

/-- PD_REQ_RX (R340): the answer carries the turnaround in ps, which no rule gives. -/
def execPdReqRx (lp : Nat) (west : Bool) (seq : Nat) (s : State) : Result :=
  if !loopRuns s lp || ((getLoop s lp).side west).lost then .next s
  else
    let r := takeFree s
    .next (emit (.loopSet lp (sideNo west) 9 (seq % 256 + 256 * ((Config.freeDWord r.1).toNat % 2 ^ 40))) r.2)

/-- PD_RESP_RX (R340): link delay = (round trip − turnaround) / 2. -/
def execPdRespRx (lp : Nat) (west : Bool) (seq turnaround : Nat) (s : State) : Result :=
  let x := getLoop s lp
  let y := x.side west
  match y.pdSentAt with
  | none => .next s
  | some t =>
    if !loopRuns s lp || seq ≠ y.pdSeq then .next s
    else .next (setLoop lp (x.withSide west { y with pdSentAt := none, delay := ((s.now - t) * 65536 - turnaround * 65536 / 1000) / 2 }) s)

/-- Forward delay of a port, within the bounds of R332, in units of 2^-16 ns. -/
def forwardDelay (lp : Nat) : Nat := max 4697621 (min 5242880 (Config.loopDelay lp))

/-- An ordered set as a block (R327). -/
def orderedSet (kind arg : Nat) : Bytes := [0x4B, BitVec.ofNat 8 kind] ++ toBe 6 arg

/-- Samples of a channel in a cycle, by the code of the cycle length (R330). -/
def samplesPerCycle (code : Nat) : Nat := 6 * 2 ^ code

/-- Channels of a map, ascending. -/
def mapChannels (map : Nat) : List Nat := (List.range 32).filter (fun k => nbit map k)

/-- Bytes of the audio samples of a sweep, padded to a multiple of 8 (R330). -/
def audioLen (map code : Nat) : Nat := ceilDiv ((mapChannels map).length * samplesPerCycle code * 3) 8 * 8

/-- The header bytes that a pass authenticates (R330). -/
def sweepAad (h : Bytes) : Bytes := patch (patch (slice h 0 48) 1 [0]) 30 (List.replicate 6 0)

/-- The header with HCRC made good (R329). -/
def sealHeader (h : Bytes) : Bytes := slice h 0 60 ++ toBe 4 (crc32c (slice h 0 60)).toNat

/-- A slot of 32 bytes with its CRC made good (R331). -/
def sealSlot (b : Bytes) : Bytes := slice b 0 28 ++ toBe 4 (crc32c (slice b 0 28)).toNat

/-- Whether the CRC of a slot is good. -/
def slotGood (b : Bytes) : Bool := decide (beAt b 28 4 = (crc32c (slice b 0 28)).toNat)

/-- The request that the master puts into a node's slot (R331, R334). -/
def requestSlot (n : LoopNode) : Bytes := sealSlot ([0, BitVec.ofNat 8 n.seq, BitVec.ofNat 8 n.opcode, 0] ++ slice n.data 0 24)

/-- The header of a sweep frame. -/
def sweepHeader (f : Bytes) : Bytes := slice f 8 64

/-- Offset of the slot of address `a` in a sweep frame. -/
def slotOffset (f : Bytes) (a : Nat) : Nat :=
  let h := sweepHeader f
  72 + audioLen (beAt h 36 4) (nbits (byteAt h 2) 4 2) + 16 + 32 * (a - 1)

/-- Whether a frame is cut short by ABORT, so that every receiver discards it (R327). -/
def loopAborted (f : Bytes) : Bool := slice f (f.length - 8) 2 = [0x4B, 5]

/-- Whether a frame is a whole sweep frame with a good header (R329). -/
def sweepGood (f : Bytes) : Bool :=
  let h := sweepHeader f
  decide (beAt h 60 4 = (crc32c (slice h 0 60)).toNat) && decide (byteAt h 0 = 1)
    && decide (slotOffset f (beAt h 6 2 % 1024 + 1) + 8 ≤ f.length)

/-- Cycle number `a` is newer than `b` (R343). -/
def cycleNewer (a b : Nat) : Bool := let d := (a + 65536 - b) % 65536; decide (1 ≤ d) && decide (d ≤ 32767)

/-- Order of the tuples (R345). -/
def LoopTuple.above (a b : LoopTuple) : Bool :=
  if a.epoch ≠ b.epoch then decide (b.epoch < a.epoch)
  else if a.prio ≠ b.prio then decide (b.prio < a.prio) else decide (b.serial < a.serial)

/-- Tuple of a sweep. -/
def sweepTuple (f : Bytes) : LoopTuple :=
  let h := sweepHeader f
  { epoch := beAt h 16 4, prio := byteAt h 3, serial := beAt h 8 8 }

/-- Tuple of the device as master. -/
def ownTuple (s : State) (lp : Nat) : LoopTuple :=
  { epoch := (getReg s (rLOOP_EPOCH lp)).toNat, prio := regFld s (rLOOP_CFG lp) 14 8, serial := Config.serial.toNat }

/-- The epoch and serial of the current master in the registers. -/
def showMaster (lp : Nat) (t : LoopTuple) (s : State) : State :=
  setReg64 (rLOOP_MASTER lp) (BitVec.ofNat 64 t.serial) (setReg (rLOOP_EPOCH lp) (BitVec.ofNat 32 t.epoch) s)

/-- Whether a stream records a downstream channel (R188, SOURCE 1). -/
def loopStreamed (s : State) (lp ch : Nat) : Bool :=
  s.str.streams.any (fun e => nbit (byteAt e.2 0) 0 && decide (byteAt e.2 1 = 1) && decide (byteAt e.2 2 = lp + 4 * ch))

/-- The 48 kHz media clock: the count that PTP time gives now, with offset 0 (R189, R197). -/
def mediaCount (s : State) : Nat := ptpNs s * 48 / 1000000

/-- Samples of a downstream channel: released, and kept for the recorder when a stream takes them (R188, R341). -/
def releaseAudio (lp : Nat) (present : Bool) (e : Nat × Bytes) (s : State) : State :=
  let s1 := if present then emit (.audio (32 * lp + e.1) e.2) s else s
  if loopStreamed s lp e.1 then
    let x := getLoop s1 lp
    let k : AudioChunk := { at_ := mediaCount s, bytes := e.2 }
    setLoop lp { x with rxAudio := mset (fun _ => []) x.rxAudio e.1 (mget (fun _ => []) x.rxAudio e.1 ++ [k]) } s1
  else s1

/-- Downstream channels that the player is configured to feed (R197, R330). -/
def playedMap (s : State) (lp : Nat) : Nat :=
  (List.range 32).foldl (fun m k =>
    if s.str.chans.any (fun c => decide (c.2.output = 1) && nbit c.2.loopMask lp && decide (c.2.loopCh = k)) then m + 2 ^ k else m) 0

/-- The samples of a channel for one cycle, silence where the player has delivered none. -/
def takeSamples (lp ch n : Nat) (s : State) : Bytes × State :=
  let x := getLoop s lp
  let q := mget (fun _ => []) x.playAudio ch
  (slice q 0 (3 * n), setLoop lp { x with playAudio := mset (fun _ => []) x.playAudio ch (q.drop (3 * n)) } s)

/-- The samples of every channel of a map, in ascending order. -/
def takeAudio (lp n : Nat) : List Nat → State → List (Nat × Bytes) × State
  | [], s => ([], s)
  | k :: ks, s =>
    let r := takeSamples lp k n s
    let r2 := takeAudio lp n ks r.2
    ((k, r.1) :: r2.1, r2.2)

/-- The audio part of a sweep (R330): AUDIO_MAP, INV, and the block with its TAG, from a header in which both are still 0. Without a
pass, there being no key or none that can run as the sweep leaves (R148, R154, R167), the block is the TAG alone, of a value that no rule
gives (log entry 62). -/
def audioBlock (lp : Nat) (h : Bytes) (s : State) : Bytes × Bytes × State :=
  let code := cycleCode s lp
  let map := playedMap s lp
  let r := takeAudio lp (samplesPerCycle code) (mapChannels map) s
  let data := slice (r.1.flatMap Prod.snd) 0 (audioLen map code)
  let s1 := forEach (releaseAudio lp false) r.1 r.2
  if s.crt.sec = .zeroised && s.alp.clearFallback then
    let h1 := patch (patch h 36 (toBe 4 map)) 2 [BitVec.ofNat 8 (byteAt h 2 + 8)]
    (h1, data ++ toBe 4 (crc32c data).toNat ++ List.replicate 12 0, s1)
  else
    let x := getLoop s lp
    let inv := match getSlot s x.slot with | some k => k.invocations | none => 0
    let h1 := patch (patch h 36 (toBe 4 map)) 40 (toBe 6 inv)
    let pass := match jobGate s1 x.slot 9 1 data.length with
      | .go => sealJob x.slot 9 (sweepAad h1) data s1
      | g => (.error .keyAbsent, waitJob x.slot g s1)
    match pass with
    | (.ok j, s2) => (h1, j.bytes ++ j.tag, s2)
    | (.error _, s2) =>
      let f := takeFree s2
      let g := takeFree f.2
      (h, toBe 8 (Config.freeDWord f.1).toNat ++ toBe 8 (Config.freeDWord g.1).toNat, g.2)

/-- The header of a cycle before audio, for the east lane (R329). -/
def cycleHeader (s : State) (lp start : Nat) : Bytes :=
  let x := getLoop s lp
  let st := (levelAt s .loop).code + (if x.broken then 4 else 0) + 16 * cycleCode s lp
  let t := ownTuple s lp
  [1, 0, BitVec.ofNat 8 st, BitVec.ofNat 8 t.prio] ++ toBe 2 x.cycleNo ++ toBe 2 (loopNodes s lp) ++ toBe 8 t.serial ++ toBe 4 t.epoch
    ++ toBe 6 (start / 1000000000) ++ toBe 4 (start % 1000000000) ++ List.replicate 34 0

/-- A sweep frame (R329). -/
def sweepFrame (h audio slots : Bytes) (west : Bool) : Bytes :=
  orderedSet 1 (sideNo west) ++ sealHeader (patch h 1 [BitVec.ofNat 8 (sideNo west)]) ++ audio ++ slots ++ orderedSet 4 0

/-- A node at the end of a cycle (R334): a miss, or the next request. -/
def judgeNode (n : LoopNode) : LoopNode :=
  if n.answered then
    let seq := (n.seq + 1) % 256
    match n.queue with
    | q :: rest => { n with seq := seq, opcode := q.1, data := q.2, queue := rest, answered := false, misses := 0 }
    | [] => { n with seq := seq, opcode := 0, data := List.replicate 24 0, answered := false, misses := 0 }
  else { n with misses := min 255 (n.misses + 1), state := if 3 ≤ n.misses + 1 then 2 else n.state }

/-- Every slot of the ended cycle is judged (R334). -/
def judgeCycle (lp : Nat) (s : State) : State :=
  forEach (fun a s =>
    let x := getLoop s lp
    let n := mget (fun _ => LoopNode.init) x.nodes a
    let n1 := judgeNode n
    let s1 := setLoop lp { x with nodes := mset (fun _ => LoopNode.init) x.nodes a n1 } s
    let s2 := if n.answered then s1 else incr (cLOOP_SLOT_MISS lp) s1
    if n1.state = 2 && n.state ≠ 2 then evLoop lp 1 (incr (cLOOP_NODE_FAULTS lp) s2) else s2) (span 1 (loopNodes s lp)) s

/-- LOOP_BREAK as BROKEN is set: the last address that answered in each direction (R346). -/
def breakWord (x : LoopPort) : Word := putFld 0 10 (x.east.lastAnswer.getD 0) ||| putFld 16 10 (x.west.lastAnswer.getD 0) ||| putBit 31 true

/-- BROKEN set or cleared as a cycle begins (R346, R347). -/
def settleBreak (lp : Nat) (s : State) : State :=
  let x := getLoop s lp
  let cut := x.breakSeen || x.east.lost || x.west.lost
  let whole := x.east.returned = some false && x.west.returned = some false
  if cut && !x.broken then evLoop lp 3 (setReg (rLOOP_BREAK lp) (breakWord x) (setLoop lp { x with broken := true, breakSeen := false } s))
  else if !cut && x.broken && whole then evLoop lp 4 (setRegFld (rLOOP_BREAK lp) 31 1 0 (setLoop lp { x with broken := false } s))
  else setLoop lp { x with breakSeen := false } s

/-- The cycle that has ended: misses, the token, the break. -/
def endCycle (lp : Nat) (s : State) : State :=
  let x := getLoop s lp
  if x.cycleAt.isNone then s
  else
    let s1 := judgeCycle lp s
    let s2 := if x.tokenOut = 0 then s1 else evLoop lp 7 (addCtr (cLOOP_TOKEN_LOST lp) x.tokenOut s1)
    settleBreak lp (setLoop lp { getLoop s2 lp with tokenOut := 0 } s2)

/-- Place of a frame in the order of R335: EMSG, signed management, relayed, DATA by class. -/
def LoopTx.order (f : LoopTx) : Nat := if f.kind < 3 then f.kind else 10 - min 7 f.cls

/-- A frame put into the queue of a port, in the order of R335. -/
def queueLoopTx (lp : Nat) (f : LoopTx) (s : State) : State :=
  let x := getLoop s lp
  setLoop lp { x with txQueue := x.txQueue.filter (fun g => g.order ≤ f.order) ++ [f] ++ x.txQueue.filter (fun g => f.order < g.order) } s

/-- The frames that a share takes, in order, and those that stay. -/
def takeShare (budget : Nat) : List LoopTx → List LoopTx × List LoopTx
  | [] => ([], [])
  | f :: rest =>
    if f.bytes.length ≤ budget then
      let r := takeShare (budget - f.bytes.length) rest
      (f :: r.1, r.2)
    else ([], f :: rest)

/-- Whether a frame leaves on a lane: a relayed one on its own lane alone. -/
def LoopTx.on (f : LoopTx) (west : Bool) : Bool := decide (f.side.getD (sideNo west) = sideNo west)

/-- The frames that the master's shares of the two lanes take in BROKEN, in order, and those that stay: each lane has its own budget, and
one without data takes none (R335). -/
def takeLanes (east west : Nat) : List LoopTx → List LoopTx × List LoopTx
  | [] => ([], [])
  | f :: rest =>
    let e := if f.on false then f.bytes.length else 0
    let w := if f.on true then f.bytes.length else 0
    if e ≤ east && w ≤ west then
      let r := takeLanes (east - e) (west - w) rest
      (f :: r.1, r.2)
    else ([], f :: rest)

/-- Frames of a share leave on a lane. -/
def sendLoopFrames (lp : Nat) (west : Bool) (fs : List LoopTx) (s : State) : State :=
  forEach (fun f s => emit (.loopTx lp (sideNo west) f.bytes) (incr (cLOOP_FRAMES_TX lp) s)) fs s

/-- The master's token phase (R335): its frames and the TOKEN, east in RING, on each lane that carries data in BROKEN. -/
def masterShare (lp : Nat) (s : State) : State :=
  let x := getLoop s lp
  let budget := regFld s (rLOOP_BUDGET lp) 16 16
  let token := fun (w : Bool) (s : State) => emit (.loopSet lp (sideNo w) 2 (sideNo w)) s
  if x.broken then
    let lanes := [false, true].filter (fun w => !(x.side w).lost)
    let r := takeLanes budget budget x.txQueue
    forEach (fun w s => token w (sendLoopFrames lp w (r.1.filter (fun f => f.on w)) s)) lanes
      (setLoop lp { x with txQueue := r.2, tokenOut := lanes.length } s)
  else
    let r := takeShare budget x.txQueue
    token false (sendLoopFrames lp false r.1 (setLoop lp { x with txQueue := r.2, tokenOut := 1 } s))

/-- Device time of the next cycle boundary, and the PTP time in ns that it stands for (R328). -/
def nextBoundary (s : State) (lp : Nat) : Nat × Nat :=
  let len := cycleLen s lp
  let now := ptpNs s
  let same := (getLoop s lp).cycleAt = some s.now
  let start := if same then (now / len + 1) * len else ceilDiv now len * len
  (s.now + (start - now), start)

/-- The number of the cycle that starts: one more than the last one sourced or accepted; with none, its place in PTP time. -/
def nextCycleNo (s : State) (lp start : Nat) : Nat :=
  let x := getLoop s lp
  if x.cycleAt.isSome then (x.cycleNo + 1) % 65536
  else match x.accepted with | some c => (c + 1) % 65536 | none => start / cycleLen s lp % 65536

/-- The sweeps of a cycle leave on both lanes (R328). -/
def sendSweeps (lp start : Nat) (s : State) : State :=
  let h := cycleHeader s lp start
  let a := audioBlock lp h s
  let x := getLoop a.2.2 lp
  let slots := (span 1 (loopNodes s lp)).flatMap (fun k => requestSlot (mget (fun _ => LoopNode.init) x.nodes k))
  let lane := fun (w : Bool) (s : State) =>
    let y := (getLoop s lp).side w
    let s1 := setLoop lp ((getLoop s lp).withSide w { y with sentAt := some s.now, returned := none, lastAnswer := none }) s
    if y.lost then s1 else emit (.loopTx lp (sideNo w) (sweepFrame a.1 a.2.1 slots w)) s1
  lane true (lane false a.2.2)

/-- LOOP_CYCLE_START (R328, R334, R335): the previous cycle is judged, the sweeps and the token phase follow. -/
def execLoopCycleStart (lp : Nat) (s : State) : Result :=
  if !loopRuns s lp || !(getLoop s lp).sourcing then .next s
  else
    let b := nextBoundary s lp
    let s1 := endCycle lp (reachTime b.1 s)
    let no := nextCycleNo s lp b.2
    let s2 := setReg (rLOOP_CYCLE lp) (BitVec.ofNat 32 no) (setLoop lp { getLoop s1 lp with cycleAt := some s1.now, cycleNo := no } s1)
    .next (assertLine (32 + lp) (incr (cLOOP_LOOP_CYCLES lp) (masterShare lp (sendSweeps lp b.2 s2))))

/-- One slot of a returned sweep (R334). -/
def takeAnswer (lp : Nat) (west : Bool) (f : Bytes) (a : Nat) (s : State) : State :=
  let b := slice f (slotOffset f a) 32
  if !slotGood b then incr (cLOOP_CRC_ERR lp) s
  else
    let s1 := if nbit (byteAt b 0) 1 then evLoop lp 5 s else s
    let x := getLoop s1 lp
    let n := mget (fun _ => LoopNode.init) x.nodes a
    if !nbit (byteAt b 0) 0 then s1
    else
      let y := x.side west
      let last := if west then min a (y.lastAnswer.getD a) else max a (y.lastAnswer.getD a)
      let x1 := x.withSide west { y with lastAnswer := some last }
      if n.answered || byteAt b 1 ≠ n.seq then setLoop lp x1 s1
      else
        let n1 := { n with answered := true, state := 1, misses := 0, answer := slice b 4 24 }
        let s2 := setLoop lp { x1 with nodes := mset (fun _ => LoopNode.init) x1.nodes a n1 } s1
        if n.state = 2 then evLoop lp 2 s2 else s2

/-- SWEEP_RETURN (R334, R346, R350): a sweep of this master comes back. DIR tells the lane on which it was sent. -/
def execSweepReturn (lp : Nat) (_west : Bool) (frame : Bytes) (s : State) : Result :=
  let x := getLoop s lp
  if !loopRuns s lp || !x.sourcing || loopAborted frame then .next s
  else if !sweepGood frame then .next (incr (cLOOP_CRC_ERR lp) s)
  else
    let h := sweepHeader frame
    if sweepTuple frame ≠ ownTuple s lp then .next s
    else
      let dir := nbit (byteAt h 1) 0
      let y := x.side dir
      match y.sentAt with
      | none => .next s
      | some t =>
        if beAt h 4 2 ≠ x.cycleNo || t + cycleLen s lp ≤ s.now then .next (evLoop lp 6 (incr (cLOOP_LATE_SWEEP lp) s))
        else
          let wrapped := nbit (byteAt h 1) 1
          let x1 := { x with breakSeen := x.breakSeen || wrapped }
          let s1 := setLoop lp (x1.withSide dir { y with returned := some wrapped }) s
          let s2 := setReg (if dir then rLOOP_RING_W lp else rLOOP_RING_E lp) (putFld 0 20 (s.now - t)) s1
          .next (forEach (takeAnswer lp dir frame) (span 1 (min (loopNodes s lp) (beAt h 6 2 % 1024))) s2)

/-- The frame with WRAPPED set and HCRC made good (R346). -/
def setWrapped (f : Bytes) : Bytes :=
  let h := sweepHeader f
  patch f 8 (sealHeader (patch h 1 [BitVec.ofNat 8 (byteAt h 1 % 2 + 2)]))

/-- A frame of the node's own that an arriving sweep cuts on a transmit lane ends with ABORT (R345). -/
def cutOwn (lp : Nat) (west : Bool) (s : State) : State :=
  let x := getLoop s lp
  let y := x.side west
  if y.ownUntil ≤ s.now then s
  else emit (.loopSet lp (sideNo west) 5 0) (setLoop lp (x.withSide west { y with ownUntil := 0 }) s)

/-- The lane on which a stream that comes in on a side goes on (R346). -/
def LoopPort.outLane (x : LoopPort) (west : Bool) : Bool := if (x.side (!west)).lost then west else !west

/-- A stream goes on to the other side, or back out of the side it came from when the other one is lost (R332, R346). -/
def passOn (lp : Nat) (west : Bool) (frame wrapped : Bytes) (s : State) : State :=
  let x := getLoop s lp
  if !(x.side (!west)).lost then emit (.loopTx lp (sideNo (!west)) frame) s
  else if !(x.side west).lost then emit (.loopTx lp (sideNo west) wrapped) s
  else s

/-- The sweep with the node's forward delay and the delay of the link it came on added to CORRECTION (R340). -/
def addCorrection (s : State) (lp : Nat) (west : Bool) (f : Bytes) : Bytes :=
  let h := sweepHeader f
  patch f 8 (sealHeader (patch h 30 (toBe 6 ((beAt h 30 6 + forwardDelay lp + ((getLoop s lp).side west).delay) % 2 ^ 48))))

/-- Loop time at the receive balls, in units of 2^-32 ns (R340). -/
def sweepTime (s : State) (lp : Nat) (west : Bool) (f : Bytes) : Int :=
  let h := sweepHeader f
  ((beAt h 20 6 * 1000000000 + beAt h 26 4) * 2 ^ 32 + (beAt h 30 6 + ((getLoop s lp).side west).delay) * 65536 : Nat)

/-- The samples of a sweep that verify (R330, R341, R492); none when they do not. -/
def openAudio (lp : Nat) (f : Bytes) (s : State) : Option Bytes × State :=
  let h := sweepHeader f
  let n := audioLen (beAt h 36 4) (nbits (byteAt h 2) 4 2)
  let data := slice f 72 n
  let tag := slice f (72 + n) 16
  if nbit (byteAt h 2) 3 then
    (if s.alp.clearFallback && tag = toBe 4 (crc32c data).toNat ++ List.replicate 12 0 then some data else none, s)
  else if s.crt.sec = .zeroised then (none, s)
  else
    let slot := (getLoop s lp).slot
    match jobGate s slot 9 1 data.length with
    | .go => (match openJob slot 9 (beAt h 40 6) (sweepAad h) data tag s with | (.ok d, s1) => (some d, s1) | (.error _, s1) => (none, s1))
    | g => (none, waitJob slot g s)

/-- The verified samples released by channel. -/
def releaseChannels (lp n : Nat) : List Nat → Bytes → State → State
  | [], _, s => s
  | k :: ks, bs, s => releaseChannels lp n ks (bs.drop (3 * n)) (releaseAudio lp true (k, slice bs 0 (3 * n)) s)

/-- The audio of a sweep of the accepted cycle: the first one that verifies is taken (R341). -/
def takeSweepAudio (lp : Nat) (f : Bytes) (s : State) : State :=
  let x := getLoop s lp
  if !x.audioDue || x.audioGot then s
  else
    match openAudio lp f s with
    | (none, s1) => s1
    | (some d, s1) =>
      let h := sweepHeader f
      let s2 := setLoop lp { getLoop s1 lp with audioGot := true } s1
      releaseChannels lp (samplesPerCycle (nbits (byteAt h 2) 4 2)) (mapChannels (beAt h 36 4)) d s2

/-- A cycle whose audio has not verified is presented as silence (R341): in the channels of its AUDIO_MAP. -/
def endAudio (lp : Nat) (s : State) : State :=
  let x := getLoop s lp
  if x.audioDue && !x.audioGot then
    let n := samplesPerCycle x.audioMap.2
    let chs := mapChannels x.audioMap.1
    releaseChannels lp n chs (List.replicate (3 * n * chs.length) 0) (evLoop lp 9 (incr (cLOOP_AUDIO_AUTH_FAIL lp) s))
  else s

/-- A cycle is accepted (R332, R343): by loop time it began as long ago as the sweep took from the master (R335, R340). -/
def acceptCycle (lp : Nat) (west : Bool) (f : Bytes) (s0 : State) : State :=
  let s := endAudio lp s0
  let h := sweepHeader f
  let c := beAt h 4 2
  let late := (beAt h 30 6 + ((getLoop s lp).side west).delay) / 65536
  let x := { getLoop s lp with accepted := some c, cycleAt := some (s.now - late), cycleNo := c, audioDue := true, audioGot := false,
                               audioMap := (beAt h 36 4, nbits (byteAt h 2) 4 2) }
  assertLine (32 + lp) (incr (cLOOP_LOOP_CYCLES lp) (setReg (rLOOP_CYCLE lp) (BitVec.ofNat 32 c) (setLoop lp x s)))

/-- A new request is kept for the host side: table 3 (R333, LOOP_IND). A STATUS request has no effect. -/
def pushRequest (lp : Nat) (b : Bytes) (s : State) : State :=
  let x := getLoop s lp
  if byteAt b 2 = 0 then s
  else if 64 ≤ x.reqs.length then incr (cLOOP_SLOT_MISS lp) s
  else evLoop lp 8 (setLoop lp { x with reqs := x.reqs ++ [[1] ++ slice b 1 2 ++ [0] ++ slice b 4 24] } s)

/-- The staged answer to a request (R331, LOOP_IND table 2). The member fault bit is not stated. -/
def stagedAnswer (s : State) (lp seq : Nat) : Bytes × State :=
  let r := takeFree s
  let al := (levelAt s .loop).code
  let fault := (Config.freeDWord r.1).toNat % 2
  let head : Bytes := [1, BitVec.ofNat 8 seq, BitVec.ofNat 8 (al + 4 * fault), 0]
  (head ++ [BitVec.ofNat 8 al, BitVec.ofNat 8 s.crt.sec.code] ++ List.replicate 6 0 ++ slice (getLoop s lp).staged 0 16, r.2)

/-- The node's own slot of a sweep that it may answer (R332, R333). -/
def answerSlot (lp : Nat) (f : Bytes) (s : State) : Bytes × State :=
  let o := slotOffset f (loopAddr s lp)
  let b := slice f o 32
  if !slotGood b then (f, incr (cLOOP_CRC_ERR lp) s)
  else if nbit (byteAt b 0) 0 then (patch f o (sealSlot (patch b 0 [BitVec.ofNat 8 (byteAt b 0 ||| 2)])), s)
  else
    let x := getLoop s lp
    let seq := byteAt b 1
    match x.lastReq with
    | some (q, a) =>
      if q = seq then (patch f o (sealSlot a), s)
      else
        let r := stagedAnswer s lp seq
        (patch f o (sealSlot r.1), pushRequest lp b (setLoop lp { x with lastReq := some (seq, r.1) } r.2))
    | none =>
      let r := stagedAnswer s lp seq
      (patch f o (sealSlot r.1), pushRequest lp b (setLoop lp { x with lastReq := some (seq, r.1) } r.2))

/-- The tuple of a received sweep against the greatest one seen in the last 32 cycles (R345). -/
def noteTuple (lp : Nat) (f : Bytes) (s : State) : State :=
  let x := getLoop s lp
  let t := sweepTuple f
  let old := x.bestAt + 32 * cycleLen s lp < s.now
  match x.best with
  | some b =>
    if t = b then setLoop lp { x with bestAt := s.now } s
    else if old || t.above b then showMaster lp t (setLoop lp { x with best := some t, bestAt := s.now } s)
    else s
  | none => showMaster lp t (setLoop lp { x with best := some t, bestAt := s.now } s)

/-- A valid sweep at a node that does not source (R332, R340–R345): what it learns, and the frame as it goes on. -/
def memberSweep (lp : Nat) (west : Bool) (f : Bytes) (s0 : State) : Bytes × State :=
  let h := sweepHeader f
  let c := beAt h 4 2
  let s1 := noteTuple lp f (incr (cLOOP_SWEEPS_RX lp) s0)
  let al := byteAt h 2 % 4
  let x := { getLoop s1 lp with heard := true, listenFrom := s1.now, masterAlarm := al, broken := nbit (byteAt h 2) 2 }
  let s := setLoop lp x s1
  let current := x.best = some (sweepTuple f)
  let stale := match x.accepted with | some a => decide (c ≠ a) && !cycleNewer c a | none => false
  if stale then (addCorrection s lp west f, incr (cLOOP_STALE lp) s)
  else if !current then (addCorrection s lp west f, s)
  else
    let fresh := match x.accepted with | some a => cycleNewer c a | none => true
    let s2 := if regFld s rTIM_CFG 4 2 = lp then followLoop (sweepTime s lp west f) s else s
    let s3 := takeSweepAudio lp f (if fresh then acceptCycle lp west f s2 else s2)
    let mine := decide (1 ≤ loopAddr s lp) && decide (loopAddr s lp ≤ beAt h 6 2 % 1024) && loopRole s lp ≠ 2 && !nbit (byteAt h 1) 1
    if mine then
      let r := answerSlot lp f s3
      (addCorrection r.2 lp west r.1, r.2)
    else (addCorrection s3 lp west f, s3)

/-- Two masters meet (R345): the lower tuple stands down and adopts the winner's epoch. -/
def masterConflict (lp : Nat) (f : Bytes) (s : State) : State :=
  let x := getLoop s lp
  let t := sweepTuple f
  let s1 := evLoop lp 0 (incr (cLOOP_CONFLICTS lp) s)
  if t.above (ownTuple s lp) then
    let y := { x with sourcing := false, listenFrom := s.now, heard := true, best := some t, bestAt := s.now, cycleAt := none, tokenOut := 0,
                      accepted := none, audioDue := false, broken := false }
    showMaster lp t (setLoop lp y s1)
  else s1

/-- SWEEP_RX (R332, R340–R345): `west` is the lane it comes on. -/
def execSweepRx (lp : Nat) (west : Bool) (frame : Bytes) (s : State) : Result :=
  let x := getLoop s lp
  if !loopRuns s lp || !(x.side west).lock then .next s
  else if loopAborted frame then .next (if x.sourcing then s else passOn lp west frame frame s)
  else if !sweepGood frame then
    let s1 := incr (cLOOP_CRC_ERR lp) s
    .next (if x.sourcing then s1 else passOn lp west frame frame s1)
  else if x.sourcing then .next (if (sweepTuple frame).serial = Config.serial.toNat then s else masterConflict lp frame s)
  else
    let r := memberSweep lp west frame (cutOwn lp (x.outLane west) s)
    .next (passOn lp west r.1 (setWrapped r.1) r.2)

/-- MASTER_LISTEN_TIMEOUT (R344): no valid sweep for 3 cycle lengths + (255 − PRIO) µs. -/
def execMasterListenTimeout (lp : Nat) (s : State) : Result :=
  let x := getLoop s lp
  if !loopRuns s lp || loopRole s lp ≠ 0 || x.sourcing then .next s
  else
    let s1 := endAudio lp (reachTime (x.listenFrom + 3 * cycleLen s lp + us (255 - regFld s (rLOOP_CFG lp) 14 8)) s)
    let kept := (mget (fun _ => 0) s.crt.ret.loopEpochs lp).toNat
    let e : Word := BitVec.ofNat 32 (1 + max kept (getReg s (rLOOP_EPOCH lp)).toNat)
    let s2 := setRet { s1.crt.ret with loopEpochs := mset (fun _ => 0) s1.crt.ret.loopEpochs lp e } s1
    let y := { getLoop s2 lp with sourcing := true, cycleAt := none, tokenOut := 0, broken := false, breakSeen := false, audioDue := false }
    .next (showMaster lp { ownTuple s2 lp with epoch := e.toNat } (setLoop lp y s2))

/-- Time in 1/100 ns that a frame takes on a lane (R326). -/
def loopFrameTime (f : LoopTx) : Nat := 256 * ceilDiv f.bytes.length 8

/-- The frames that end at least 1 µs before the next cycle start (R335). -/
def inTime (left : Nat) : List LoopTx → List LoopTx
  | [] => []
  | f :: rest => if loopFrameTime f ≤ left then f :: inTime (left - loopFrameTime f) rest else []

/-- TOKEN_RX (R335): a member sends its share and passes the TOKEN on; a monitor passes it on; the master absorbs it. -/
def execTokenRx (lp : Nat) (west : Bool) (s : State) : Result :=
  let x := getLoop s lp
  if !loopRuns s lp || !(x.side west).lock then .next s
  else if x.sourcing then .next (setLoop lp { x with tokenOut := x.tokenOut - 1 } s)
  else
    let r := takeShare (regFld s (rLOOP_BUDGET lp) 0 16) x.txQueue
    let ends := match x.cycleAt with | some t => t + cycleLen s lp - us 1 - s.now | none => 0
    let go := if loopRole s lp = 2 then [] else inTime (100 * ends) r.1
    let out := x.outLane west
    let busy := s.now + ceilDiv ((go.map loopFrameTime).foldl (· + ·) 0) 100
    let y := { x with txQueue := x.txQueue.drop go.length }
    let s1 := sendLoopFrames lp out go (setLoop lp (y.withSide out { y.side out with ownUntil := busy }) s)
    .next (if (x.side out).lost then s1 else emit (.loopSet lp (sideNo out) 2 (if west then 0 else 1)) s1)

/-- A management frame around a payload (R336). -/
def loopFrame (dst src type : Nat) (payload : Bytes) : Bytes :=
  let body := toBe 2 dst ++ toBe 2 src ++ [BitVec.ofNat 8 type, 0] ++ toBe 2 payload.length ++ payload
  let whole := body ++ toBe 4 (crc32c body).toNat
  orderedSet 3 0 ++ slice whole 0 (ceilDiv whole.length 8 * 8) ++ orderedSet 4 0

/-- LEN of a management frame. -/
def loopFrameLen (f : Bytes) : Nat := beAt f 14 2

/-- Whether the CRC of a management frame is good. -/
def loopFrameGood (f : Bytes) : Bool :=
  decide (beAt f (16 + loopFrameLen f) 4 = (crc32c (slice f 8 (8 + loopFrameLen f))).toNat) && decide (16 + loopFrameLen f + 4 ≤ f.length)

/-- The match registers of a port. -/
def matchReg (lp k : Nat) : Nat := rLOOP_MATCH0 lp + 4 * k

/-- Whether a node accepts a destination (R337). -/
def loopMatches (s : State) (lp dst : Nat) : Bool :=
  dst = 0x83FF || (List.range 8).any (fun k =>
    let v := getReg s (matchReg lp k)
    bit v 31 && decide (fld v 0 10 = dst % 1024) && decide (bit v 15 = nbit dst 15))

/-- The receive timestamp of a DATA frame that carries a PTP event message, at its SOF (R338). -/
def loopStamp (payload : Bytes) (s : State) : Option (Nat × Nat) :=
  match ptpOff payload with
  | some p => if byteAt payload p % 16 < 4 then some (ptpSeconds s, ptpNanos s) else none
  | none => none

/-- An accepted frame at its block (R338): DATA enters SP22; the checks of EMSG and MGMT payloads are their own commands. -/
def handleLoopFrame (lp : Nat) (f : Bytes) (s : State) : State :=
  let n := loopFrameLen f
  let payload := slice f 16 n
  match byteAt f 12 with
  | 3 => if 60 ≤ n && n ≤ 1536 then toIngress 0 { newFrame (slice payload 0 (n - 4)) 22 4099 false s.now with stamp := loopStamp payload s } s else s
  | 1 => loopRate s
  | 2 => loopRate s
  | _ => s
where
  /-- At most 1,024 EMSG and MGMT frames per second, with a burst of 64. -/
  loopRate (s : State) : State :=
    let x := getLoop s lp
    match takeBucket x.rate 1024 s.now with
    | some b => setLoop lp { x with rate := b } s
    | none => incr (cLOOP_RATE_DROP lp) s

/-- LOOP_FRAME_RX (R327, R337, R338). A frame that returns to its sender is removed; address 0 is that of the sourcing master, so that
a standby master lets its frames pass (log entry 45). -/
def execLoopFrameRx (lp : Nat) (west : Bool) (frame : Bytes) (s : State) : Result :=
  let x := getLoop s lp
  let kind := byteAt frame 1
  if !loopRuns s lp || !(x.side west).lock then .next s
  else if 0x0A ≤ kind then .next (incr (cLOOP_CRC_ERR lp) s)
  else if kind ≠ 3 then .next s
  else
    let on := fun (s : State) =>
      if x.sourcing && x.broken then queueLoopTx lp { side := some (sideNo (!west)), kind := 2, cls := 0, bytes := frame } s
      else passOn lp west frame frame s
    if loopAborted frame then .next (on s)
    else if !loopFrameGood frame then .next (on (incr (cLOOP_CRC_ERR lp) s))
    else if beAt frame 10 2 % 1024 = loopAddr s lp && (x.sourcing || loopRole s lp ≠ 0) then .next s
    else if !loopMatches s lp (beAt frame 8 2) then .next (on s)
    else
      let s1 := handleLoopFrame lp frame (incr (cLOOP_FRAMES_RX lp) s)
      .next (if nbit (beAt frame 8 2) 15 then on s1 else s1)

/-- Loop address of a MAC address (LOOP_IND table 4). -/
def loopAddrOf (s : State) (lp : Nat) (mac : Bytes) : Option Nat :=
  ((getLoop s lp).addrs.find? (fun e => nbit (leAt e.2 6 2) 15 && slice e.2 0 6 = mac)).map (fun e => leAt e.2 6 2 % 1024)

/-- Reflected CRC-32 of IEEE 802.3, one byte. -/
def crc32Byte (c : BitVec 32) (b : Byte) : BitVec 32 :=
  Nat.repeat (fun c => if c.getLsbD 0 then (c >>> 1) ^^^ 0xEDB88320 else c >>> 1) 8 (c ^^^ b.zeroExtend 32)

/-- FCS of an Ethernet frame, as its four bytes on the wire. -/
def ethFcs (bs : Bytes) : Bytes := toLe 4 (~~~ (bs.foldl crc32Byte 0xFFFFFFFF)).toNat

/-- A frame that leaves SP22 goes to the loop on which its destination is known (R338). -/
def loopDataOut (f : Frame) (s : State) : State :=
  let mac := slice f.bytes 0 6
  let data := f.bytes ++ ethFcs f.bytes
  match (List.range 4).find? (fun lp => loopRuns s lp && (loopAddrOf s lp mac).isSome) with
  | none => forEach (fun lp s => if loopRuns s lp then incr (cLOOP_UNKNOWN_DST lp) s else s) [0, 1, 2, 3] s
  | some lp =>
    if 1536 < data.length then incr (cLOOP_OVERSIZE lp) s
    else
      let dst := (loopAddrOf s lp mac).getD 0
      queueLoopTx lp { side := none, kind := 3, cls := f.cls, bytes := loopFrame dst (loopAddr s lp) 3 (slice data 0 (max 60 data.length)) } s

/-- A node as table 0 shows it. -/
def nodeBytes (n : LoopNode) : Bytes :=
  [BitVec.ofNat 8 n.state, BitVec.ofNat 8 n.misses, BitVec.ofNat 8 n.seq, BitVec.ofNat 8 n.opcode] ++ slice n.answer 0 24 ++ List.replicate 4 0

/-- A read through LOOP_IND. -/
def loopRead (lp table index : Nat) (s : State) : TableReply × State :=
  let x := getLoop s lp
  let node := mget (fun _ => LoopNode.init) x.nodes index
  let bad := table < 2 && (index = 0 || 1023 < index)
  if 4 < table then (refuse 3, s)
  else if bad then (refuse 1, s)
  else
    match table with
    | 0 => (readBack index (nodeBytes node), s)
    | 1 => (readBack index (match node.queue with | q :: _ => [BitVec.ofNat 8 q.1, 0, 0, 0] ++ slice q.2 0 24 | [] => []), s)
    | 2 =>
      let al := (levelAt s .loop).code
      (readBack index ([BitVec.ofNat 8 al, BitVec.ofNat 8 s.crt.sec.code] ++ List.replicate 6 0 ++ slice x.staged 0 16), s)
    | 3 =>
      match x.reqs with
      | [] => (readBack index [], s)
      | r :: rest => (readBack index r, setLoop lp { x with reqs := rest } s)
    | _ => (readBack index (mget (fun _ => List.replicate 8 0) x.addrs index), s)

/-- A write through LOOP_IND (R333, R334). A 1 in a reserved bit of an entry refuses it (R6). -/
def loopWrite (lp table index : Nat) (d : Bytes) (s : State) : TableReply × State :=
  let x := getLoop s lp
  match table with
  | 0 => (refuse 2, s)
  | 1 =>
    let n := mget (fun _ => LoopNode.init) x.nodes index
    if index = 0 || 1023 < index then (refuse 1, s)
    else if !(zeroAt d 1 3 && zeroAt d 28 4) then (refuse 3, s)
    else if 4 ≤ n.queue.length then (refuse 4, s)
    else
      let n1 := { n with queue := n.queue ++ [(byteAt d 0, slice d 4 24)] }
      (wrote index, setLoop lp { x with nodes := mset (fun _ => LoopNode.init) x.nodes index n1 } s)
  | 2 => if zeroAt d 24 8 then (wrote index, setLoop lp { x with staged := slice d 8 16 } s) else (refuse 3, s)
  | 3 => (refuse 2, s)
  | 4 =>
    if leAt d 6 2 % 32768 / 1024 ≠ 0 || !zeroAt d 8 24 then (refuse 3, s)
    else (wrote index, setLoop lp { x with addrs := mset (fun _ => List.replicate 8 0) x.addrs index (slice d 0 8) } s)
  | _ => (refuse 3, s)

/-- An operation through a view's LOOP_IND registers. -/
def loopIndirect (p : Party) (lp : Nat) (op : TableOp) (s : State) : State :=
  let a := getView s p (rLOOP_IND_ADDR lp)
  let r := match op with
    | .write => loopWrite lp (fld a 16 3) (fld a 0 12) (viewBytes s p (rLOOP_IND_DATA0 lp) 8) s
    | _ => loopRead lp (fld a 16 3) (fld a 0 12) s
  showReply p (rLOOP_IND_CTL lp) (rLOOP_IND_DATA0 lp) 8 op r.1 r.2

/-- LOOP_IND_READ. -/
def execLoopIndRead (p : Party) (lp : Nat) (s : State) : Result := .next (if lp < 4 then loopIndirect p lp .read s else s)

/-- LOOP_IND_WRITE. -/
def execLoopIndWrite (p : Party) (lp : Nat) (s : State) : Result := .next (if lp < 4 then loopIndirect p lp .write s else s)

end Sys2Proof.Machine
end

