-- ==== Sys2Proof/Machine/Storage.lean ====
section
/-! DEFINITION. The Sinter block map, the resolution and issue of storage commands, and the tables of STR_IND but those of the player
(R180–R188). -/

namespace Sys2Proof.Machine

/-- A map entry (R180). -/
def mapEntry (s : State) (x : Nat) : Bytes := mget (fun _ => List.replicate 8 0) s.str.map x

/-- A namespace entry (R181). -/
def nsEntry (s : State) (k : Nat) : Bytes := mget (fun _ => List.replicate 16 0) s.str.namespaces k

/-- A binding (R181). -/
def bindEntry (s : State) (k : Nat) : Bytes := mget (fun _ => List.replicate 16 0) s.str.bindings k

/-- Block size of a namespace as a shift. -/
def nsShift (e : Bytes) : Nat := if byteAt e 2 = 0 then 9 else 12

/-- The valid entry of an instance and NSID (R181). -/
def namespaceOf (s : State) (inst nsid : Nat) : Option Bytes :=
  (s.str.namespaces.find? (fun e => nbit (leAt e.2 0 2) 13 && decide (leAt e.2 0 2 % 8192 = inst) && decide (byteAt e.2 3 = nsid))).map Prod.snd

/-- READY connections of a binding, CONN0 first. -/
def readyConns (s : State) (b : Bytes) : List Nat :=
  ([0, 2, 4, 6].map (fun o => leAt b o 2)).filter (fun n => n < 1024 && (getConn s n).state = .ready)

/-- Shift of a binding's remote blocks. -/
def bindShift (b : Bytes) : Nat := leAt b 12 2 % 16

/-- The connection to which a sub-command of storage queue `storq` goes (R182). -/
def pickConn (s : State) (storq : Nat) (b : Bytes) : Option Nat :=
  let l := readyConns s b
  l[storq % max 1 l.length]?

/-- R182: the sub-commands of a range of virtual extents with the bindings they go to, or the first failure. `off` is the byte offset in the
namespace, `pos` and `wpos` the places reached in the command's data and in the remote format. -/
def resolveFrom (s : State) (ns : Bytes) (write : Bool) : Nat → Nat → Nat → Nat → Nat → Except Status (List (SubCmd × Bytes))
  | 0, _, _, _, _ => .ok []
  | fuel + 1, off, len, pos, wpos =>
    if len = 0 then .ok []
    else
      let m := leNat (mapEntry s (leAt ns 4 4 + off / 65536))
      let n := min len (65536 - off % 65536)
      let b := bindEntry s (nbits m 4 10)
      let enc := nbit m 2
      if !nbit m 0 then .error .xlateFault
      else if write && nbit m 1 then .error .permission
      else if nsShift ns < bindShift b then .error .malformed
      else if enc && (nsShift ns ≠ 12 || !nbit (leAt b 12 2) 4) then .error .malformed
      else
        let lba := (nbits m 16 40 * 65536 + off % 65536) / 2 ^ bindShift b
        let blocks := n / 2 ^ bindShift b
        let wlen := if enc then n / 4096 * 4160 else n
        let e : SubCmd := { conn := 0, nsid := leAt b 8 4, lba := lba, blocks := blocks, off := pos, len := n, woff := wpos, wlen := wlen,
                            enc := enc, state := .unsent }
        match resolveFrom s ns write fuel (off + n) (len - n) (pos + n) (wpos + wlen) with
        | .error x => .error x
        | .ok es => .ok ((e, b) :: es)

/-- The connections of the sub-commands of a command, picked once every extent is resolved; none when a binding has none that is READY
(R182). -/
def pickConns (s : State) (storq : Nat) (es : List (SubCmd × Bytes)) : Option (List SubCmd) :=
  es.mapM (fun e => (pickConn s storq e.2).map (fun n => { e.1 with conn := n }))

/-- R182: resolution of a STOR_CMD descriptor. -/
def resolveCmd (s : State) (q : Queue) (d : Bytes) : Except Status (Bytes × List SubCmd) :=
  match namespaceOf s q.inst (byteAt d 37) with
  | none => .error .malformed
  | some ns =>
    let off := leAt d 24 8 * 2 ^ nsShift ns
    let len := leAt d 32 4 * 2 ^ nsShift ns
    if len ≠ descLen d || leAt ns 8 4 * 65536 < off + len then .error .malformed
    else
      match resolveFrom s ns (byteAt d 36 = 1) 18 off len 0 0 with
      | .error x => .error x
      | .ok es => (match pickConns s q.storq es with | some l => .ok (ns, l) | none => .error .peerLost)

/-- Whether the resolution of a command comes to its map entries (R182). -/
def readsMap (s : State) (q : Queue) (d : Bytes) : Bool :=
  match namespaceOf s q.inst (byteAt d 37) with
  | none => false
  | some ns =>
    let len := leAt d 32 4 * 2 ^ nsShift ns
    decide (len = descLen d) && decide (leAt d 24 8 * 2 ^ nsShift ns + len ≤ leAt ns 8 4 * 65536)

/-- The refusal of an encrypted command whose key slot is stopped or empty (R202). -/
def cmdKeyRefusal (s : State) (ns : Bytes) (es : List SubCmd) : Option Status :=
  if es.any (fun e => e.enc) then passRefusal s (leAt ns 12 2) 6 4096 else none

/-- A STOR_CMD completes without anything sent: an outcome, or with `qerr` a failing completion. -/
def endStor (qp pos : Nat) (st : Status) (value : Option DWord) (qerr : Bool) (s : State) : State :=
  match (getQueue s qp).jobs.find? (fun j => decide (j.lastPos = pos)) with
  | none => s
  | some j =>
    let r := plainResult j.descs st 0
    let s1 := if st = .shed then incr cSTR_SHED_CMDS s else s
    finishJob qp pos { r with qerr := qerr, value := value.getD r.value } (incr cSTR_CMDS_ERR (incr cSTR_CMDS_DONE s1))

/-- The command of a queue's job, when its data are still to come. -/
def waitingCmd (s : State) (qp pos : Nat) : Option (Nat × StorCmd) :=
  s.str.cmds.find? (fun e => e.2.owner = .queue qp pos && !e.2.ready)

/-- The write data of a storage job have come back (R173, R182, R183): the sub-commands are issued once the passes have run, or the job
fails. -/
def storBack (qp pos : Nat) (r : ReadReply) (s : State) : State :=
  match waitingCmd s qp pos with
  | none => s
  | some (k, c) =>
    match r with
    | .got bs => pushCmd k (setCmd k { c with plain := some bs } s)
    | .failed st => endStor qp pos st none true (dropCmd k s)
    | .wait => s
    | .stall => s

/-- A resolved command is issued: a write reads its data through the DTU first (R173). -/
def issueCmd (qp : Nat) (q : Queue) (j : Job) (ns : Bytes) (es : List SubCmd) (r : ReadOutcome) (s : State) : State :=
  let d := j.lastDesc
  let write := decide (byteAt d 36 = 1)
  let total := (es.map SubCmd.wlen).sum
  let c : StorCmd :=
    { owner := .queue qp j.lastPos, inst := q.inst, write := write, nsid := byteAt d 37, slba := leAt d 24 8, keySlot := leAt ns 12 2,
      dva := descAddr d, len := descLen d, ro := roAllowed s q.inst (descRo d), subs := es, wire := List.replicate total 0, ready := !write,
      plain := none, startedAt := none, lastByte := none }
  let k := s.str.nextCmd
  let s1 := setCmd k c { s with str := { s.str with nextCmd := k + 1 } }
  if write then
    let (rep, s2) := dtuRead .storage q.inst (descAddr d) (descLen d) r (.jobData qp j.lastPos) s1
    match rep with
    | .stall => s
    | _ => storBack qp j.lastPos rep (beginJob qp j.lastPos s2)
  else pushCmd k (beginJob qp j.lastPos s1)

/-- STOR_CMD_EXECUTE (R182, R187, R202): the next storage job of a queue is resolved and issued, after the commands that wait for a cipher
pass have been tried again (R148); `mapEcc` is the ECC result of its map entries. -/
def execStorCmdExecute (qp : Nat) (r : ReadOutcome) (mapEcc : EccResult) (s0 : State) : Result :=
  let s := retryCmds s0
  let q := getQueue s qp
  match nextJob s qp 3 with
  | none => .next s
  | some j =>
    if queueShed s q then .next (endStor qp j.lastPos .shed none false s)
    else if 65536 ≤ outstandingCmds s || storDeferred s q then .next s
    else
      let ecc := if readsMap s q j.lastDesc then mapEcc else .clean
      let s1 := hbmBlockRead ecc s
      if ecc = .uncorrectable then
        let f := takeFree s1
        .next (endStor qp j.lastPos .storageError (some (Config.freeDWord f.1 &&& 0x1FFFFF)) false (evStr 3 f.2))
      else
        match resolveCmd s q j.lastDesc with
        | .error st => .next (endStor qp j.lastPos st none false s1)
        | .ok (ns, es) =>
          match cmdKeyRefusal s ns es with
          | some st => .next (endStor qp j.lastPos st none false s1)
          | none => .next (issueCmd qp q j ns es r s1)

/-- A connection as table 3 shows it. -/
def connBytes (c : Conn) : Bytes :=
  let st := match c.state with | .idle => 0 | .opening => 1 | .ready => 2 | .closing => 3 | .failed => 4
  let fl := c.v6.toNat + 2 * c.hdgst.toNat + 4 * c.ddgst.toNat + 8 * c.ecn.toNat + 16 * c.recorder.toNat
  [BitVec.ofNat 8 st, BitVec.ofNat 8 fl] ++ toLe 2 c.outstanding ++ toLe 2 c.qsize ++ toLe 2 c.lport ++ toLe 2 c.rport
    ++ [BitVec.ofNat 8 c.port, BitVec.ofNat 8 c.cls] ++ toLe 4 c.maxH2c ++ slice c.raddr 0 16

/-- Whether the bytes of an entry are no reserved encoding (R180, R181, R188). -/
def strLegal (table : Nat) (d : Bytes) : Bool :=
  match table with
  | 0 => let m := leAt d 0 8; !nbit m 3 && decide (nbits m 14 2 = 0) && decide (nbits m 56 8 = 0)
  | 1 =>
    decide (leAt d 0 2 < 16384) && decide (leAt d 0 2 % 8192 ≤ 4127) && decide (byteAt d 2 ≤ 1) && decide (leAt d 4 4 < 2 ^ 30)
      && decide (leAt d 8 4 ≤ 2 ^ 30) && zeroAt d 14 2
      && (!nbit (leAt d 0 2) 13 || (decide (byteAt d 3 ≠ 0) && decide (1 ≤ leAt d 8 4)))
  | 2 =>
    let s := leAt d 12 2 % 16
    ([0, 2, 4, 6].all (fun o => leAt d o 2 < 1024 || leAt d o 2 = 0xFFFF)) && (s = 9 || s = 12 || !nbit (leAt d 12 2) 5)
      && decide (leAt d 12 2 < 64) && zeroAt d 14 2
  | _ =>
    decide (byteAt d 0 < 8) && decide (byteAt d 1 ≤ 2) && decide (byteAt d 2 < (if byteAt d 1 = 2 then 32 else 128)) && zeroAt d 4 28
      && (if byteAt d 1 = 0 then byteAt d 2 = 0 && byteAt d 3 = 0 else decide (1 ≤ byteAt d 3) && decide (byteAt d 3 ≤ 100))

/-- Whether an entry belongs to the recorder or the image, so that only Crater writes it (R181, R188). -/
def strProtected (s : State) (table index : Nat) : Bool :=
  match table with
  | 0 => inRanges s.str.protExtents index
  | 1 => false
  | 2 => s.str.protBindings.contains index
  | _ => decide (index < 1024)

/-- Entries of a table. -/
def strEntries (table : Nat) : Nat :=
  match table with
  | 0 => 2 ^ 30
  | 1 => 4096
  | 2 => 1024
  | 3 => 1024
  | 4 => 8192
  | 5 => 32
  | _ => 256

/-- A write of an STR table (R182, R188): 0 map, 1 namespace, 2 binding, 4 stream. -/
def strWrite (crater : Bool) (table index : Nat) (d : Bytes) (s : State) : TableReply × State :=
  if 6 < table then (refuse 3, s)
  else if strEntries table ≤ index then (refuse 1, s)
  else if table = 3 || table = 5 || table = 6 then (refuse 2, s)
  else if strProtected s table index && !crater then (refuse 2, s)
  else if !strLegal table d then (refuse 3, s)
  else
    let str := match table with
      | 0 => { s.str with map := mset (fun _ => List.replicate 8 0) s.str.map index (slice d 0 8) }
      | 1 => { s.str with namespaces := mset (fun _ => List.replicate 16 0) s.str.namespaces index (slice d 0 16) }
      | 2 => { s.str with bindings := mset (fun _ => List.replicate 16 0) s.str.bindings index (slice d 0 16) }
      | _ => { s.str with streams := mset (fun _ => List.replicate 32 0) s.str.streams index (slice d 0 32) }
    (wrote index, { s with str := str })

end Sys2Proof.Machine
end

