-- ==== Sys2Proof/Machine/Player.lean ====
section
/-! DEFINITION. The message player (R196–R200). -/

namespace Sys2Proof.Machine

/-- A play channel that the image does not configure. -/
def PlayChannel.init : PlayChannel :=
  { output := 0, loopMask := 0, loopCh := 0, autoMsg := 0xFFFF, autoDelay := 0, template := 0, short := false, l16 := false, state := .idle,
    msg := 0, pos := 0, repeats := 0, gapLeft := 0, autoDue := none, autoAt := none, autoDrill := false, nextDrill := false,
    drill := false, phase := 0, cut := false, next := none, fadeEnd := 0, faded := 0, packet := [],
    rtpSeq := 0, rtpTime := 0, marker := false, waiter := none, recAudio := [] }

/-- A play channel. -/
def getPc (s : State) (n : Nat) : PlayChannel := mget (fun _ => PlayChannel.init) s.str.chans n

/-- The state with a play channel replaced. -/
def setPc (n : Nat) (c : PlayChannel) (s : State) : State :=
  { s with str := { s.str with chans := mset (fun _ => PlayChannel.init) s.str.chans n c } }

/-- A directory entry of the library (R196). -/
def dirEntry (s : State) (m : Nat) : Bytes := mget (fun _ => List.replicate 64 0) s.str.directory m

/-- VALID. -/
def msgValid (d : Bytes) : Bool := nbit (byteAt d 0) 0
/-- EVAC. -/
def msgEvac (d : Bytes) : Bool := nbit (byteAt d 0) 1
/-- ROUTINE. -/
def msgRoutine (d : Bytes) : Bool := nbit (byteAt d 0) 2
/-- DRILL. -/
def msgDrill (d : Bytes) : Bool := nbit (byteAt d 0) 3
/-- SAMPLES. -/
def msgSamples (d : Bytes) : Nat := leAt d 8 4

/-- The player is armed (R198). -/
def playerArmed (s : State) : Bool := levelAt s .str ≠ .normal

/-- Whether a PLAY is refused (R198, R202). -/
def playRefusal (s : State) (ch msg : Nat) : Option Status :=
  let d := dirEntry s msg
  if 32 ≤ ch || 256 ≤ msg || (getPc s ch).output = 0 || !msgValid d then some .malformed
  else if playerArmed s then (if (getPc s ch).autoMsg ≠ 0xFFFF && !msgEvac d then some .permission else none)
  else if msgRoutine d then none else some .permission

/-- A play is accepted: it replaces the channel's current play at the next boundary (R198). -/
def acceptPlay (ch msg : Nat) (ring : Option Bool) (s : State) : State :=
  let c := getPc s ch
  setPc ch { c with next := some msg, nextDrill := false, waiter := match ring with | some g => some g | none => c.waiter } s

/-- Whether a PLAY_STOP is refused (R198). -/
def stopRefusal (s : State) (ch : Nat) : Option Status :=
  if 32 ≤ ch || (getPc s ch).output = 0 then some .malformed
  else if playerArmed s && (getPc s ch).autoMsg ≠ 0xFFFF then some .permission else none

/-- A PLAY of an admin ring completes: with its first sample (R198), or with PERMISSION when its message is stopped before that (DESIGN
CHOICE, log entry 64). -/
def endPlayWait (n : Nat) (st : Status) (s : State) : State :=
  let c := getPc s n
  match c.waiter with
  | some g => adminStor (some g) st 0 (setPc n { c with waiter := none } s)
  | none => s

/-- A play is stopped: it fades to silence over 10 ms (R199); one that waits does not begin. -/
def stopPlay (ch : Nat) (s : State) : State :=
  let c := getPc s ch
  let s1 := if c.next.isSome then endPlayWait ch .permission (setPc ch { c with next := none } s) else s
  if c.state ≠ .playing then s1 else setPc ch { getPc s1 ch with state := .fading, fadeEnd := s.now + ms 10, faded := 0 } s1

/-- AUTO_PLAY_START (R198). -/
def execAutoPlayStart (pc : Nat) (s : State) : Result :=
  let c := getPc s pc
  match c.autoDue, c.autoAt with
  | some m, some t => .next (setPc pc { c with next := some m, nextDrill := c.autoDrill, autoDue := none, autoAt := none } (reachTime t s))
  | _, _ => .next s

/-- Bytes of NVM that hold image banks and what is read in place from them. -/
def bankLoad (s : State) (a n : Nat) : Bytes := loadBytes s.mem.banks a n

/-- Samples of a library block, by format: 24 or 16 bits (R196). -/
def blockSamples (d : Bytes) : Nat := if byteAt d 1 = 1 then 2046 else 1364

/-- A library block and whether its CRC is good (R196). -/
def libraryBlock (s : State) (k : Nat) : Bytes × Bool :=
  match s.str.libAt with
  | none => ([], false)
  | some a =>
    let b := bankLoad s (a + 16384 + 4096 * k) 4096
    (slice b 0 4092, decide (leAt b 4092 4 = (crc32c (slice b 0 4092)).toNat))

/-- Sample `i` of a block, at 24 bits. -/
def librarySample (d b : Bytes) (i : Nat) : BitVec 24 :=
  if byteAt d 1 = 1 then BitVec.ofNat 24 (beAt b (2 * i) 2 * 256) else BitVec.ofNat 24 (beAt b (3 * i) 3)

/-- A sample scaled by its magnitude. -/
def scaleSample (f : Nat → Nat) (x : BitVec 24) : BitVec 24 :=
  if x.msb then BitVec.ofInt 24 (-(f (-x.toInt).toNat : Nat)) else BitVec.ofNat 24 (f x.toNat)

/-- The greatest magnitude that is not above `m` attenuated by `k` steps of 0.5 dB, `m * 10^(-k/40)` (R196). -/
def attenFloor (k m : Nat) : Nat :=
  (List.range 24).foldl (fun y i => let z := y + 2 ^ (23 - i); if z ^ 40 * 10 ^ k ≤ m ^ 40 then z else y) 0

/-- A sample attenuated by `k` steps of 0.5 dB (R196); which way a magnitude between two values is rounded is not stated. -/
def attenuated (k : Nat) (x : BitVec 24) : BitVec 24 :=
  scaleSample (fun m =>
    let y := attenFloor k m
    if y ^ 40 * 10 ^ k = m ^ 40 then y else y + (Config.attenUp k x).toNat) x

/-- A sample at place `k` of the linear fade of 480 samples (R199); its rounding is not stated. -/
def faded (k : Nat) (x : BitVec 24) : BitVec 24 :=
  scaleSample (fun m => m * (480 - k) / 480 + (if m * (480 - k) % 480 = 0 then 0 else (Config.fadeUp k x).toNat)) x

/-- A sample as it is output: attenuated, and faded when the play is stopping. -/
def shapeSample (d : Bytes) (fade : Option Nat) (x : BitVec 24) : BitVec 24 :=
  let y := if byteAt d 16 = 0 then x else attenuated (byteAt d 16) x
  match fade with | some k => faded k y | none => y

/-- Samples as bytes, big-endian, 24 bits each. -/
def sampleBytes (xs : List (BitVec 24)) : Bytes := xs.flatMap (fun x => toBe 3 x.toNat)

/-- Samples of an AES67 packet (R197). -/
def packetSamples (c : PlayChannel) : Nat := if c.short then 6 else 48

/-- An AES67 packet: the template's headers with marker, sequence number and timestamp, and the samples (R197). -/
def rtpPacket (c : PlayChannel) (h payload : Bytes) : Bytes :=
  let o := h.length - 12
  let pt := byteAt h (o + 1) % 128 + (if c.marker then 128 else 0)
  fixUdpSum (fixLengths (patch h o ([0x80, BitVec.ofNat 8 pt] ++ toBe 2 c.rtpSeq ++ toBe 4 c.rtpTime) ++ payload))

/-- A channel's packets that are complete leave SP23 for FP1 as class-7 frames of instance 4,101 (R173, R197). -/
def sendPackets (n : Nat) : Nat → State → State
  | 0, s => s
  | fuel + 1, s =>
    let c := getPc s n
    let k := 3 * packetSamples c
    match mfind s.str.templates c.template with
    | none => setPc n { c with packet := [] } s
    | some t =>
      if c.packet.length < k then s
      else
        let raw := slice c.packet 0 k
        let payload := if c.l16 then (List.range (packetSamples c)).flatMap (fun i => slice raw (3 * i) 2) else raw
        let f := { newFrame (rtpPacket c t.header payload) 23 4101 false s.now with
          cls := 7, ls := true, encap := if t.tunnel = 0xFFFFFFFF then none else some (tunnelAt s t.tunnel) }
        let c1 := { c with packet := c.packet.drop k, rtpSeq := (c.rtpSeq + 1) % 65536, marker := false,
                           rtpTime := (c.rtpTime + packetSamples c) % 2 ^ 32 }
        sendPackets n fuel (toIngress 1 f (setPc n c1 s))

/-- Whether a stream records a play channel (R188, SOURCE 2). -/
def playStreamed (s : State) (n : Nat) : Bool :=
  s.str.streams.any (fun e => nbit (byteAt e.2 0) 0 && decide (byteAt e.2 1 = 2) && decide (byteAt e.2 2 = n))

/-- Samples delivered to one loop of a channel's mask. -/
def toLoopAudio (ch : Nat) (bs : Bytes) (lp : Nat) (s : State) : State :=
  let x := getLoop s lp
  if !x.on then s else setLoop lp { x with playAudio := mset (fun _ => []) x.playAudio ch (mget (fun _ => []) x.playAudio ch ++ bs) } s

/-- Samples of a channel are output (R197): to its loops, or in packets; kept for the recorder when a stream takes them. -/
def outputSamples (n : Nat) (xs : List (BitVec 24)) (s : State) : State :=
  let c := getPc s n
  let bs := sampleBytes xs
  let s1 := addCtr cSTR_PLAY_SAMPLES xs.length s
  let k : AudioChunk := { at_ := mediaCount s, bytes := bs }
  let c1 := { c with phase := (c.phase + xs.length) % 48, recAudio := if playStreamed s n then c.recAudio ++ [k] else c.recAudio }
  let s2 := setPc n c1 s1
  if c.output = 1 then forEach (toLoopAudio c.loopCh bs) ((List.range 4).filter (fun lp => nbit c.loopMask lp)) s2
  else if s.pcr.refuge then s2
  else
    let c2 := getPc s2 n
    let t := if c2.marker && c2.packet.isEmpty then mediaCount s % 2 ^ 32 else c2.rtpTime
    sendPackets n xs.length (setPc n { c2 with packet := c2.packet ++ bs, rtpTime := t } s2)

/-- The samples of a packet that the end of a play leaves incomplete are sent, filled up with silence (R199; DESIGN CHOICE, log entry 64). -/
def flushPacket (n : Nat) (s : State) : State :=
  let c := getPc s n
  let k := 3 * packetSamples c
  if c.output ≠ 2 || c.packet.isEmpty || s.pcr.refuge then s
  else sendPackets n 1 (setPc n { c with packet := c.packet ++ List.replicate (k - c.packet.length) 0 } s)

/-- A play ends (R199). -/
def endPlay (n : Nat) (s : State) : State :=
  let s1 := flushPacket n s
  evStr 9 (setPc n { getPc s1 n with state := .idle, packet := [], gapLeft := 0, phase := 0, cut := false, drill := false } s1)

/-- The play that waits begins (R198): from its first sample, in place of the current one. -/
def beginPlay (n msg : Nat) (s0 : State) : State :=
  let s := flushPacket n s0
  let c := getPc s n
  evStr 8 (setPc n { c with state := .playing, msg := msg, pos := 0, repeats := 0, gapLeft := 0, next := none, drill := c.nextDrill,
                            phase := 0, cut := false, packet := [], marker := true } s)

/-- Samples that are output at most: up to the end of the millisecond when the play is to be cut or replaced (R198). -/
def blockLimit (c : PlayChannel) (n : Nat) : Nat := if c.cut || c.next.isSome then min n (48 - c.phase) else n

/-- The rest of the current library block is output, or silence in its place when its CRC fails (R199). -/
def outputBlock (n : Nat) (s : State) : State :=
  let c := getPc s n
  let d := dirEntry s c.msg
  let per := blockSamples d
  let b := libraryBlock s (leAt d 4 4 + c.pos / per)
  let left := blockLimit c (min (per - c.pos % per) (msgSamples d - c.pos))
  let fading := decide (c.state = .fading)
  let k := if fading then min left (480 - c.faded) else left
  let xs := (List.range k).map (fun i =>
    if b.2 then shapeSample d (if fading then some (c.faded + i) else none) (librarySample d b.1 (c.pos % per + i)) else 0)
  let s1 := if b.2 then s else evStr 7 (incr cSTR_LIB_CRC_ERR s)
  let c1 := { c with pos := c.pos + k, faded := if fading then c.faded + k else c.faded }
  let s2 := outputSamples n xs (setPc n c1 s1)
  if (getPc s2 n).next.isSome then s2 else endPlayWait n .ok s2

/-- A 1 ms boundary of the play, at which it is cut or replaced (R198). -/
def atBoundary (n : Nat) (s : State) : State :=
  let c := getPc s n
  if c.state ≠ .idle && c.phase ≠ 0 then s
  else
    let s1 := if c.cut && c.state ≠ .idle then endPlay n s else s
    match (getPc s1 n).next with | some m => beginPlay n m s1 | none => s1

/-- PLAY_BLOCK_OUTPUT (R198, R199): at a boundary a play that waits takes the channel; then a block, or silence between repeats. -/
def execPlayBlockOutput (pc : Nat) (s : State) : Result :=
  if !s.str.ready then .next s
  else
    let s1 := atBoundary pc s
    let c := getPc s1 pc
    if c.state = .idle then .next s1
    else if 0 < c.gapLeft then
      let k := blockLimit c (min c.gapLeft 1364)
      .next (outputSamples pc (List.replicate k 0) (setPc pc { c with gapLeft := c.gapLeft - k } s1))
    else .next (outputBlock pc s1)

/-- PLAY_REPEAT_END (R199): the last sample of a repeat has been output. -/
def execPlayRepeatEnd (pc : Nat) (s : State) : Result :=
  let c := getPc s pc
  let d := dirEntry s c.msg
  if c.state ≠ .playing || c.pos < msgSamples d then .next s
  else
    let n := c.repeats + 1
    if leAt d 12 2 ≠ 0 && leAt d 12 2 ≤ n then .next (endPlay pc (setPc pc { c with repeats := n } s))
    else .next (setPc pc { c with repeats := n, pos := 0, gapLeft := 48 * leAt d 14 2 } s)

/-- PLAY_FADE_END (R199): 10 ms after the stop. -/
def execPlayFadeEnd (pc : Nat) (s : State) : Result :=
  let c := getPc s pc
  if c.state ≠ .fading then .next s else .next (endPlay pc (reachTime c.fadeEnd s))

/-- The message that an entry to DRILL starts on a channel (R198). -/
def drillMessage (s : State) (m : Nat) : Nat := let a := leAt (dirEntry s m) 18 2; if a = 0xFFFF then m else a

/-- One play channel as an alarm level reaches the engine (R198, R199). At NORMAL every EVAC and DRILL play stops, one that waits with
it; ROUTINE plays go on. On entry to EMERGENCY from DRILL a play that the drill has called for is cut. -/
def levelAtChannel (old new : AlarmState) (n : Nat) (s : State) : State :=
  let c := getPc s n
  let ends := fun m => let d := dirEntry s m; msgEvac d || msgDrill d
  if new = .normal then
    let s1 := setPc n { c with autoDue := none, autoAt := none } s
    let s2 := if c.next.any ends then endPlayWait n .permission (setPc n { getPc s1 n with next := none } s1) else s1
    if c.state = .playing && ends c.msg then setPc n { getPc s2 n with state := .fading, fadeEnd := s.now + ms 10, faded := 0 } s2 else s2
  else if c.autoMsg = 0xFFFF || c.output = 0 then s
  else if new = .emergency && (old = .normal || old = .drill) then
    setPc n { c with autoDue := some c.autoMsg, autoAt := none, autoDrill := false, cut := c.drill && c.state = .playing,
                     next := if c.nextDrill then none else c.next } s
  else if new = .drill then setPc n { c with autoDue := some (drillMessage s c.autoMsg), autoAt := none, autoDrill := true } s
  else s

/-- A play channel as table 5 shows it. -/
def pcBytes (c : PlayChannel) : Bytes :=
  let st := match c.state with | .idle => 0 | .playing => 1 | .fading => 2
  [BitVec.ofNat 8 st, BitVec.ofNat 8 c.output] ++ toLe 2 (c.loopMask + 256 * c.loopCh) ++ toLe 2 c.autoMsg ++ toLe 2 c.autoDelay ++ toLe 2 c.msg
    ++ [BitVec.ofNat 8 c.template, BitVec.ofNat 8 (c.short.toNat + 2 * c.l16.toNat)] ++ toLe 4 c.pos ++ toLe 2 c.repeats ++ List.replicate 14 0

/-- A read of an STR table (R180–R196). -/
def strRead (table index : Nat) (s : State) : TableReply × State :=
  if 6 < table then (refuse 3, s)
  else if strEntries table ≤ index then (refuse 1, s)
  else
    let d := match table with
      | 0 => mapEntry s index
      | 1 => nsEntry s index
      | 2 => bindEntry s index
      | 3 => connBytes (getConn s index)
      | 4 => mget (fun _ => List.replicate 32 0) s.str.streams index
      | 5 => pcBytes (getPc s index)
      | _ => dirEntry s index
    (readBack index d, s)

/-- An operation on a table of STR. -/
def strTable (crater : Bool) (op : TableOp) (table index : Nat) (d : Bytes) (s : State) : TableReply × State :=
  match op with
  | .read => strRead table index s
  | .write => strWrite crater table index d s
  | .insert => (refuse 3, s)
  | .delete => (refuse 3, s)

/-- An operation through a view's STR_IND registers. -/
def strIndirect (p : Party) (op : TableOp) (s : State) : State :=
  let r := strTable (isCrater p) op (fld (getView s p rSTR_IND_CTL) 4 4) (fld (getView s p rSTR_IND_ADDR) 0 30)
    (viewBytes s p (rSTR_IND_DATA 0) 16) s
  let table := fld (getView s p rSTR_IND_CTL) 4 4
  let s1 := setErr p rSTR_IND_CTL r.1.code r.2
  let s2 := setView p rSTR_IND_CTL (setFld (getView s1 p rSTR_IND_CTL) 4 4 table) s1
  if r.1.code = 0 && op = .read then setViewWords p (rSTR_IND_DATA 0) (bytesToWords 16 r.1.data) s2 else s2

/-- STR_IND_READ. -/
def execStrIndRead (p : Party) (s : State) : Result := .next (strIndirect p .read s)

/-- STR_IND_WRITE. -/
def execStrIndWrite (p : Party) (s : State) : Result := .next (strIndirect p .write s)

end Sys2Proof.Machine
end

