-- ==== Sys2Proof/Machine/Recorder.lean ====
section
/-! DEFINITION. The Sinter recorder (R188–R194). Offsets count the bytes of the log from the first one; a place in the region is the
offset modulo the region's size. -/

namespace Sys2Proof.Machine

/-- The state with the recorder replaced. -/
def setRec (r : Recorder) (s : State) : State := { s with str := { s.str with rec_ := r } }

/-- Bytes of the journal region (R188): extents of 64 KiB. -/
def regionBytes (s : State) : Nat := (getReg s rSTR_JNL_EXTENTS).toNat % 2 ^ 31 * 65536

/-- Bytes of the staging buffer that a record may use (R191): the reserve is for some of them only. -/
def stageLimit (s : State) (reserve : Bool) : Nat :=
  (regFld s rSTR_STAGE_CFG 0 4 - (if reserve then 0 else regFld s rSTR_STAGE_CFG 4 4)) * 2 ^ 30

/-- Bytes that wait in the staging buffer. -/
def stagedBytes (s : State) : Nat := s.str.rec_.head - s.str.rec_.written

/-- Whether the reserve holds records (STR_STATUS.RESERVE_IN_USE). -/
def reserveInUse (s : State) : Bool := s.str.rec_.on && decide (stageLimit s false < stagedBytes s)

/-- WRAP mode in NORMAL (R192). -/
def mayWrap (s : State) : Bool := nbit (getReg s rSTR_JNL_CFG).toNat 0 && levelAt s .str = .normal

/-- Whether `len` more bytes run past the end of the region (R192). -/
def crossesEnd (s : State) (len : Nat) : Bool :=
  let h := s.str.rec_.head
  let p := if h = 0 then 0 else (h - 1) % max 1 (regionBytes s) + 1
  decide (regionBytes s < p + len)

/-- Whether the journal is stopped for a record of `len` bytes (R192). -/
def journalEnds (s : State) (len : Nat) : Bool := !mayWrap s && (s.str.rec_.stopped || crossesEnd s len)

/-- The counts of the second of device time that is running (R190). -/
def rollSecond (s : State) : State :=
  let r := s.str.rec_
  let t := s.now / 1000000000
  if r.second = t then s else setRec { r with second := t, secRecords := 0, secBytes := 0 } s

/-- Whether the rates of R190 allow `n` records with a payload. -/
def rateAdmits (s : State) (n payload : Nat) : Bool :=
  decide (s.str.rec_.secRecords + n ≤ 4000000) && decide (s.str.rec_.secBytes + payload ≤ 5000000000)

/-- A record is lost (R191, R192). -/
def loseRecord (s : State) : State :=
  let r := s.str.rec_
  evStr 4 (incr cSTR_REC_LOST (setRec { r with lost := r.lost + 1 } s))

/-- The journal stops at the end of its region (R192). -/
def stopJournal (s : State) : State :=
  if s.str.rec_.stopped then s else evStr 5 (setRec { s.str.rec_ with stopped := true } s)

/-- Length of a record. -/
def RecordForm.len (f : RecordForm) : Nat := 88 + f.payload.length

/-- The header of a record (R189). -/
def recordHeader (f : RecordForm) (seq time inv : Nat) (enc : Bool) : Bytes :=
  toLe 2 0x534A ++ [1, BitVec.ofNat 8 f.type] ++ toLe 4 f.len ++ toLe 8 seq ++ toLe 8 time ++ toLe 6 inv ++ toLe 2 f.stream
    ++ [BitVec.ofNat 8 (f.flags + (if enc then 8 else 0)), 0, 0, 0] ++ toLe 4 f.count ++ toLe 8 f.arg

/-- The record pass and the chain pass of a record (R190): its bytes and its CHAIN. -/
def recordPasses (f : RecordForm) (s : State) : Except Status (Bytes × Bytes) × State :=
  let slot := s.crt.roles.recorder
  let seq := s.str.rec_.nextSeq
  match getSlot s slot with
  | none => (.error .keyAbsent, countRefusal slot .keyAbsent s)
  | some k =>
    let head := recordHeader f seq s.now k.invocations (!k.integrity)
    match sealJob slot 5 head f.payload s with
    | (.error e, s1) => (.error e, s1)
    | (.ok j, s1) =>
      match sealJob s.crt.roles.chain 5 (s.str.rec_.prevChain ++ toLe 8 seq ++ j.tag) [] s1 with
      | (.error e, s2) => (.error e, s2)
      | (.ok c, s2) => (.ok (head ++ j.bytes ++ j.tag ++ toLe 6 c.inv ++ toLe 2 0 ++ c.tag, c.tag), s2)

/-- A record is formed and appended (R189–R191), with whether its passes have been made. -/
def appendRecord (f : RecordForm) (s : State) : Bool × State :=
  match recordPasses f s with
  | (.error _, s1) => (false, s1)
  | (.ok (bs, chain), s1) =>
    let r := s1.str.rec_
    let was := reserveInUse s1
    let stop := r.head + bs.length
    let r1 := { r with nextSeq := r.nextSeq + 1, head := stop, prevChain := chain, staged := r.staged ++ bs, secRecords := r.secRecords + 1 }
    let r2 := { r1 with secBytes := r.secBytes + f.payload.length, marks := r.marks ++ [{ seq := r.nextSeq, stop := stop, chain := chain }],
                        owed := if f.type = 3 || f.type = 4 then r.owed ++ [r.nextSeq] else r.owed, stopped := false }
    let s2 := incr cSTR_REC_RECORDS (setRec r2 s1)
    (true, if reserveInUse s2 && !was then evStr 6 s2 else s2)

/-- The GAP record that precedes the next record that fits (R191), with whether it has been appended where one is due. -/
def gapRecord (s : State) : Bool × State :=
  let n := s.str.rec_.lost
  if n = 0 then (true, s)
  else
    let f : RecordForm := { type := 5, stream := 0, flags := 0, count := min n 4294967295, arg := 0, payload := [], reserve := true }
    match appendRecord f s with
    | (false, s1) => (false, s1)
    | (true, s1) => (true, incr cSTR_REC_GAP (setRec { s1.str.rec_ with lost := 0 } s1))

/-- Whether a record finds room in the staging buffer, with the GAP record that precedes it. -/
def recordFits (s : State) (f : RecordForm) : Bool :=
  let gap := if s.str.rec_.lost = 0 then 0 else 88
  decide (stagedBytes s + gap + f.len ≤ stageLimit s f.reserve)

/-- A record is formed, or lost (R190–R192): a refused pass loses it too, and the number of those lost is kept until a GAP record gives it. -/
def formRecord (f : RecordForm) (s0 : State) : State :=
  let s := rollSecond s0
  let gap := if s.str.rec_.lost = 0 then 0 else 1
  if !s.str.rec_.on then s
  else if journalEnds s (88 * gap + f.len) then loseRecord (stopJournal s)
  else if !recordFits s f || !rateAdmits s (gap + 1) f.payload.length then loseRecord s
  else
    match gapRecord s with
    | (false, s1) => loseRecord s1
    | (true, s1) =>
      match appendRecord f s1 with
      | (true, s2) => s2
      | (false, s2) => loseRecord s2

/-- The gates of the two passes of a record, and of a GAP record before it (R190). -/
def recordGates (s : State) : List (Nat × JobGate) :=
  [(s.crt.roles.recorder, jobGate s s.crt.roles.recorder 5 2 9216), (s.crt.roles.chain, jobGate s s.crt.roles.chain 5 2 40)]

/-- Whether no record can be formed now: SEQ has come to its high-water mark (R193), or a pass has to wait (R148, R167). -/
def recordsWait (s : State) : Bool :=
  s.str.rec_.on && (decide (s.str.rec_.high ≤ s.str.rec_.nextSeq + 1) || (recordGates s).any (fun g => decide (g.2 ≠ .go)))

/-- Records that wait are formed in their order, as long as that can be (R193). -/
def formWaiting : Nat → State → State
  | 0, s => s
  | fuel + 1, s =>
    match s.str.rec_.waiting with
    | [] => s
    | f :: rest =>
      if recordsWait s then forEach (fun g s => waitJob g.1 g.2 s) (recordGates s) s
      else formWaiting fuel (formRecord f (setRec { s.str.rec_ with waiting := rest } s))

/-- Every record that waits is formed, when it can be. -/
def formDue (s : State) : State := formWaiting s.str.rec_.waiting.length s

/-- A record is to be formed: at once, or behind those that wait. -/
def offerRecord (f : RecordForm) (s : State) : State :=
  if s.str.rec_.on then formDue (setRec { s.str.rec_ with waiting := s.str.rec_.waiting ++ [f] } s) else s

/-- Flags of the open capture (R189, R194). -/
def captureFlags : Capture → Nat
  | .none => 0
  | .emergency => 1
  | .drill => 2

/-- A capture opens (R194). -/
def openCapture (c : Capture) (s : State) : State :=
  let f : RecordForm :=
    { type := 3, stream := 0, flags := captureFlags c, count := 0, arg := (sourcesWord s).toNat, payload := [], reserve := true }
  let s1 := offerRecord f s
  if s.str.rec_.on then setRec { s1.str.rec_ with capture := c } s1 else s

/-- The open capture closes (R194). -/
def closeCapture (s : State) : State :=
  let c := s.str.rec_.capture
  let f : RecordForm := { type := 4, stream := 0, flags := captureFlags c, count := 0, arg := 0, payload := [], reserve := true }
  let s1 := offerRecord f s
  if c = .none then s else setRec { s1.str.rec_ with capture := .none } s1

/-- The recorder as an alarm level reaches the engine (R194): a capture that runs goes on through HOLDOVER (R45). -/
def captureLevel (level : AlarmState) (s : State) : State :=
  match level with
  | .normal => closeCapture s
  | .drill => if s.str.rec_.capture = .none then openCapture .drill s else s
  | _ => if s.str.rec_.capture = .emergency then s else openCapture .emergency (closeCapture s)

/-- The recorder starts (R193): behind the anchored record, at the committed high-water mark, with an OPEN record that chains to the
anchored CHAIN. The mark is committed anew before SEQ is used (log entry). -/
def startRecorder (s : State) : State :=
  let r := s.str.rec_
  let a : Anchor := r.anchor.getD { seq := 0, off := 0, chain := List.replicate 16 0, part := [] }
  let r1 := { Recorder.reset with on := true, nextSeq := r.high, head := a.off, flushed := a.off, written := a.off, durable := a.seq, prevChain := a.chain }
  let r2 := { r1 with staged := a.part, stagedFrom := a.off - a.part.length, anchor := r.anchor, high := r.high + 2 ^ 24 }
  let r3 := { r2 with flushAt := s.now + ms (regFld s rSTR_JNL_CFG 8 8), second := s.now / 1000000000 }
  offerRecord { type := 1, stream := 0, flags := 0, count := 0, arg := a.seq, payload := [], reserve := true } (setRec r3 s)

/-- The recorder stops at a zeroisation (R202): staged records are discarded. -/
def dropRecorder (s : State) : State :=
  let r := s.str.rec_
  let n := (r.marks.length)
  let kept := { Recorder.reset with anchor := r.anchor, high := r.high }
  if !r.on then s else addCtr cSTR_REC_LOST n (addCtr cCPH_ZEROISED_DROP n (setRec kept s))

/-- A stream entry (R188). -/
def streamEntry (s : State) (n : Nat) : Bytes := mget (fun _ => List.replicate 32 0) s.str.streams n

/-- EMERG_SET. -/
def streamEmerg (e : Bytes) : Bool := nbit (byteAt e 0) 1

/-- Whether a stream is active (R188). -/
def streamActive (s : State) (e : Bytes) : Bool :=
  nbit (byteAt e 0) 0 && (nbit (byteAt e 0) 2 || (streamEmerg e && levelAt s .str ≠ .normal))

/-- The first frame that a RECORD action has put at SP23 for a stream, and the others (R110). -/
def takeRecorded (stream : Nat) : List Frame → Option (Frame × List Frame)
  | [] => none
  | f :: fs => if f.stream = some stream then some (f, fs) else (takeRecorded stream fs).map (fun r => (r.1, f :: r.2))

/-- A DATA record (R189). -/
def dataRecord (s : State) (stream : Nat) (e : Bytes) (trunc : Bool) (count arg : Nat) (payload : Bytes) : RecordForm :=
  { type := 2, stream := stream, flags := captureFlags s.str.rec_.capture + (if trunc then 4 else 0), count := count, arg := arg,
    payload := payload, reserve := streamEmerg e }

/-- Data of a stream come to the recorder: recorded when the stream is active, otherwise discarded without a count (R188). -/
def recordData (stream : Nat) (e : Bytes) (trunc : Bool) (count arg : Nat) (payload : Bytes) (s : State) : State :=
  if streamActive s e then formRecord (dataRecord s stream e trunc count arg payload) s else s

/-- The oldest frame of a stream at SP23 is taken: its first 9,216 bytes (R189). -/
def recordFrame (stream : Nat) (e : Bytes) (s : State) : State :=
  match takeRecorded stream (mget (fun _ => []) s.sinks 23) with
  | none => s
  | some (f, rest) =>
    recordData stream e (decide (9216 < f.bytes.length)) f.bytes.length 0 (f.bytes.take 9216)
      { s with sinks := mset (fun _ => []) s.sinks 23 rest }

/-- Bytes of samples that wait for the recorder. -/
def chunkBytes (cs : List AudioChunk) : Nat := (cs.map (fun c => c.bytes.length)).sum

/-- What is left after the first `n` bytes, whole samples, have been taken. -/
def dropChunks : Nat → List AudioChunk → List AudioChunk
  | _, [] => []
  | n, c :: cs =>
    if c.bytes.length ≤ n then dropChunks (n - c.bytes.length) cs
    else { at_ := c.at_ + n / 3, bytes := c.bytes.drop n } :: cs

/-- One RECORD_MS of the audio of a stream is taken, once it is there (R188): ARG is the media-clock count of its first sample (R189). -/
def recordAudio (stream : Nat) (e : Bytes) (s : State) : State :=
  let n := 48 * byteAt e 3
  let loop := decide (byteAt e 1 = 1)
  let lp := byteAt e 2 % 4
  let ch := byteAt e 2 / 4 % 32
  let cs := if loop then mget (fun _ => []) (getLoop s lp).rxAudio ch else (getPc s (byteAt e 2)).recAudio
  if n = 0 || chunkBytes cs < 3 * n then s
  else
    let x := getLoop s lp
    let c := getPc s (byteAt e 2)
    let rest := dropChunks (3 * n) cs
    let s1 := if loop then setLoop lp { x with rxAudio := mset (fun _ => []) x.rxAudio ch rest } s
      else setPc (byteAt e 2) { c with recAudio := rest } s
    recordData stream e false n (match cs with | k :: _ => k.at_ | [] => 0) ((cs.flatMap AudioChunk.bytes).take (3 * n)) s1

/-- JOURNAL_RECORD_FORM (R188–R192): the records that wait, then the next data of a stream, a frame or RECORD_MS of audio. While no record
can be formed, the data stay where they are (R193). -/
def execJournalRecordForm (stream : Nat) (s0 : State) : Result :=
  let s := formDue s0
  let e := streamEntry s stream
  if 8192 ≤ stream || !nbit (byteAt e 0) 0 || recordsWait s then .next s
  else .next (if byteAt e 1 = 0 then recordFrame stream e s else recordAudio stream e s)

/-- The journal region as a namespace of R181: its first extent, blocks of 4 KiB. -/
def journalNs (s : State) : Bytes := [0, 0, 1, 0] ++ toLe 4 ((getReg s rSTR_JNL_BASE).toNat % 2 ^ 30) ++ List.replicate 8 0

/-- The sub-commands that read or write a range of the region, at 4 KiB boundaries (R182, R195). -/
def journalSubs (s : State) (write : Bool) (off len : Nat) : Except Status (List SubCmd) :=
  match resolveFrom s (journalNs s) write (len / 65536 + 2) off len 0 0 with
  | .error e => .error e
  | .ok es => (match pickConns s 0 es with | some l => .ok l | none => .error .peerLost)

/-- Commands of at most 1 MiB that write the log bytes from `a` to `b`, both at 4 KiB boundaries; one that cannot be resolved stops
the flush, and the records stay staged (R191, R202). -/
def flushRange : Nat → Nat → Nat → State → State
  | 0, _, _, s => s
  | fuel + 1, a, b, s =>
    let r := s.str.rec_
    let size := regionBytes s
    let n := min (min (b - a) 1048576) (size - a % max 1 size)
    if b ≤ a || n = 0 then s
    else
      match journalSubs s true (a % size) n with
      | .error _ => s
      | .ok es =>
        let bs := slice r.staged (a - r.stagedFrom) n
        let upTo := min r.head (a + n)
        let c : StorCmd :=
          { owner := .journal upTo, inst := 4100, write := true, nsid := 0, slba := a / 4096, keySlot := 0, dva := 0, len := n, ro := false,
            subs := es, wire := bs, ready := true, plain := none, startedAt := none, lastByte := none }
        let k := s.str.nextCmd
        let s1 := { s with str := { s.str with nextCmd := k + 1, rec_ := { r with flushed := upTo } } }
        flushRange fuel (a + n) b (pushCmd k (setCmd k c s1))

/-- JOURNAL_FLUSH (R191): FLUSH_MS after the last one, the bytes appended since are written, rounded out to blocks of 4 KiB. -/
def execJournalFlush (s : State) : Result :=
  let r := s.str.rec_
  if !r.on then .next s
  else
    let s1 := reachTime r.flushAt s
    let s2 := setRec { s1.str.rec_ with flushAt := s1.now + ms (regFld s1 rSTR_JNL_CFG 8 8) } s1
    if r.head ≤ r.flushed then .next s2
    else
      let a := r.flushed / 4096 * 4096
      let b := ceilDiv r.head 4096 * 4096
      .next (flushRange ((b - a) / 4096) a b s2)

/-- Log bytes before the earliest journal write that has not ended. -/
def journalBound (s : State) (done : Nat) : Nat :=
  s.str.cmds.foldl (fun m e => match e.2.owner with | .journal _ => min m (e.2.slba * 4096) | _ => m) done

/-- JOURNAL_WRITE_DONE (R193): the records of a completed write become durable. -/
def execJournalWriteDone (s : State) : Result :=
  let r := s.str.rec_
  match r.doneTo with
  | none => .next s
  | some t =>
    let d := journalBound s t
    if !r.on || d ≤ r.written then .next s
    else
      let done := r.marks.filter (fun m => decide (m.stop ≤ d))
      let last := match done.getLast? with | some m => some m | none => r.lastDurable
      let keep := match last with | some m => m.stop / 4096 * 4096 | none => r.stagedFrom
      let from_ := max r.stagedFrom keep
      let r1 := { r with written := d, durable := (last.map RecordMark.seq).getD r.durable, lastDurable := last, staged := r.staged.drop (from_ - r.stagedFrom) }
      let r2 := { r1 with stagedFrom := from_, marks := r.marks.filter (fun m => decide (d < m.stop)), doneTo := if d = t then none else some t }
      .next (addCtr cSTR_REC_BYTES (d - r.written) (setRec r2 s))

/-- Whether the anchor of a durable CAPTURE record is owed (R193). -/
def anchorOwed (r : Recorder) : Bool :=
  match r.lastDurable with
  | some m => r.owed.any (fun q => decide (q ≤ m.seq))
  | none => false

/-- The high-water mark of SEQ is raised as R167 raises that of a slot (R193). -/
def raiseHigh (s : State) : State :=
  let r := s.str.rec_
  if r.high ≤ r.nextSeq + 2 ^ 23 then setRec { r with high := r.high + 2 ^ 24 } s else s

/-- ANCHOR_COMMIT (R193): at most once per 100 ms, and for a durable CAPTURE record at once, the anchor of the last durable record; records
that waited for the high-water mark are formed. -/
def execAnchorCommit (s : State) : Result :=
  let r := s.str.rec_
  if !r.on || s.crt.restarting then .next s
  else
    match r.lastDurable with
    | none => .next (formDue (raiseHigh s))
    | some m =>
      if r.anchor.map Anchor.seq = some m.seq then .next (formDue (raiseHigh s))
      else
        let s1 := if anchorOwed r then s else reachTime ((r.anchorAt.map (· + ms 100)).getD 0) s
        let a : Anchor := { seq := m.seq, off := m.stop, chain := m.chain, part := slice r.staged (m.stop / 4096 * 4096 - r.stagedFrom) (m.stop % 4096) }
        .next (formDue (raiseHigh (setRec { r with anchor := some a, anchorAt := some s1.now, owed := r.owed.filter (fun q => decide (m.seq < q)) } s1)))

end Sys2Proof.Machine
end

