-- ==== Sys2Proof/Machine/Admin.lean ====
section
/-! DEFINITION. The admin commands (R195, R265–R269): each acts when it is the next job of its ring. `g` says that the ring is that of
the service cluster. -/

namespace Sys2Proof.Machine

/-- The job at position `pos` of a queue. -/
def jobAt (s : State) (qp pos : Nat) : Option Job := (getQueue s qp).jobs.find? (fun j => decide (j.lastPos = pos))

/-- An admin command completes with a status, COUNT and VALUE (R267). -/
def adminDone (g : Bool) (j : Job) (st : Status) (count : Nat) (value : DWord) (s : State) : State :=
  finishJob (adminQp g) j.lastPos (adminResult st count value false) s

/-- An admin command completes with an outcome alone. -/
def adminOutcome (g : Bool) (j : Job) (st : Status) (s : State) : State := adminDone g j st 0 0 s

/-- An admin command fails: its access to ADDR has failed (R264). -/
def adminFailed (g : Bool) (j : Job) (st : Status) (s : State) : State :=
  finishJob (adminQp g) j.lastPos (adminResult st 0 0 true) s

/-- A command without data that acts when it is the next job of its ring. -/
def adminPlain (g : Bool) (op : Nat) (f : Job → Bytes → State → State) (s : State) : Result :=
  match nextJob s (adminQp g) op with
  | some j => .next (f j j.lastDesc s)
  | none => .next s

/-- A command that service firmware may not issue (R35, R267). -/
def pfOnly (f : Job → Bytes → State → State) (g : Bool) (j : Job) (d : Bytes) (s : State) : State :=
  if g then adminOutcome g j .permission s else f j d s

/-- ADDR of a command is read (R267): `n` bytes, through the DTU for the key commands. -/
def readAdmin (g key : Bool) (pos addr n : Nat) (r : ReadOutcome) (s : State) : ReadReply × State :=
  if g then (if inSvcMemory s addr n then .got (svcLoad s addr n) else .failed .xlateFault, s)
  else if key then dtuRead .key pf addr n r (.jobData 0 pos) s
  else hostRead pf [(addr, n)] r (.jobData 0 pos) [] s

/-- The bytes of a command are written at an address of its ring's space. -/
def writeAdmin (g : Bool) (addr : Nat) (bs : Bytes) (s : State) : State :=
  if g then svcStore none addr bs s else hostWrite pf addr bs false s

/-- The fields of a QUEUE_CONFIG descriptor that R267 refuses with MALFORMED. -/
def queueConfigBad (s : State) (d : Bytes) : Bool :=
  let qp := leAt d 16 2
  let inst := leAt d 18 2
  let kind := byteAt d 20
  let sq := byteAt d 21
  let cq := byteAt d 22
  let r := getRecord s inst
  let storq := leAt d 30 2
  qp = 0 || decide (pf < inst) || !inQueueRange s inst qp || decide (2 < kind) || decide (1 < byteAt d 23)
    || (kind = 2 && !(decide (r.storqBase ≤ storq) && decide (storq < r.storqBase + r.storqCount)))
    || decide (sq < 4) || decide (16 < sq) || decide (16 < cq) || decide (cq < sq)
    || decide (leAt d 32 8 % min 4096 (64 * 2 ^ sq) ≠ 0) || decide (leAt d 40 8 % min 4096 (16 * 2 ^ cq) ≠ 0)
    || decide (vectorsOf inst ≤ leAt d 24 2) || byteAt d 26 = 0 || decide (1023 < leAt d 28 2)

/-- The queue pair that QUEUE_CONFIG sets up: RUN, its CQ armed (R250, R262). -/
def configuredQueue (d : Bytes) : Queue :=
  let q := { Queue.init with state := .run, kind := (match byteAt d 20 with | 0 => .tx | 1 => .rx | _ => .stor), inst := leAt d 18 2 }
  { q with sqLog2 := byteAt d 21, cqLog2 := byteAt d 22, sqBase := leAt d 32 8, cqBase := leAt d 40 8, vector := leAt d 24 2,
           modCount := byteAt d 26, modUs := leAt d 28 2, tstamp := nbit (byteAt d 23) 0, storq := leAt d 30 2, armed := true }

/-- QUEUE_CONFIG (R267). -/
def execAdminQueueConfig (svcRing : Bool) (s : State) : Result :=
  adminPlain svcRing 0x80 (fun j d s =>
    if queueConfigBad s d then adminOutcome svcRing j .malformed s
    else if (getQueue s (leAt d 16 2)).state ≠ .disabled || isLsPair s (leAt d 16 2) then adminOutcome svcRing j .paused s
    else adminOutcome svcRing j .ok (setQueue (leAt d 16 2) (configuredQueue d) s)) s

/-- QUEUE_RESET (R265, R267). -/
def execAdminQueueReset (svcRing : Bool) (s : State) : Result :=
  adminPlain svcRing 0x81 (fun j d s =>
    if leAt d 16 2 = 0 || 1 < byteAt d 18 then adminOutcome svcRing j .malformed s
    else
      match startReset (leAt d 16 2) (decide (byteAt d 18 = 1)) (some svcRing) s with
      | (some st, s1) => adminOutcome svcRing j st s1
      | (none, s1) => beginJob (adminQp svcRing) j.lastPos s1) s

/-- VF_STATE with CMD QUIESCE, and with a CMD that is neither (R240, R267). -/
def execAdminVfStateQuiesce (svcRing : Bool) (s : State) : Result :=
  adminPlain svcRing 0x83 (fun j d s =>
    if byteAt d 18 = 2 then s
    else if byteAt d 18 ≠ 1 then adminOutcome svcRing j .malformed s
    else
      match quiesceFn (leAt d 16 2) (some svcRing) s with
      | (.done st, s1) => adminOutcome svcRing j st s1
      | (.drains, s1) => beginJob (adminQp svcRing) j.lastPos s1) s

/-- VF_STATE with CMD RUN (R240). -/
def execAdminVfStateRun (svcRing : Bool) (s : State) : Result :=
  adminPlain svcRing 0x83 (fun j d s =>
    if byteAt d 18 ≠ 2 then s
    else let r := runFn (leAt d 16 2) s; adminOutcome svcRing j r.1 r.2) s

/-- DTU_MAP (R245). -/
def execAdminDtuMap (svcRing : Bool) (s : State) : Result :=
  adminPlain svcRing 0x84 (pfOnly (fun j d s =>
    let r := mapSegment (leAt d 16 2) (byteAt d 18) (slice d 20 32) s
    adminOutcome svcRing j r.1 r.2) svcRing) s

/-- DTU_UNMAP (R245): it completes once every access under the old mapping has finished. -/
def execAdminDtuUnmap (svcRing : Bool) (s : State) : Result :=
  adminPlain svcRing 0x85 (pfOnly (fun j d s =>
    let inst := leAt d 16 2
    let all := nbit (byteAt d 19) 0
    if pf < inst || 1 < byteAt d 19 || (!all && 63 < byteAt d 18) then adminOutcome svcRing j .malformed s
    else
      let s1 := unmapSegments inst (if all then none else some (byteAt d 18)) s
      beginJob (adminQp svcRing) j.lastPos { s1 with vfm := { s1.vfm with unmaps := s1.vfm.unmaps ++ [(inst, svcRing)] } }) svcRing) s

/-- PLAY (R198): it completes with the first sample. -/
def execAdminPlay (svcRing : Bool) (s : State) : Result :=
  adminPlain svcRing 0x8E (pfOnly (fun j d s =>
    match playRefusal s (byteAt d 16) (leAt d 18 2) with
    | some st => adminOutcome svcRing j st s
    | none => acceptPlay (byteAt d 16) (leAt d 18 2) (some svcRing) (beginJob (adminQp svcRing) j.lastPos s)) svcRing) s

/-- PLAY_STOP (R199): it completes once the fade has begun. -/
def execAdminPlayStop (svcRing : Bool) (s : State) : Result :=
  adminPlain svcRing 0x8F (pfOnly (fun j d s =>
    match stopRefusal s (byteAt d 16) with
    | some st => adminOutcome svcRing j st s
    | none => adminOutcome svcRing j .ok (stopPlay (byteAt d 16) s)) svcRing) s

/-- STOR_DISCONNECT (R176): a READY connection closes, a FAILED one becomes IDLE. -/
def execAdminStorDisconnect (svcRing : Bool) (s : State) : Result :=
  adminPlain svcRing 0x8B (fun j d s =>
    let n := leAt d 16 2
    let c := getConn s n
    if 1024 ≤ n then adminOutcome svcRing j .malformed s
    else if c.recorder then adminOutcome svcRing j .permission s
    else match c.state with
      | .idle => adminOutcome svcRing j .ok s
      | .failed => adminOutcome svcRing j .ok (idleConn n s)
      | .ready =>
        let c1 := { c with state := .closing, closer := some svcRing, cids := mfilter (fun _ u => u.counts) c.cids }
        beginJob (adminQp svcRing) j.lastPos (setConn n c1 s)
      | _ => adminOutcome svcRing j .paused s) s

/-- The operation that bytes 16–23 of a TABLE_WRITE or TABLE_READ descriptor name (R267, R268); none for one that is not listed. -/
def tableOperation (d : Bytes) (read : Bool) (data : Bytes) (s : State) : Option (TableReply × State) :=
  let op := match byteAt d 18 with
    | 0 => if read then some TableOp.read else none
    | 1 => if read then none else some TableOp.write
    | 2 => if read then none else some TableOp.insert
    | 3 => if read then none else some TableOp.delete
    | _ => none
  match op with
  | none => none
  | some o =>
    match byteAt d 16 with
    | 5 => some (swcTable false o (byteAt d 17) (leAt d 20 4) data s)
    | 6 => some (flpTable false o (byteAt d 17) (leAt d 20 4) data s)
    | 7 => some (tmgTable false o (byteAt d 17) (leAt d 20 4) data s)
    | 9 => some (strTable false o (byteAt d 17) (leAt d 20 4) data s)
    | _ => none

/-- Status of an ERR_CODE (R268). -/
def codeStatus : Nat → Status
  | 0 => .ok
  | 2 => .permission
  | 4 => .poolEmpty
  | 5 => .paused
  | _ => .malformed

/-- VF_CONFIG with its record there (R238). -/
def runVfConfig (g : Bool) (j : Job) (bs : Bytes) (s : State) : State :=
  let r := writeRecord (leAt j.lastDesc 16 2) (slice bs 0 64) s
  adminOutcome g j (codeStatus r.1) r.2

/-- TABLE_WRITE with its data there (R268). -/
def runTableWrite (g : Bool) (j : Job) (bs : Bytes) (s : State) : State :=
  match tableOperation j.lastDesc false bs s with
  | none => adminOutcome g j .malformed s
  | some (r, s1) =>
    adminDone g j (codeStatus r.code) 0 (if r.code = 0 && byteAt j.lastDesc 18 = 2 then BitVec.ofNat 64 r.index else 0) s1

/-- TABLE_READ (R268): the entry is written to its buffer. -/
def execAdminTableRead (svcRing : Bool) (s : State) : Result :=
  adminPlain svcRing 0x87 (fun j d s =>
    match tableOperation d true [] s with
    | none => adminOutcome svcRing j .malformed s
    | some (r, s1) =>
      let bs := r.data.take (descLen d)
      if r.code ≠ 0 then adminOutcome svcRing j (codeStatus r.code) s1
      else if svcRing && !inSvcMemory s1 (descAddr d) bs.length then adminFailed svcRing j .xlateFault s1
      else
        finishWriter (adminQp svcRing) j.lastPos (descAddr d + bs.length - 1) (adminResult .ok bs.length 0 false)
          (writeAdmin svcRing (descAddr d) bs s1)) s

/-- A connect block whose fields are in range (R269). -/
def connectOk (b : Bytes) : Bool :=
  decide (byteAt b 0 < 16) && decide (byteAt b 1 < 16) && decide (byteAt b 2 ≤ 6) && decide (byteAt b 3 = 0) && decide (2 ≤ leAt b 4 2)
    && decide (leAt b 4 2 ≤ 1025) && decide (leAt b 12 4 = 0) && allZero (slice b 56 8)

/-- The connection that a connect block describes; a local port of 0 is chosen by the device (R269). -/
def connectConn (b : Bytes) (free : Nat) : Conn :=
  let fl := byteAt b 1
  let c := { Conn.init with port := byteAt b 0, v6 := nbit fl 0, hdgst := nbit fl 1, ddgst := nbit fl 2, ecn := nbit fl 3, cls := byteAt b 2 }
  { c with qsize := leAt b 4 2, lport := if leAt b 6 2 = 0 then (Config.freeDWord free).toNat % 65536 else leAt b 6 2, rport := leAt b 8 2,
           qid := leAt b 10 2, laddr := slice b 16 16, raddr := slice b 32 16, mac := slice b 48 6, vlan := leAt b 54 2,
           connectData := slice b 64 1024 }

/-- STOR_CONNECT with its block there (R176, R269). -/
def runStorConnect (g : Bool) (j : Job) (bs : Bytes) (s : State) : State :=
  let n := leAt j.lastDesc 16 2
  let c := getConn s n
  if 1024 ≤ n || !connectOk bs then adminOutcome g j .malformed s
  else if c.recorder then adminOutcome g j .permission s
  else if c.state ≠ .idle then adminOutcome g j .paused s
  else
    let f := takeFree s
    openConn n { connectConn bs f.1 with opener := some g } (beginJob (adminQp g) j.lastPos f.2)

/-- Whether a raw capsule carries data to the controller (PRESUMED, NVMe base: bits [1:0] of the opcode, of the fabrics type for 0x7F). -/
def capsuleWrites (b : Bytes) : Bool := decide ((if byteAt b 0 = 0x7F then byteAt b 4 else byteAt b 0) % 4 = 1)

/-- A raw capsule is sent (R267): its CID is the device's, its data in the capsule or asked for by the target. -/
def sendRaw (g : Bool) (j : Job) (b data : Bytes) (s : State) : State :=
  let d := j.lastDesc
  let n := leAt d 16 2
  let r := takeCid n (.raw g (leAt d 24 8) (leAt d 32 4)) (beginJob (adminQp g) j.lastPos s)
  let inline_ := capsuleWrites b && decide (byteAt b 39 = 1)
  let buf := if capsuleWrites b then data else []
  let s1 := setConn n { getConn r.2 n with rawData := buf } r.2
  tcpSend n (pdu (getConn s1 n) 4 0 (patch (slice b 0 64) 2 (toLe 2 r.1)) (if inline_ then data else [])) s1

/-- The refusal of a STOR_RAW (R176, R267). -/
def rawRefusal (s : State) (d : Bytes) : Option Status :=
  let n := leAt d 16 2
  if 1024 ≤ n || 1048576 < leAt d 32 4 then some .malformed
  else if (getConn s n).recorder then some .permission
  else if (getConn s n).state ≠ .ready then some .peerLost
  else none

/-- Whether a connection takes a raw capsule now: it has room, and no other raw capsule is under way. -/
def rawRoom (s : State) (n : Nat) : Bool :=
  connHasRoom s (getConn s n) && !(getConn s n).cids.any (fun e => match e.2 with | .raw _ _ _ => true | _ => false)

/-- The state of a job with its capsule kept. -/
def keepData (qp pos : Nat) (bs : Bytes) (s : State) : State :=
  let q := getQueue s qp
  setQueue qp { q with jobs := q.jobs.map (fun j => if j.lastPos = pos then { j with data := bs } else j) } s

/-- STOR_RAW with its capsule there: the data that it carries to the target are read, and it is sent. -/
def runStorRaw (g : Bool) (j : Job) (b : Bytes) (r : ReadOutcome) (s : State) : State :=
  let d := j.lastDesc
  match rawRefusal s d with
  | some st => adminOutcome g j st s
  | none =>
    if !capsuleWrites b || leAt d 32 4 = 0 then sendRaw g j b [] s
    else
      let (rep, s1) := readAdmin g false j.lastPos (leAt d 24 8) (leAt d 32 4) r s
      match rep with
      | .stall => s
      | .wait => keepData (adminQp g) j.lastPos b (beginJob (adminQp g) j.lastPos s1)
      | .got bs => sendRaw g j b bs s1
      | .failed st => adminFailed g j st s1

/-- The data of an admin command have come back, or the read has failed (R264, R267). -/
def adminBack (g : Bool) (pos : Nat) (r : ReadReply) (s : State) : State :=
  match jobAt s (adminQp g) pos with
  | none => s
  | some j =>
    match r with
    | .stall => s
    | .wait => beginJob (adminQp g) pos s
    | .failed st => adminFailed g j st s
    | .got bs =>
      match descOp j.lastDesc with
      | 0x82 => runVfConfig g j bs s
      | 0x86 => runTableWrite g j bs s
      | 0x88 => queueKeyJob false bs (beginJob (adminQp g) pos s)
      | 0x89 => queueKeyJob true bs (beginJob (adminQp g) pos s)
      | 0x8A => runStorConnect g j bs s
      | 0x8C => if j.data.isEmpty then runStorRaw g j bs .pending s else sendRaw g j j.data bs s
      | _ => s

/-- A command whose ADDR is read first. -/
def adminReads (g key : Bool) (op : Nat) (r : ReadOutcome) (s : State) : Result :=
  match nextJob s (adminQp g) op with
  | none => .next s
  | some j =>
    let (rep, s1) := readAdmin g key j.lastPos (descAddr j.lastDesc) (descLen j.lastDesc) r s
    .next (adminBack g j.lastPos rep s1)

/-- VF_CONFIG (R238). -/
def execAdminVfConfig (svcRing : Bool) (r : ReadOutcome) (s : State) : Result := adminReads svcRing false 0x82 r s

/-- TABLE_WRITE (R268). -/
def execAdminTableWrite (svcRing : Bool) (r : ReadOutcome) (s : State) : Result := adminReads svcRing false 0x86 r s

/-- STOR_CONNECT (R176, R269). -/
def execAdminStorConnect (svcRing : Bool) (r : ReadOutcome) (s : State) : Result := adminReads svcRing false 0x8A r s

/-- KEY_INSTALL (R161, R162): the blob is read through the DTU and handed to Crater. -/
def execAdminKeyInstall (svcRing : Bool) (r : ReadOutcome) (s : State) : Result :=
  if svcRing then adminPlain svcRing 0x88 (fun j _ s => adminOutcome svcRing j .permission s) s else adminReads false true 0x88 r s

/-- KEY_RETIRE (R162). -/
def execAdminKeyRetire (svcRing : Bool) (r : ReadOutcome) (s : State) : Result :=
  if svcRing then adminPlain svcRing 0x89 (fun j _ s => adminOutcome svcRing j .permission s) s else adminReads false true 0x89 r s

/-- STOR_RAW (R267). While its connection has no room the command waits (R177). -/
def execAdminStorRaw (svcRing : Bool) (r data : ReadOutcome) (s : State) : Result :=
  match nextJob s (adminQp svcRing) 0x8C with
  | none => .next s
  | some j =>
    let d := j.lastDesc
    match rawRefusal s d with
    | some st => .next (adminOutcome svcRing j st s)
    | none =>
      if !rawRoom s (leAt d 16 2) then .next s
      else
        let (rep, s1) := readAdmin svcRing false j.lastPos (descAddr d) 64 r s
        match rep with
        | .got b => .next (runStorRaw svcRing j b data s1)
        | _ => .next (adminBack svcRing j.lastPos rep s1)

/-- JNL_READ (R195, R202): the range, whole blocks of 4 KiB, is read through the recorder's connections; once it has been read it is
copied. `mapEcc` is the ECC result of the range's map entries. -/
def execAdminJnlRead (svcRing : Bool) (mapEcc : EccResult) (s : State) : Result :=
  adminPlain svcRing 0x8D (pfOnly (fun j d s =>
    let off := leAt d 16 8
    let n := descLen d
    let a := off / 4096 * 4096
    let len := ceilDiv (off + n) 4096 * 4096 - a
    if (levelAt s .str).emergent then adminOutcome svcRing j .paused s
    else if n = 0 || 16777216 < n || regionBytes s < off + n then adminOutcome svcRing j .malformed s
    else if mapEcc = .uncorrectable then
      let f := takeFree (hbmBlockRead mapEcc s)
      adminDone svcRing j .storageError 0 (Config.freeDWord f.1 &&& 0x1FFFFF) (evStr 3 f.2)
    else
      match journalSubs s false a len with
      | .error st => adminOutcome svcRing j st (hbmBlockRead mapEcc s)
      | .ok es =>
        let c : StorCmd :=
          { owner := .jnl j.lastPos off, inst := 4100, write := false, nsid := 0, slba := a / 4096, keySlot := 0, dva := descAddr d, len := n,
            ro := false, subs := es, wire := List.replicate len 0, ready := true, plain := none, startedAt := none, lastByte := none }
        let k := s.str.nextCmd
        pushCmd k (setCmd k c (beginJob 0 j.lastPos (hbmBlockRead mapEcc { s with str := { s.str with nextCmd := k + 1 } })))) svcRing) s

end Sys2Proof.Machine
end

