-- ==== Sys2Proof/Machine/Links.lean ====
section
/-! DEFINITION. Gondola link frames: sequence, acknowledgement, replay (R356–R361). -/

namespace Sys2Proof.Machine

/-- The link enters RETRAIN (R361). -/
def enterRetrain (g : Nat) (s : State) : State :=
  let l := getLink s g
  if l.state ≠ .up then s
  else evCas 2 (incr (cCAS_G_RETRAINS g) (setLink g { l with state := .retrain, since := s.now } s))

/-- A replay of every unacknowledged frame; after four replays without progress a link that is UP enters RETRAIN instead (R359, R361, R362). -/
def replayChannel (g ch : Nat) (s : State) : State :=
  let l := getLink s g
  let c := getChan l ch
  if (l.state ≠ .up && l.state ≠ .verify) || c.replay.isEmpty then s
  else if l.state = .up && decide (4 ≤ c.replays) then enterRetrain g s
  else
    let s1 := setLink g (setChan l ch { c with replays := c.replays + 1, progressAt := s.now }) (incr (cCAS_G_REPLAYS g) s)
    forEach (fun x s => wireFrame g ch x.seq x.frame s) c.replay s1

/-- Frames of a replay buffer that an ACK frees, when it names one of them. -/
def ackedCount (c : LinkChannel) (ack : Nat) : Option Nat := (c.replay.findIdx? (fun f => f.seq = ack)).map (· + 1)

/-- The SEQ before the oldest unacknowledged frame. -/
def ackBase (c : LinkChannel) : Nat :=
  match c.replay with
  | f :: _ => (f.seq + 4095) % 4096
  | [] => (c.nextSeq + 4095) % 4096

/-- ACK and NAK of a marker take effect on a channel (R355, R359, R361). -/
def takeAck (g ch ack : Nat) (nak : Bool) (s : State) : State :=
  let l := getLink s g
  if !linkCarries l && l.state ≠ .verify then s
  else
    let c := getChan l ch
    match ackedCount c ack with
    | some n =>
      let c1 := { c with replay := c.replay.drop n, replays := 0, progressAt := s.now, nakSeen := nak }
      let s1 := setLink g (setChan l ch c1) s
      pump g ch (if nak && !c.nakSeen then replayChannel g ch s1 else s1)
    | none =>
      if ack ≠ ackBase c then enterRetrain g s
      else
        let s1 := setLink g (setChan l ch { c with nakSeen := nak }) s
        if nak && !c.nakSeen then replayChannel g ch s1 else s1

/-- A link frame as parsed. -/
structure RxLink where
  type : Nat
  ch : Nat
  seq : Nat
  dst : Nat
  local_ : Bool
  src : Nat
  payload : Bytes
deriving DecidableEq, Repr

/-- The parts of a link frame with a good CRC, a known TYPE and a LEN that the frame holds (R356). -/
def parseLink (bs : Bytes) : Option RxLink :=
  let len := leAt bs 4 2
  let t := byteAt bs 0
  if bs.length < 20 + len || len = 0 || 16432 < len || t = 0 || 5 < t then none
  else if leAt bs (16 + len) 4 ≠ (crc32c (slice bs 0 (16 + len))).toNat then none
  else some { type := t, ch := byteAt bs 1 % 2, seq := leAt bs 2 2 % 4096, dst := byteAt bs 6 % 64, local_ := nbit (byteAt bs 6) 7,
              src := byteAt bs 7 % 64, payload := slice bs 16 len }

/-- The NAK flag of a channel is set; an episode that starts is counted. -/
def setNak (g ch : Nat) (s : State) : State :=
  let l := getLink s g
  let c := getChan l ch
  if c.nak then s else incr (cCAS_G_NAK_TX g) (setLink g (setChan l ch { c with nak := true }) s)

/-- The expected SEQ of a channel has been accepted (R360). -/
def acceptSeq (g ch len : Nat) (s : State) : State :=
  let l := getLink s g
  let c := getChan l ch
  let s1 := setLink g (setChan l ch { c with expected := (c.expected + 1) % 4096, heard := true, nak := false }) s
  addCtr (cCAS_G_BYTES_RX g) len (incr (cCAS_G_FRAMES_RX g) s1)

/-- Whether a link in its state receives frames: VERIFY receives TOPO only. -/
def receives (l : Link) (type : Nat) : Bool := l.state = .up || (l.state = .verify && type = 4)

/-- A link frame arrives (R356, R360): the frame when it is accepted. A frame of a TYPE that is not `type` belongs to another row. -/
def receiveLink (g type : Nat) (bs : Bytes) (s : State) : Option RxLink × State :=
  let l := getLink s g
  match parseLink bs with
  | none => (none, if linkCarries l || l.state = .verify then setNak g 1 (setNak g 0 (incr (cCAS_G_CRC_ERR g) s)) else s)
  | some r =>
    if r.type ≠ type || !receives l r.type then (none, s)
    else
      let c := getChan l r.ch
      if r.seq = c.expected then (some r, acceptSeq g r.ch (wireLen r.payload.length) s)
      else
        let back := (c.expected + 4096 - r.seq) % 4096
        if 1 ≤ back && back ≤ 2047 then (none, incr (cCAS_G_DUP_DROP g) s) else (none, setNak g r.ch s)

end Sys2Proof.Machine
end

