-- ==== Sys2Proof/Machine/Cascade.lean ====
section
/-! DEFINITION. The cascade controller: link states, TOPO, routes, fabric frames, the sideband (15_cascade.md). -/

namespace Sys2Proof.Machine

/-- Links that are UP, or in RETRAIN, where frames wait (R362, R377). -/
def upLinks (s : State) : List Nat := (List.range 4).filter (fun g => linkCarries (getLink s g))

/-- The 32 bytes of a TOPO before its TAG (R364). -/
def topoBody (s : State) (leaving : Bool) (ver : Word) : Bytes :=
  toLe 8 Config.serial.toNat ++ toLe 1 (s.ident.cid + 64 * (match s.ident.role with | .standalone => 0 | .head => 1 | .member => 2))
    ++ toLe 1 ((if leaving then 1 else 0) + (if s.pcr.cfgReady then 2 else 0)) ++ toLe 2 0 ++ toLe 4 ver.toNat
    ++ ((ownPeers s).map (fun p => BitVec.ofNat 8 p)) ++ toLe 8 s.ident.tag.toNat ++ toLe 4 0

/-- TAG of a TOPO body under a key: IV SERIAL ‖ TOPO_VER, the most significant byte of each first (R156, R364). -/
def topoTag (key body : Bytes) : Bytes := gmac key (toBe 8 (leAt body 0 8) ++ toBe 4 (leAt body 12 4)) body

/-- A TOPO is sent on the links named: one version for the send, kept in Crater retention (R364). A device that is ZEROISED or has no
Cascade key sends none (R365). -/
def sendTopo (leaving : Bool) (gs : List Nat) (s : State) : State :=
  match slotKey s s.crt.roles.cascade with
  | none => s
  | some key =>
    if s.crt.sec = .zeroised || gs.isEmpty then s
    else
      let ver := s.cas.topoVer + 1
      let body := topoBody s leaving ver
      let s1 := setRet { s.crt.ret with topoVer := ver } { s with cas := { s.cas with topoVer := ver } }
      let f : LinkFrame := { type := 4, dst := 0, src := s.ident.cid, local_ := true, payload := body ++ topoTag key body }
      forEach (fun g s => sendLink g 0 f s) gs s1

/-- Frames queued for a device that has become unreachable are dropped (R377). -/
def purgeQueue (k g ch : Nat) (s : State) : State :=
  let l := getLink s g
  let c := getChan l ch
  let gone := c.queue.filter (fun f => f.dst = k && !f.local_)
  if gone.isEmpty then s
  else
    let s1 := setLink g (setChan l ch { c with queue := c.queue.filter (fun f => f.dst ≠ k || f.local_) }) s
    addCtr cCAS_TLP_LOST (gone.filter (fun f => f.type = 2)).length (addCtr cCAS_LOST_DEST_DROP gone.length s1)

/-- A device has become unreachable (R39, R377). -/
def deviceLost (k : Nat) (s : State) : State :=
  let held := match mfind s.cas.tlpHold k with | some h => h.frames.length | none => 0
  let s1 := { s with cas := { s.cas with tlpHold := merase s.cas.tlpHold k } }
  let s2 := addCtr cCAS_TLP_LOST held (addCtr cCAS_LOST_DEST_DROP held s1)
  let s3 := forEach (fun g s => purgeQueue k g 1 (purgeQueue k g 0 s)) (List.range 4) s2
  memberGone k (logEvent .memberLost (toLe 4 k) (incr cCAS_MEMBER_LOSSES (evCas 4 s3)))

/-- Whether the latest TOPO of a device shows CFG_READY. -/
def topoReady (s : State) (k : Nat) : Bool := match mfind s.cas.topo k with | some t => t.cfgReady | none => false

/-- Serial of a device from its latest TOPO. -/
def topoSerial (s : State) (k : Nat) : DWord := match mfind s.cas.topo k with | some t => t.serial | none => 0

/-- The routes to one device afresh (R366, R368, R370): a changed path set advances its epoch, and a changed TLP path holds new TLP
frames for 10 µs. -/
def rerouteTo (d : Nat) (s : State) : State :=
  let ps := shortestPaths s s.ident.cid d
  let old := (mfind s.cas.paths d).getD []
  if d = s.ident.cid then s
  else if ps = old then (if ps.isEmpty then s else memberHere d (ps.headD []).length (topoSerial s d) (topoReady s d) s)
  else
    let pick := fun (l : List (List Nat)) => l[tlpHash s d % l.length]?
    let hold := !old.isEmpty && !ps.isEmpty && pick old ≠ pick ps
    let epoch := (mget (fun _ => 0) s.cas.epochs d + 1) % 256
    let cas := { s.cas with paths := if ps.isEmpty then merase s.cas.paths d else minsert s.cas.paths d ps,
                            reach := if ps.isEmpty then merase s.cas.reach d else minsert s.cas.reach d (ps.headD []).length,
                            epochs := mset (fun _ => 0) s.cas.epochs d epoch }
    let frames := match mfind s.cas.tlpHold d with | some h => h.frames | none => []
    let cas1 := if hold then { cas with tlpHold := minsert cas.tlpHold d { until_ := s.now + us 10, frames := frames } } else cas
    let s1 := evCas 7 { s with cas := cas1 }
    if ps.isEmpty then deviceLost d s1
    else
      let s2 := if old.isEmpty then evCas 5 { s1 with cas := { s1.cas with lastEpoch := merase s1.cas.lastEpoch d } } else s1
      memberHere d (ps.headD []).length (topoSerial s2 d) (topoReady s2 d) s2

/-- All routes afresh (R366). -/
def rerouteAll (s : State) : State :=
  let s1 := forEach rerouteTo (List.range 64) s
  let alone := s1.cas.reach.isEmpty
  if alone && !s.cas.reach.isEmpty then evCas 6 s1 else s1

/-- All routes afresh, the events of each block in one message (R366, R539). -/
def reroute (s : State) : State :=
  signalOnce rCAS_EVENT rCAS_EVENT_MASK (signalOnce rHEP_EVENT rHEP_EVENT_MASK rerouteAll) s

/-- The graph or a link has changed: routes, then the view and the alarm state. -/
def graphChanged (s : State) : State := sourcesChanged s.now (reroute s)

/-- A frame that goes down with its link (R362). -/
def dropWithLink (f : LinkFrame) (s : State) : State :=
  let s1 := if f.type = 2 then incr cCAS_TLP_LOST s else s
  if f.local_ || isReachable s f.dst then incr cCAS_LINK_LOSS_DROP s1 else incr cCAS_LOST_DEST_DROP s1

/-- A link goes DOWN (R362): its sequence state is reset and its frames are dropped. -/
def linkDown (g : Nat) (s : State) : State :=
  let l := getLink s g
  if l.state = .down then s
  else
    let lost := fun (c : LinkChannel) => c.replay.map SentFrame.frame ++ c.queue
    let s2 := signalOnce rCAS_EVENT rCAS_EVENT_MASK (fun s => reroute (evCas 0 s)) (setLink g { Link.down with since := s.now } s)
    let s3 := forEach dropWithLink (lost l.ch0 ++ lost l.ch1) s2
    sourcesChanged s3.now (if linkCarries l then sendTopo false (upLinks s3) s3 else s3)

/-- Whether the device may run its links (R362, R365, R377): not in P3, Refuge mode or ZEROISED. -/
def linksAllowed (s : State) : Bool :=
  s.cas.ready && s.ident.role ≠ .standalone && !s.pcr.refuge && s.pcr.power ≠ .p3 && s.crt.sec ≠ .zeroised

/-- PEER_DETECT (R362). -/
def execPeerDetect (g : Nat) (s : State) : Result :=
  let l := getLink s g
  if 4 ≤ g || l.state ≠ .down || !linksAllowed s then .next s
  else .next (setLink g { Link.down with state := .training, since := s.now } s)

/-- The link enters VERIFY and sends TOPO (R362, R364). -/
def enterVerify (g : Nat) (s : State) : State :=
  sendTopo false [g] (setLink g { getLink s g with state := .verify, since := s.now } s)

/-- TRAINING_LOCK (R362): no sooner than 1 ms after TRAINING began. -/
def execTrainingLock (g : Nat) (s : State) : Result :=
  let l := getLink s g
  if l.state ≠ .training then .next s else .next (withMarkers (enterVerify g) (reachTime (l.since + ms 1) s))

/-- TRAINING_TIMEOUT (R362): no lock within 20 ms. -/
def execTrainingTimeout (g : Nat) (s : State) : Result :=
  let l := getLink s g
  if l.state ≠ .training then .next s else .next (withMarkers (linkDown g) (reachTime (l.since + ms 20) s))

/-- The link is HELD (R362, R377). -/
def holdLink (g : Nat) (s : State) : State :=
  evCas 3 (setLink g { getLink s g with state := .held, since := s.now } s)

/-- VERIFY_TIMEOUT (R362): VERIFY not passed within 1 ms. -/
def execVerifyTimeout (g : Nat) (s : State) : Result :=
  let l := getLink s g
  if l.state ≠ .verify then .next s else .next (withMarkers (holdLink g) (reachTime (l.since + ms 1) s))

/-- VERIFY_RETRY (R362): a HELD link runs a new VERIFY every 1 s. -/
def execVerifyRetry (g : Nat) (s : State) : Result :=
  let l := getLink s g
  if l.state ≠ .held || !linksAllowed s then .next s else .next (withMarkers (enterVerify g) (reachTime (l.since + ms 1000) s))

/-- RETRAIN_TIMEOUT (R362): no relock within 2 ms. -/
def execRetrainTimeout (g : Nat) (s : State) : Result :=
  let l := getLink s g
  if l.state ≠ .retrain then .next s else .next (withMarkers (linkDown g) (reachTime (l.since + ms 2) s))

/-- RETRAIN_RELOCK (R361, R362, R496): no sooner than 0.1 ms; the link resumes with its replay state: the unacknowledged frames of each
channel, then new frames. -/
def execRetrainRelock (g : Nat) (s : State) : Result :=
  let l := getLink s g
  if l.state ≠ .retrain then .next s
  else
    let s1 := reachTime (l.since + us 100) s
    let c := fun (x : LinkChannel) => { x with replays := 0, progressAt := s1.now }
    let l1 := { l with state := .up, since := s1.now, ch0 := c l.ch0, ch1 := c l.ch1, missed := 0 }
    .next (withMarkers (fun s => pump g 1 (pump g 0 (replayChannel g 1 (replayChannel g 0 (setLink g l1 s))))) s1)

/-- MARKER_LOCK_LOSS (R355, R362): lane lock lost, or eight slots without an accepted marker. -/
def execMarkerLockLoss (g : Nat) (s : State) : Result := .next (withMarkers (linkDown g) s)

/-- REPLAY_TIMER_EXPIRY (R359): REPLAY_NS without ACK progress while frames are outstanding. -/
def execReplayTimerExpiry (g ch : Nat) (s : State) : Result :=
  let l := getLink s g
  let c := getChan l ch
  if (l.state ≠ .up && l.state ≠ .verify) || c.replay.isEmpty then .next s
  else .next (withMarkers (replayChannel g ch) (reachTime (c.progressAt + regFld s rCAS_LINK_CFG 0 16) s))

/-- Whether `a` is newer than `b` among 8-bit generations (R373). -/
def genNewer (a b : Nat) : Bool := let d := (a + 256 - b % 256) % 256; decide (1 ≤ d) && decide (d ≤ 127)

/-- The generations of a sideband (R373): adopted in silence from the first two markers after the link reached UP; a newer one later is
a drill request or a drill stop, passed on. -/
def takeGens (b : Sideband) (quiet : Bool) (s : State) : State :=
  let s1 :=
    if genNewer b.drillGen s.cas.drillGen then
      let t := { s with cas := { s.cas with drillGen := b.drillGen } }
      if quiet then t else requestDrill false t
    else s
  if genNewer b.stopGen s1.cas.stopGen then
    let t := { s1 with cas := { s1.cas with stopGen := b.stopGen } }
    if quiet then t else stopDrill false t
  else s1

/-- Alarm state of its encoding. -/
def alarmOf (c : Nat) : AlarmState := match c % 4 with | 0 => .normal | 1 => .drill | 2 => .emergency | _ => .holdover

/-- The sideband fields of a marker beat (R354). -/
def sidebandOf (b : Bytes) : Sideband :=
  { src := byteAt b 1 % 64, alarm := alarmOf (byteAt b 1 / 64), local_ := nbit (byteAt b 2) 0, rel := byteAt b 2 / 2 % 4,
    drillGen := byteAt b 3, stopGen := byteAt b 4, map := leAt b 9 7 + byteAt b 17 * 2 ^ 56 }

/-- The four lane marks are present and the CRC is good (R355). -/
def markerGood (b : Bytes) : Bool :=
  b.length = 32 && byteAt b 0 = 0xC0 && byteAt b 8 = 0xC1 && byteAt b 16 = 0xC2 && byteAt b 24 = 0xC3
    && leAt b 30 2 = (crc16 (slice b 0 30)).toNat

/-- The neighbours on the way from a device up to the root, the device first. -/
def chainUp (s : State) : Nat → Nat → List Nat
  | 0, d => [d]
  | n + 1, d => d :: (match treeParent s d with | some p => chainUp s n p | none => [])

/-- The tree neighbour through which a device's bit arrives: the last device before this one on its way up, else the parent. -/
def treeNext (s : State) (k : Nat) : Option Nat :=
  let up := chainUp s 6 k
  match up.findIdx? (fun d => d = s.ident.cid) with
  | some n => if n = 0 then none else up[n - 1]?
  | none => treeParent s s.ident.cid

/-- A held device that is reachable again and reports LOCAL = 0 on the tree link of `g` is let go (R372). -/
def releaseHeldOrigin (g k : Nat) (s : State) : State :=
  if nbit s.cas.heldMap k && isReachable s k && !nbit (mapFrom s g) k && treeNext s k = some (getLink s g).peer then
    { s with cas := { s.cas with heldMap := s.cas.heldMap - 2 ^ k } }
  else s

/-- The sideband fields of an accepted marker: in effect from the second of two equal ones (R355). A declaration that becomes active with
them discards a drill request or stop of the same marker, whose generations are adopted in silence (R44). The latency of an entry that the
sideband causes runs from the acceptance of that second marker (DESIGN CHOICE: R58 names the start for the input pair and for messages only;
log entry 20). -/
def takeSideband (g : Nat) (b : Sideband) (s : State) : State :=
  let l := getLink s g
  let quiet := decide (l.fresh < 2)
  let l1 := { l with lastMarker := some b, missed := 0, fresh := min 2 (l.fresh + 1) }
  if l.lastMarker ≠ some b then
    (if quiet then takeGens b true (setLink g l1 s) else setLink g l1 s)
  else
    let s1 := setLink g { l1 with sideband := some b } s
    let s2 := if relTo s1 g ≠ 0 then forEach (releaseHeldOrigin g) (List.range 64) s1 else s1
    let settle := fun (t : State) => let u := sourcesChanged t.now t; takeGens b (quiet || (!declared s && declared u)) u
    signalOnce rALP_EVENT rALP_EVENT_MASK settle s2

/-- GONDOLA_MARKER_RX (R355): the eighth slot in sequence with a bad marker is a loss of lock. -/
def markerRx (g : Nat) (beat : Bytes) (s : State) : State :=
  let l := getLink s g
  if l.state = .down || 4 ≤ g then s
  else if !markerGood beat then
    let s1 := incr (cCAS_G_MARKER_ERR g) (setLink g { l with missed := l.missed + 1 } s)
    if 7 ≤ l.missed then linkDown g s1 else s1
  else
    let s1 := takeAck g 0 (leAt beat 5 2 % 4096) (nbit (leAt beat 5 2) 12) s
    let s2 := takeAck g 1 (leAt beat 18 2 % 4096) (nbit (leAt beat 18 2) 12) s1
    if linkCarries (getLink s2 g) then takeSideband g (sidebandOf beat) s2
    else setLink g { getLink s2 g with missed := 0 } s2

/-- GONDOLA_MARKER_RX. -/
def execGondolaMarkerRx (g : Nat) (beat : Bytes) (s : State) : Result := .next (withMarkers (markerRx g beat) s)

/-- MAP_HOLD_EXPIRY (R372): the 20 µs of a bit that left the view are over. -/
def execMapHoldExpiry (k : Nat) (s : State) : Result :=
  match mfind s.cas.mapHold k with
  | none => .next s
  | some t => .next (withMarkers (fun s => sourcesChanged s.now { s with cas := { s.cas with mapHold := merase s.cas.mapHold k } }) (reachTime t s))

/-- A TOPO payload as stored. -/
def topoOf (p : Bytes) : Topo :=
  { serial := BitVec.ofNat 64 (leAt p 0 8), role := byteAt p 8 / 64, leaving := nbit (byteAt p 9) 0, cfgReady := nbit (byteAt p 9) 1,
    ver := BitVec.ofNat 32 (leAt p 12 4), peers := (List.range 4).map (fun k => byteAt p (16 + k)) }

/-- Whether `a` is newer than `b` (R365). -/
def verNewer (a b : Word) : Bool := let d := (a - b).toNat; decide (1 ≤ d) && decide (d < 2 ^ 31)

/-- The checks of R365 on a TOPO. -/
def topoGood (s : State) (p : Bytes) : Bool :=
  let id := byteAt p 8 % 64
  let t := topoOf p
  let tagged := match slotKey s s.crt.roles.cascade with
    | some key => s.crt.sec ≠ .zeroised && slice p 32 16 = topoTag key (slice p 0 32)
    | none => false
  let known := if id = s.ident.cid then t.serial = Config.serial && verNewer t.ver s.cas.topoVer
    else match mfind s.cas.topo id with
      | some o => !isReachable s id || (o.serial = t.serial && verNewer t.ver o.ver)
      | none => true
  p.length = 48 && tagged && leAt p 20 8 = s.ident.tag.toNat && known

/-- The expected peer of a link (CAS_PEERS). -/
def expectedPeer (s : State) (g : Nat) : Option Nat := mfind s.ident.peers g

/-- An accepted TOPO is stored and forwarded on every other UP link (R365); one with LEAVING takes its links DOWN (R362). -/
def storeTopo (g : Nat) (p : Bytes) (s : State) : State :=
  let id := byteAt p 8 % 64
  let t := topoOf p
  let s1 := { s with cas := { s.cas with topo := minsert s.cas.topo id t } }
  let f : LinkFrame := { type := 4, dst := 0, src := id, local_ := true, payload := p }
  let s2 := forEach (fun k s => sendLink k 0 f s) ((upLinks s1).filter (fun k => k ≠ g)) s1
  if t.leaving then
    forEach linkDown ((List.range 4).filter (fun k => (getLink s2 k).state ≠ .down && (getLink s2 k).peerValid && (getLink s2 k).peer = id)) s2
  else s2

/-- The link has passed VERIFY (R362). -/
def linkUp (g id : Nat) (s : State) : State :=
  let l := getLink s g
  let l1 := { l with state := .up, since := s.now, peer := id, peerValid := true, lastMarker := none, sideband := none, fresh := 0, missed := 0 }
  let s1 := evCas 1 (setLink g l1 s)
  pump g 1 (pump g 0 (sendTopo false (upLinks s1) s1))

/-- A TOPO that has been received in order (R362, R365). -/
def takeTopo (g : Nat) (p : Bytes) (s : State) : State :=
  let id := byteAt p 8 % 64
  let verify := (getLink s g).state = .verify
  let good := topoGood s p && (!verify || expectedPeer s g = some id)
  if !good then
    let s1 := incr cCAS_TOPO_REJECT s
    if verify then holdLink g s1 else s1
  else
    let s1 := storeTopo g p s
    graphChanged (if verify then linkUp g id s1 else s1)

/-- TOPO_RX (R365). -/
def execTopoRx (g : Nat) (frame : Bytes) (s : State) : Result :=
  .next (withMarkers (fun s =>
    match receiveLink g 4 frame s with
    | (some r, s1) => takeTopo g r.payload s1
    | (none, s1) => s1) s)

/-- TOPO_PERIODIC_SEND (R364). -/
def execTopoPeriodicSend (s : State) : Result := .next (if linksAllowed s then sendTopo false (upLinks s) s else s)

/-- The fabric header and frame that cross a link (R357); the hop index has been advanced. -/
def fabricPayload (f : Frame) (b : Fabric) : Bytes :=
  let dest := match f.dest with | .unicast sp _ => sp | .group _ _ => 32 | .none => 0
  let grp := match f.dest with | .group g _ => g | _ => 0
  let route := ((List.range 6).map (fun i => (b.route.getD i 0) * 4 ^ i)).sum + b.hop * 4096
  slice f.record 0 32 ++ toLe 1 dest ++ toLe 1 b.epoch ++ toLe 2 grp ++ toLe 2 f.hash.toNat ++ toLe 2 route ++ toLe 1 f.srcSp
    ++ List.replicate 7 0 ++ f.bytes

/-- A frame that TMG has chosen at a Gondola output crosses its link (R358, R367). -/
def fabricOut (g : Nat) (f : Frame) (s : State) : State :=
  match f.fab with
  | none => s
  | some b =>
    if !linkCarries (getLink s g) then incr cCAS_LINK_LOSS_DROP s
    else
      let b1 := { b with hop := b.hop + 1 }
      sendLink g (if f.cls = 7 then 0 else 1) { type := 1, dst := b.dst, src := b.src, local_ := false, payload := fabricPayload f b1 } s

/-- The frame of a FABRIC payload as it stands at this device (R19, R357): a SET_CLASS of its record has been carried out where it entered
(R110, R112), and the descriptors that it names are those of this device as the frame comes in (R21). -/
def fabricFrame (s : State) (r : RxLink) : Frame :=
  let p := r.payload
  let rec_ := slice p 0 32
  let hash := BitVec.ofNat 16 (leAt p 36 2)
  let route := leAt p 38 2
  let here := isOwnCid s r.dst
  let acts := resActions rec_
  let d : Dest := if nbit (byteAt p 32) 5 then .group (leAt p 34 2) 0 else .unicast (byteAt p 32 % 32) r.dst
  let enc := match acts.findSome? Action.encapOf with | some n => if here then some (tunnelAt s n) else none | none => none
  let cls := acts.foldl (fun c a => match a with | .setClass k => k | _ => c) (resClass rec_)
  { newFrame (p.drop 48) (byteAt p 40) (resInst rec_) false s.now with
    cls := cls, l2 := captureL2 s acts, dest := d, qsel := ((recordDest s (resInst rec_) hash acts).map Prod.snd).getD 0, record := rec_,
    ls := resLs rec_ && cls = 7, hash := hash, encap := enc,
    fab := some { dst := r.dst, src := r.src, epoch := byteAt p 33, route := (List.range 6).map (fun i => route / 4 ^ i % 4), hop := route / 4096 % 8 } }

/-- A frame from a Gondola link enters the switch core at SP16 + g. -/
def toSwitchAt (i : Nat) (f : Frame) (s : State) : State :=
  { s with swc := { s.swc with arrivals := mset (fun _ => []) s.swc.arrivals i (mget (fun _ => []) s.swc.arrivals i ++ [f]) } }

/-- Whether an epoch is older than the last one delivered from its source (R368). -/
def epochStale (s : State) (src epoch : Nat) : Bool :=
  match mfind s.cas.lastEpoch src with
  | some e => let d := (e + 256 - epoch) % 256; decide (1 ≤ d) && decide (d ≤ 127)
  | none => false

/-- An accepted FABRIC frame goes on or is delivered here (R367, R368). -/
def takeFabric (g : Nat) (r : RxLink) (s : State) : State :=
  let f := fabricFrame s r
  let epoch := byteAt r.payload 33
  if isOwnCid s r.dst then
    (if epochStale s r.src epoch then incr cCAS_STALE_ROUTE_DROP s
     else toSwitchAt (16 + g) f { s with cas := { s.cas with lastEpoch := minsert s.cas.lastEpoch r.src epoch } })
  else
    match f.fab.bind (fun b => b.route[b.hop]?) with
    | some k => if linkCarries (getLink s k) then toSwitchAt (16 + g) f s else incr cCAS_LINK_LOSS_DROP s
    | none => incr cCAS_LINK_LOSS_DROP s

/-- FABRIC_FRAME_RX (R367, R368). -/
def execFabricFrameRx (g : Nat) (frame : Bytes) (s : State) : Result :=
  .next (withMarkers (fun s =>
    match receiveLink g 1 frame s with
    | (some r, s1) => takeFabric g r s1
    | (none, s1) => s1) s)

/-- TLP_HOLD_EXPIRY (R370): the held TLP frames use the new path. -/
def execTlpHoldExpiry (dst : Nat) (s : State) : Result :=
  match mfind s.cas.tlpHold dst with
  | none => .next s
  | some h =>
    let s1 := { reachTime h.until_ s with cas := { s.cas with tlpHold := merase s.cas.tlpHold dst } }
    .next (forEach (fun f s => forwardTlp f (tlpHash s dst) s) h.frames s1)

/-- A SLOT frame leaves toward its destination (R375). -/
def sendSlot (d src payload hash : Nat) (s : State) : State :=
  match linkToward s d hash with
  | none => incr cCAS_LOST_DEST_DROP s
  | some g => sendLink g 1 { type := 5, dst := d, src := src, local_ := false, payload := toLe 1 payload } s

/-- A member sends ATTN to the head (R375). -/
def requestRemoval (p : Party) (s : State) : State :=
  if isCrater p || s.ident.role ≠ .member then s
  else match headCid s with
    | some h => sendSlot h s.ident.cid 1 s.ident.cid s
    | none => s

/-- CAS_REMOVE_REQ (R375). -/
def execCasRemoveReq (p : Party) (s : State) : Result := .next (requestRemoval p s)

/-- SLOT payload of a downstream port of the head (R375). -/
def slotBits (v : VswPort) : Nat := v.attnInd.toNat + 4 * v.pwrInd.toNat + (if v.powerOff then 16 else 0)

/-- The head sends RESET_REQ to the member (R375). -/
def resetMember (p : Party) (member : Nat) (s : State) : State :=
  if isCrater p || s.ident.role ≠ .head then s
  else sendSlot member s.ident.cid (slotBits (getVsw s member) + 32) member s

/-- CAS_MEMBER_RESET (R375). -/
def execCasMemberReset (p : Party) (member : Nat) (s : State) : Result := .next (resetMember p member s)

/-- Slot Control of a downstream port of the head is written (R230, R231, R375): the port stores it and completes the command; the
indicators and the power control are carried to the member. Bits 7:6 are the Attention Indicator Control, 9:8 the Power Indicator
Control, 10 the Power Controller Control of the PCI Express base. A port that is not configured forwards nothing (R229). -/
def slotControl (k : Nat) (v : BitVec 16) (s : State) : State :=
  let o := getVsw s k
  let off := v.getLsbD 10
  let own := decide (k = s.ident.cid)
  let dll := o.present && !off
  let moved := if own then portActive s k && off else decide (dll ≠ o.dllActive)
  let n := { o with slotCtl := v, attnInd := v.extractLsb' 6 2, pwrInd := v.extractLsb' 8 2, powerOff := off, dllActive := dll,
                    dllChanged := o.dllChanged || moved, cmdCompleted := true }
  let s1 := setVsw k n (if moved then [4, 12] else [4]) s
  if own || !configured s k then s1 else sendSlot k s.ident.cid (slotBits n) k s1

/-- A CLEAR accepted here goes to every tree neighbour but the one it came from (R374). -/
def relayClear (path : EmsgPath) (m : Bytes) (s : State) : State :=
  let from_ := match path with | .cascade g => g | .loop _ => 4 | .eth => 4
  forEach (fun g s => sendLink g 0 { type := 3, dst := (getLink s g).peer, src := s.ident.cid, local_ := false, payload := m } s)
    ((upLinks s).filter (fun g => relTo s g ≠ 0 && g ≠ from_)) s

/-- An EMSG from a Cascade peer is the next frame of channel 0 of its link (R356, R360); none when the link does not receive. -/
def emsgArrives (path : EmsgPath) (s : State) : Option State :=
  match path with
  | .cascade g => if receives (getLink s g) 3 then some (acceptSeq g 0 96 s) else none
  | .loop _ => some s
  | .eth => some s

/-- A relayed CLEAR that has been applied already (R374). -/
def alreadyApplied (path : EmsgPath) (m : Bytes) (s : State) : Bool :=
  onCascade path && emsgKind m = 2 && lastSeqOf s.crt.ret.emsgSeq (emsgOrigin m) = some (emsgSeq m)

/-- Crater checks a message and acts on it (R52–R55, R374). -/
def checkEmsg (path : EmsgPath) (m : Bytes) (rx : Nat) (s : State) : State :=
  if s.crt.sec ≠ .zeroised && emsgFormat m && alreadyApplied path m s then s
  else
    match emsgReject s m with
    | some r => rejectEmsg path r s
    | none =>
      let s1 := applyEmsg path m rx s
      if emsgKind m = 2 then relayClear path m s1 else s1

/-- A message that arrives: held, at most 16, while Crater restarts (R453); checked once the emergency path is ready. -/
def emsgIn (path : EmsgPath) (m : Bytes) (rx : Nat) (s : State) : State :=
  match emsgArrives path s with
  | none => s
  | some s1 =>
    if s1.crt.restarting then
      (if s1.alp.heldMsgs.length < 16 then { s1 with alp := { s1.alp with heldMsgs := s1.alp.heldMsgs ++ [.emsg path m rx] } }
       else incr cPCR_MSG_HELD_DROP s1)
    else if !s1.alp.pathReady then s1
    else checkEmsg path m rx s1

/-- Whether a message belongs to the row of a KIND: a KIND that is reserved belongs to all of them. -/
def rowKind (k : Nat) (m : Bytes) : Bool := emsgKind m = k || emsgKind m = 0 || decide (4 < emsgKind m)

/-- EMSG_DECLARE (R53). -/
def execEmsgDeclare (path : EmsgPath) (msg : Bytes) (rx : Nat) (s : State) : Result :=
  .next (if rowKind 1 msg then withMarkers (emsgIn path msg rx) s else s)
/-- EMSG_CLEAR (R53). -/
def execEmsgClear (path : EmsgPath) (msg : Bytes) (rx : Nat) (s : State) : Result :=
  .next (if rowKind 2 msg then withMarkers (emsgIn path msg rx) s else s)
/-- EMSG_DRILL_START (R55). -/
def execEmsgDrillStart (path : EmsgPath) (msg : Bytes) (rx : Nat) (s : State) : Result :=
  .next (if rowKind 3 msg then withMarkers (emsgIn path msg rx) s else s)
/-- EMSG_DRILL_END (R55). -/
def execEmsgDrillEnd (path : EmsgPath) (msg : Bytes) (rx : Nat) (s : State) : Result :=
  .next (if rowKind 4 msg then withMarkers (emsgIn path msg rx) s else s)

end Sys2Proof.Machine
end

