-- ==== Sys2Proof/Machine/Boundary.lean ====
section
/-! DEFINITION. Frame boundaries of the outputs (R130, R134, R138, R139): the choice of the next frame and where it goes, the transmit
hold of Ethernet ports (R311–R313). -/

namespace Sys2Proof.Machine

/-- A frame joins what waits behind an output for the unit that takes it. -/
def toSink (o : Nat) (f : Frame) (s : State) : State :=
  { s with sinks := mset (fun _ => []) s.sinks o (mget (fun _ => []) s.sinks o ++ [f]) }

/-- A frame that leaves SP25 for its decrypt pass (R114, R148); LS frames come through the LS queue of SP25 (R89, R152). -/
def toDecrypt (f : Frame) (s : State) : State :=
  let d := f.decap.getD (List.replicate 64 0)
  let w : CipherWork := { frame := f, desc := d, enc := false, next := .recirculate }
  if isLsPass s f.cls (tunSlot d) then { s with cph := { s.cph with decryptLs := s.cph.decryptLs ++ [w] } }
  else { s with cph := { s.cph with decryptIn := s.cph.decryptIn ++ [w] } }

/-- A frame that TMG has chosen leaves its output (R16). -/
def leaveOutput (o : Nat) (f : Frame) (s : State) : State :=
  if o < 16 then wireOut o f s
  else if o < 20 then fabricOut (o - 16) f s
  else if o = 22 then loopDataOut f s
  else if o = 24 then emit (.svcFrame (f.svcReason.getD 0) f.bytes f.stamp) s
  else if o = 25 then toDecrypt f s
  else toSink o f s

/-- A frame of classes 0–6 that TMG has chosen is counted at its output (TMG counters). -/
def countSent (o : Nat) (f : Frame) (s : State) : State :=
  incr (cTMG_FRAMES_OUT o) (addCtr (cTMG_BYTES_OUT o) (chargedLen f) s)

/-- The head of the LS queue of an output leaves (R134, R138); the counters of TMG do not count class 7. -/
def sendLs (o : Nat) (f : Frame) (rest : List Frame) (s : State) : State :=
  let s1 := chargeLs f (moveLsCells o 0 (cellsOf f) s)
  let s2 := { s1 with swc := { s1.swc with lsQueue := mset (fun _ => []) s1.swc.lsQueue o rest } }
  leaveOutput o f s2

/-- The head of an egress queue is taken from it and charged (R130, R131). -/
def takeEgress (o c v : Nat) (s : State) : Option Frame × State :=
  let k := egressKey o c v
  match mget (fun _ => []) s.swc.egress k with
  | [] => (none, s)
  | f :: rest =>
    let s1 := moveEgressCells o c 0 (cellsOf f) (chargeFrame f s)
    (some f, { s1 with swc := { s1.swc with egress := mset (fun _ => []) s1.swc.egress k rest } })

/-- The choice among classes 0–6, and what becomes of the frame chosen. -/
def serveClasses (open_ : Nat → Bool) (o : Nat) (take : Frame → State → State) (s : State) : State :=
  match tmgPick s open_ o with
  | (none, s1) => s1
  | (some (c, v), s1) =>
    match takeEgress o c v s1 with
    | (none, s2) => s2
    | (some f, s2) => take f s2

/-- Whether the head of the LS queue of an output may leave: it conforms (R134), and at SP25 the dispatcher has taken the frame before
it (R89, R148). -/
def lsMayLeave (s : State) (o : Nat) (f : Frame) : Bool := lsConforms s f && (o ≠ 25 || s.cph.decryptLs.isEmpty)

/-- A frame boundary at an output that may start a frame (R138). -/
def serveOutput (open_ : Nat → Bool) (o : Nat) (s : State) : State :=
  let classes := serveClasses open_ o (fun f s => leaveOutput o f (countSent o f s))
  match mget (fun _ => []) s.swc.lsQueue o with
  | [] => classes s
  | f :: rest => if lsMayLeave s o f then sendLs o f rest s else classes s

/-- Shapers whose credit words a choice at an output reads: those of the head frames (R131, R134). -/
def choiceShapers (s : State) (o : Nat) : List Nat :=
  let heads := (List.range 7).flatMap (fun c => (queueHeads (egressQueues s o c)).flatMap (fun q => frameShapers s q.2))
  match mget (fun _ => []) s.swc.lsQueue o with
  | f :: _ => lsShapers s f ++ heads
  | [] => heads

/-- Whether PFC lets a class of an Ethernet port leave (R316). -/
def classOpen (s : State) (port c : Nat) : Bool := (getPort s port).pausedUntil.isNone || decide (c ≠ pfcClass s port)

/-- A frame boundary of an Ethernet port: under a transmit hold no frame starts; past the limit of the hold the frames chosen are
discarded (R312, R313). -/
def serveEthernet (port : Nat) (s : State) : State :=
  let p := getPort s port
  if !p.inUse then s
  else if !mustHold s port then serveOutput (classOpen s port) port s
  else if p.overLimit then serveClasses (classOpen s port) port (fun _ s => incr (cETH_TXHOLD_DROP port) s) s
  else s

/-- OUTPUT_FRAME_BOUNDARY (R138); `bad` are the shapers whose credit word has an uncorrectable error, if the choice reads it (R144). -/
def execOutputFrameBoundary (o : Nat) (bad : List Nat) (s : State) : Result :=
  if 26 ≤ o || !isRunning s then .next s
  else
    let s0 := settleRedirects s
    let s1 := readCredits bad (choiceShapers s0 o) s0
    let s2 := if o < 16 then serveEthernet o s1
      else if o < 20 then withMarkers (serveOutput (fun _ => true) o) s1
      else serveOutput (fun _ => true) o s1
    .next (settlePfc (settleRedirects s2))

/-- The head frame of an egress queue, or of the LS queue for class 7. -/
def outputHead (s : State) (o cls inst : Nat) : Option Frame :=
  if cls = 7 then (mget (fun _ => []) s.swc.lsQueue o).head? else (mget (fun _ => []) s.swc.egress (egressKey o cls inst)).head?

/-- SHAPER_CONFORM (R130, R134): device time reaches the point at which the head frame is eligible; `bad` as at OUTPUT_FRAME_BOUNDARY. -/
def execShaperConform (o cls inst : Nat) (bad : List Nat) (s : State) : Result :=
  if 26 ≤ o || 7 < cls then .next s
  else match outputHead s o cls inst with
    | none => .next s
    | some f =>
      let s1 := readCredits bad (if cls = 7 then lsShapers s f else frameShapers s f) s
      let wait := if cls = 7 then lsWait s1 f else frameWait s1 f
      match wait with
      | some t => .next (reachTime (s1.now + t) s1)
      | none => .next s1

end Sys2Proof.Machine
end

