-- ==== Sys2Proof/Machine/Resets.lean ====
section
/-! DEFINITION. The reset scopes FULL, HOST and SERVICE, the supplies, and the release of a reset (R215, R449–R458). -/

namespace Sys2Proof.Machine

/-- PCR_RESET_CAUSE (R450). -/
def resetCauseWord (s : State) : Word := putFld 0 5 s.pcr.cause.toNat ||| putFld 5 5 s.pcr.prevCause.toNat

/-- A cause enters the PCR record (R450). A transition of the power state that is under way ends (R455). -/
def recordCause (cause : Nat) (s0 : State) : State :=
  let s := endTransition s0
  { s with pcr := { s.pcr with prevCause := s.pcr.cause, cause := BitVec.ofNat 5 cause } }

/-- An event-log entry that is owed to the next start that reaches emergency-path ready (R451). -/
def deferEntry (t : LogType) (data : Bytes) (s : State) : State :=
  { s with tim := { s.tim with deferred := s.tim.deferred ++ [logBytes s t true 0 false data] } }

/-- A reset that a start follows: its cause, its count and its log entry (R450, R451). -/
def recordFull (cause : Nat) (s : State) : State :=
  let s1 := incr cPCR_FULL_RESETS (recordCause cause s)
  deferEntry .reset (toLe 4 (resetCauseWord s1).toNat) s1

/-- A reset that no start follows: its cause, and its log entry at once. -/
def recordReset (cause : Nat) (s : State) : State :=
  let s1 := recordCause cause s
  logEvent .reset (toLe 4 (resetCauseWord s1).toNat) s1

/-- Registers that keep their value through a FULL reset: PCR_BACKUP0–15 (R451). -/
def keptReg (o : Nat) : Bool := decide (rPCR_BACKUP 0 ≤ o) && decide (o ≤ rPCR_BACKUP 15)

/-- Counters kept in the PCR record: those of PCR, LOG_ENTRIES and LOG_LOST. -/
def keptCtr (o : Nat) : Bool :=
  (decide (cPCR_FULL_RESETS ≤ o) && decide (o ≤ cPCR_P3_WAKES)) || o = cTIM_LOG_ENTRIES || o = cTIM_LOG_LOST

/-- Crater in a FULL reset: NVM, retention and the tamper conditions stay (R398, R399, R404). -/
def heldCrt (c : Crt) : Crt :=
  { Crt.reset with
    sec := c.sec, degCause := c.degCause, nonApproved := c.nonApproved, bootCount := c.bootCount, bootCseq := c.bootCseq,
    seed := c.seed, zeroMarker := c.zeroMarker, store := c.store, ret := c.ret, mirrorEmsg := c.mirrorEmsg,
    mirrorMgmt := c.mirrorMgmt, live := c.live, liveSince := c.liveSince, patch := c.patch, ownerKeys := c.ownerKeys }

/-- The PCR record and the always-on island in a FULL reset. -/
def heldPcr (p : Pcr) : Pcr :=
  { Pcr.reset with
    phase := .held, vin12 := p.vin12, vaux33 := p.vaux33, cause := p.cause, prevCause := p.prevCause, startFails := p.startFails,
    thermHold := p.thermHold, thermCrit := p.thermCrit, tempC := p.tempC, maxC := p.maxC, coolFrom := p.coolFrom,
    clkFault := p.clkFault, wakeOutLow := p.wakeOutLow, wakeFrom := p.wakeFrom }

/-- NVM in a FULL reset; HBM content does not survive (R468). -/
def heldMem (m : Mem) : Mem :=
  { Mem.reset with
    spare := m.spare, retired := m.retired, sinceMove := m.sinceMove, gap := m.gap, owed := m.owed, lineWrites := m.lineWrites,
    banks := m.banks, svcRet := m.svcRet }

/-- The log and PTP time in a FULL reset (R477, R480); entries still queued are lost. -/
def heldTim (t : Tim) : Tim :=
  { Tim.reset with
    ptpNs := t.ptpNs, ptpAt := t.ptpAt, log := t.log, nextGeneral := t.nextGeneral, pinnedUsed := t.pinnedUsed, nextSeq := t.nextSeq,
    deferred := t.deferred, seconds := t.seconds }

/-- The emergency inputs go on being sampled; the other sources start anew (R46, R70). -/
def heldAlp (a : Alp) : Alp :=
  { Alp.reset with inA := a.inA, inB := a.inB, inSince := a.inSince, inFault := a.inA == a.inB, srcInput := a.inA && !a.inB }

/-- Every island except the always-on island is held in reset (R449, R451, R454 step 5). -/
def holdIslands (s0 : State) : State :=
  let s := settlePtp s0
  let regs := mfilter (fun o _ => keptReg o) s.regs
  let ctr := mfilter (fun o _ => keptCtr o) s.ctr
  let img := { Img.reset with s0 := s.img.s0, s1 := s.img.s1, failSection := s.img.failSection, failReason := s.img.failReason,
                              failRecord := s.img.failRecord }
  let rec_ := { Recorder.reset with anchor := s.str.rec_.anchor, high := s.str.rec_.high }
  { State.reset with
    now := s.now, regs := regs, ctr := ctr, freeUsed := s.freeUsed, out := s.out, pending := s.pending,
    alp := heldAlp s.alp, hep := { Hep.reset with perstHigh := s.hep.perstHigh }, str := { Str.reset with rec_ := rec_ },
    crt := heldCrt s.crt, pcr := heldPcr s.pcr, img := img, mem := heldMem s.mem, tim := heldTim s.tim }

/-- Causes whose FULL reset enters in the order of R454. -/
def orderedCause (c : Nat) : Bool := [5, 6, 7, 11, 12, 14].contains c

/-- A FULL reset is requested (R450, R454, R455): a request while one is under way is merged into it. Cause 10 waits for the junction,
causes 1, 2 and 16 for their own events; the others are released 1 ms after the reset is held, which the causes of the ordered entry
take 2 µs to reach (R454, R466). A start that the thermal trip interrupts counts as failed (R464). -/
def fullReset (cause : Nat) (s : State) : State :=
  if !isRunning s then s
  else
    let cut := cause = 10 && !s.pcr.refuge && !s.pcr.fullOp && !s.pcr.failed
    let s1 := recordFull cause (if cut then incr cPCR_START_FAILURES s else s)
    let s2 := if orderedCause cause && linksAllowed s1 then sendTopo true (upLinks s1) s1 else s1
    let s3 := holdIslands (if orderedCause cause then reachTime (s2.now + us 2) s2 else s2)
    let at_ := if orderedCause cause || cause = 15 then some (s3.now + us 1000) else none
    { s3 with pcr := { s3.pcr with releaseAt := at_ } }

/-- The SEED and every copy are overwritten (R168, R416). -/
def overwriteStore (s : State) : State :=
  { s with crt := { s.crt with seed := none, zeroMarker := true, store := [], ret := { s.crt.ret with zeroisePending := false } } }

/-- Retention whose CRC fails (R399): the SEQs come from the NVM mirror, and nothing else is kept. -/
def checkRetention (s : State) : State :=
  if s.crt.ret.valid then s
  else
    evCrt 6 (setRet { Retention.empty with emsgSeq := s.crt.mirrorEmsg, mgmtSeq := s.crt.mirrorMgmt } s)

/-- Step 2 of R400: the patch area is verified under the ROM root key, and its version against the OTP minimum. With no patch in NVM
Crater runs from ROM, and nothing is rejected (log entry). -/
def checkPatch (s : State) : State :=
  match s.crt.patch with
  | none => { s with crt := { s.crt with patchOk := false, patchHash := [] } }
  | some p =>
    if ecdsaVerify Config.rootKey p.body p.signature && decide (Config.minPatchSvn ≤ p.svn) then
      { s with crt := { s.crt with patchOk := true, patchHash := sha384 p.body } }
    else degrade 1 { s with crt := { s.crt with patchOk := false, patchHash := [] } }

/-- Steps 1–3 of R400, which a start and a CRATER restart run: retention recovered, the patch checked, BOOT_COUNT incremented and
committed (R407). -/
def bootSteps (s : State) : State :=
  let s1 := checkPatch (checkRetention s)
  { s1 with crt := { s1.crt with bootCount := s1.crt.bootCount + 1, bootCseq := s1.crt.bootCseq + 1, writeCount := 0 } }

/-- The security state that a start finds (R403, R416, R439): a pending overwrite is completed first; without a SEED, or with the
marker, the device is ZEROISED; otherwise it is OPERATIONAL until a cause is found, or DEGRADED until the start has found none. -/
def startSecurity (s : State) : State :=
  let half := s.crt.ret.zeroisePending || (s.crt.zeroMarker && !s.crt.store.isEmpty)
  let s1 := if half then overwriteStore s else s
  let zero := s1.crt.zeroMarker || s1.crt.seed.isNone
  let sec := if zero then SecState.zeroised else if s1.crt.sec = .degraded then .degraded else .operational
  { s1 with crt := { s1.crt with sec := sec, degCause := 0, nonApproved := s1.crt.nonApproved && zero } }

/-- The highest SEQ of the log's valid entries, plus one (R481). -/
def nextLogSeq (s : State) : DWord :=
  BitVec.ofNat 64 (s.tim.log.foldl (fun m e => if logValid e.2 then max m (leAt e.2 4 8 + 1) else m) 0)

/-- The start sequence up to step 3 of R400: the boot mode follows the failed-start count, which a NORMAL start increments (R457,
R458). -/
def beginStart (s : State) : State :=
  if s.pcr.begun then s
  else
    let refuge := decide (3 ≤ s.pcr.startFails)
    let fails := if refuge then s.pcr.startFails else s.pcr.startFails + 1
    let s1 := { s with pcr := { s.pcr with begun := true, refuge := refuge, startFails := fails }, tim := { s.tim with nextSeq := nextLogSeq s } }
    let s2 := if refuge then evPcr 5 (incr cPCR_REFUGE_STARTS s1) else s1
    bootSteps (startSecurity s2)

/-- A held reset is released: WAKE_OUT_N goes high, and the start sequence begins (R454, R461, R463). -/
def releaseReset (s : State) : State :=
  let s1 := if s.pcr.wakeOutLow then emit (.pin 0 true) s else s
  beginStart { s1 with pcr := { s1.pcr with phase := .running, startAt := s1.now, releaseAt := none, wakeOutLow := false, wakeFrom := none } }

/-- Whether the supplies allow a release. -/
def suppliesGood (s : State) : Bool := s.pcr.vin12 && s.pcr.vaux33

/-- RESET_RELEASE (R454): no sooner than 1 ms after the reset was held. -/
def execResetRelease (s : State) : Result :=
  match s.pcr.releaseAt with
  | none => .next s
  | some t => .next (if s.pcr.phase = .held && suppliesGood s && s.pcr.power ≠ .p3 then releaseReset (reachTime t s) else s)

/-- SWRESET_FULL (R450): a PF write of PCR_SWRESET with the right KEY. -/
def swresetFull (p : Party) (key : BitVec 16) (s : State) : State := if isPf p && key = 0x6400 then fullReset 12 s else s

/-- SWRESET_FULL. -/
def execSwresetFull (p : Party) (key : BitVec 16) (s : State) : Result := .next (swresetFull p key s)

/-- A woken device is released from P3 (R463): a FULL start of cause 16 follows. What the wake detectors recorded stays. -/
def wakeRelease (s : State) : State :=
  let keep := fun (o : Nat) => o = rETH_WAKE_STATUS || (List.range 4).any (fun k => decide (o = rLOOP_WAKE k))
  let regs := mfilter (fun o _ => keep o) s.regs
  let s1 := holdIslands s
  releaseReset (forEach (fun e s => setReg e.1 e.2 s) regs s1)

/-- VIN12 becomes good (R450, R463): a reset that waits for it is released, in P3 only after a wake. -/
def vin12Good (s : State) : State :=
  if s.pcr.vin12 then s
  else
    let s1 := { s with pcr := { s.pcr with vin12 := true } }
    if s1.pcr.phase ≠ .held || !s1.pcr.vaux33 || s1.pcr.releaseAt.isSome || s1.pcr.cause = 10 then s1
    else if s1.pcr.power = .p3 then (if s1.pcr.wakeFrom.isSome then wakeRelease s1 else s1)
    else releaseReset s1

/-- VIN12_GOOD. -/
def execVin12Good (s : State) : Result := .next (vin12Good s)

/-- VIN12 is lost (R467): without a P3 request the VIN12 islands are held in reset until it returns. -/
def vin12Lost (s : State) : State :=
  let s1 := fullReset 1 s
  { s1 with pcr := { s1.pcr with vin12 := false } }

/-- VIN12_LOST. -/
def execVin12Lost (s : State) : Result := .next (if s.pcr.vin12 then vin12Lost s else s)

/-- The always-on island loses its supply (R451): retention, the backup registers, the PCR record and device time are lost. -/
def vaux33Lost (s : State) : State :=
  let s1 := holdIslands s
  let pcr := { Pcr.reset with phase := .off, vin12 := s.pcr.vin12, vaux33 := false, cause := 0, startFails := s.pcr.startFails }
  let tim := { s1.tim with ptpNs := 0, ptpAt := 0, deferred := [], seconds := 0 }
  let crt := { s1.crt with ret := { Retention.empty with valid := false }, liveSince := [] }
  let img := { s1.img with failSection := 0, failReason := 0, failRecord := 0 }
  { s1 with regs := [], ctr := [], alp := Alp.reset, pcr := pcr, tim := tim, crt := crt, img := img, mem := { s1.mem with svcRet := [] } }

/-- VAUX33_LOST. -/
def execVaux33Lost (s : State) : Result := .next (if s.pcr.vaux33 then vaux33Lost s else s)

/-- VAUX33 becomes good (R450, R476): device time starts at 0, and a FULL start of cause 2 follows, with VIN12 good. -/
def vaux33Good (s : State) : State :=
  let s1 := recordFull 2 { s with now := 0, pcr := { s.pcr with vaux33 := true, phase := .held } }
  if s1.pcr.vin12 then releaseReset s1 else s1

/-- VAUX33_GOOD. -/
def execVaux33Good (s : State) : Result := .next (if s.pcr.vaux33 then s else vaux33Good s)

/-- The event and event-mask registers of every block (R539). -/
def eventRegs : List Nat :=
  [rHEP_EVENT, rHEP_EVENT_MASK, rVFM_EVENT, rVFM_EVENT_MASK, rWQM_EVENT, rWQM_EVENT_MASK, rDMA_EVENT, rDMA_EVENT_MASK, rPOOL_EVENT,
   rPOOL_EVENT_MASK, rSWC_EVENT, rSWC_EVENT_MASK, rFLP_EVENT, rFLP_EVENT_MASK, rTMG_EVENT, rTMG_EVENT_MASK, rCPH_EVENT, rCPH_EVENT_MASK]
  ++ [rSTR_EVENT, rSTR_EVENT_MASK, rETH_EVENT, rETH_EVENT_MASK, rCAS_EVENT, rCAS_EVENT_MASK, rSVC_EVENT, rSVC_EVENT_MASK, rPCR_EVENT,
   rPCR_EVENT_MASK, rPCR_IMG_EVENT, rPCR_IMG_EVENT_MASK, rMEM_EVENT, rMEM_EVENT_MASK, rTIM_EVENT, rTIM_EVENT_MASK, rALP_EVENT,
   rALP_EVENT_MASK, rCRT_EVENT, rCRT_EVENT_MASK]
  ++ (List.range 4).flatMap (fun k => [rLOOP_EVENT k, rLOOP_EVENT_MASK k])

/-- The event and event-mask registers at their reset values (R449). -/
def clearEvents (s : State) : State := { s with regs := mfilter (fun o _ => !eventRegs.contains o) s.regs }

/-- The slots of a head at their reset values: power on, indicators off, no status. -/
def resetSlots (s : State) : State :=
  let slots := (s.hep.vsw.map Prod.fst)
  let s1 := forEach (fun k s => if (getVsw s k).slotCtl = VswPort.absent.slotCtl then s else slotControl k VswPort.absent.slotCtl s) slots s
  let calm := fun (_ : Nat) (v : VswPort) => { v with attnPressed := false, presenceChanged := false, cmdCompleted := false, dllChanged := false }
  { s1 with hep := { s1.hep with vsw := mmap calm s1.hep.vsw } }

/-- Timers 0–15 at their reset values (R449). -/
def resetHostTimers (s : State) : State :=
  let timer := fun (o : Nat) => decide (rDMA_TMR_CFG 0 ≤ o) && decide (o ≤ rDMA_TMR_CFG 15)
  { s with regs := mfilter (fun o _ => !timer o) s.regs, dma := { s.dma with timers := mfilter (fun n _ => decide (16 ≤ n)) s.dma.timers } }

/-- The functions, the link and what was under way on it (R449, R224): only reads of service channels still count. With the link up the
completions of the others can still arrive, and their tags stay in use until then (R34). -/
def clearEndpoint (linkDown : Bool) (s : State) : State :=
  let tags := if linkDown then mfilter (fun _ e => channelTag e && !e.abandoned && !e.quarantined) s.hep.tags else s.hep.tags
  let hep := { s.hep with linkUp := false, speed := 0, width := 0, flit := false, cfgReady := false, portsReady := false, operational := false,
                          inReset := true, readyFrom := s.now, fns := [], numVfs := 0, vfEnable := false, tags := tags, memberReads := [] }
  { s with hep := hep, cas := { s.cas with hostReqs := [] } }

/-- A HOST reset (R449, R452), through the link going down or, with the link up, by a Secondary Bus Reset: an FLR under way ends with it,
and no Function Readiness Status is sent for it (R455). -/
def hostResetBy (linkDown : Bool) (cause : Nat) (s : State) : State :=
  if !isRunning s then s
  else
    let up := s.hep.linkUp && linkDown
    let s1 := incr cPCR_HOST_RESETS (recordReset cause s)
    let s2 := clearEndpoint linkDown (resetHostTimers (resetSlots (pfFlrEffects s1)))
    if up then evHep 0 s2 else s2

/-- A HOST reset with the link going down. -/
def hostReset (cause : Nat) (s : State) : State := hostResetBy true cause s

/-- The endpoint reaches configuration ready (R216, R452): after a HOST reset the event and event-mask registers are cleared, and full
operation follows at once where the start has reached it. -/
def endpointReady (s : State) : State :=
  if !s.pcr.cfgReady || s.hep.cfgReady || s.cas.fnHeld || !(s.hep.perstHigh || s.ident.role = .member) then s
  else
    let s1 := if s.hep.inReset then clearEvents s else s
    let s2 := { s1 with hep := { s1.hep with cfgReady := true, portsReady := true, inReset := false, operational := s1.pcr.fullOp } }
    if s2.hep.linkUp || s2.ident.role = .member then hostOut (.hostMsg .drs) s2 else s2

/-- LINK_TRAINING_DONE (R205, R215, R462): the link has trained, or changed rate or width while it was up, which SPEED_CHANGE shows. At
least 20 ms after the start began. A member keeps its lanes in electrical idle, and so does a device in Refuge mode or the recovery
hold. -/
def execLinkTrainingDone (speed width : Nat) (flit : Bool) (s0 : State) : Result :=
  if !isRunning s0 || s0.ident.role = .member || !s0.hep.perstHigh || s0.pcr.refuge || s0.pcr.recoveryHold || powerSchedule s0 = .p3 then
    .next s0
  else
    let s := reachTime (s0.pcr.startAt + ms 20) s0
    let changed := s.hep.linkUp && (decide (s.hep.speed ≠ speed) || decide (s.hep.width ≠ width))
    let s1 := { s with hep := { s.hep with linkUp := true, speed := speed, width := width, flit := flit } }
    let s2 := if changed then evHep 1 s1 else s1
    .next (if s2.hep.cfgReady && !s.hep.linkUp then emit (.hostMsg .drs) s2 else s2)

/-- PCIE_LINK_DOWN (R450): the link goes down to Detect. -/
def execPcieLinkDown (s : State) : Result := .next (if s.hep.linkUp then hostReset 4 s else s)

/-- PERST_ASSERT (R450): ignored on a MEMBER. -/
def execPerstAssert (s : State) : Result :=
  if s.ident.role = .member || !s.hep.perstHigh then .next s
  else .next (hostReset 3 { s with hep := { s.hep with perstHigh := false } })

/-- PERST_DEASSERT (R215): configuration ready follows. -/
def execPerstDeassert (s : State) : Result :=
  if s.ident.role = .member || s.hep.perstHigh then .next s
  else .next { s with hep := { s.hep with perstHigh := true, readyFrom := s.now } }

/-- HOT_RESET (R452). -/
def execHotReset (s : State) : Result := .next (if s.hep.linkUp then hostReset 4 s else s)

/-- A HOST reset of a member that its head asks for by a Secondary Bus Reset (R450). -/
def memberHostReset (s : State) : State := hostResetBy false 4 s

/-- Service DMA channels stop (R289, R393). -/
def stopServiceChannels (s : State) : State :=
  forEach (fun ch s => if (getCh s ch).state = .idle then s else idleCh ch 2 s) (span 384 64) (abandonReads channelTag s)

/-- A SERVICE reset (R393, R449): the cluster and its channels, the service admin ring, and the mailboxes; SC0.T0 restarts as at
configuration ready. -/
def serviceReset (cause : Nat) (s : State) : State :=
  if !isRunning s then s
  else
    let s1 := stopServiceChannels (clearCluster (recordReset cause s))
    let s2 := resetMbxService (resetRing true s1)
    if s2.pcr.cfgReady && !s2.pcr.refuge then startSupervisor s2 else s2

/-- SWRESET_SERVICE (R450). -/
def swresetService (p : Party) (key : BitVec 16) (s : State) : State := if isPf p && key = 0x6400 then serviceReset 13 s else s

/-- SWRESET_SERVICE. -/
def execSwresetService (p : Party) (key : BitVec 16) (s : State) : Result := .next (swresetService p key s)

/-- SERVICE_WDOG_EXPIRY (R393): PERIOD_MS after the latest kick. -/
def execServiceWdogExpiry (s : State) : Result :=
  if !s.svc.ready || regFld s rSVC_WDOG 0 16 = 0 then .next s
  else
    let s1 := reachTime (s.svc.kickAt + ms (regFld s rSVC_WDOG 0 16)) s
    let s2 := logEvent .watchdog (toLe 4 (getReg s1 rSVC_WDOG).toNat) (serviceReset 9 s1)
    .next (evSvc 1 (incr cSVC_RESTARTS s2))

end Sys2Proof.Machine
end

