-- ==== Sys2Proof/Machine/Management.lean ====
section
/-! DEFINITION. Signed management messages: checks of R339, plays, and signed resets (R456). -/

namespace Sys2Proof.Machine

/-- KIND of a signed management message. -/
def mgmtKind (m : Bytes) : Nat := byteAt m 3

/-- ARG of a signed management message. -/
def mgmtArg (m : Bytes) : Nat := beAt m 24 4

/-- MAGIC, VERSION, KIND, SEQ[63:32], the reserved bytes and ARG are correct (R339, R456). -/
def mgmtFormat (m : Bytes) : Bool :=
  m.length = 64 && beAt m 0 2 = 0xE5A2 && byteAt m 2 = 1 && decide (1 ≤ mgmtKind m) && decide (mgmtKind m ≤ 3) && beAt m 12 4 = 0
    && byteAt m 21 = 0 && allZero (slice m 28 20) && (mgmtKind m = 3 || mgmtArg m = 0)

/-- Authority bit that KIND needs: 0 may PLAY, 1 may RESET (R339). -/
def mgmtAuthority (m : Bytes) : Nat := if mgmtKind m = 3 then 1 else 0

/-- Whether Crater rejects a signed management message (R339, R456). -/
def mgmtRejected (s : State) (m : Bytes) : Bool :=
  s.crt.sec = .zeroised || !mgmtFormat m
    || (match mfind s.crt.mgmtOriginators (emsgOrigin m).toNat with
        | none => true
        | some bits =>
          !nbit bits (mgmtAuthority m)
            || (match lastSeqOf s.crt.ret.mgmtSeq (emsgOrigin m) with | some q => decide (emsgSeq m ≤ q) | none => false)
            || !tagGood s s.crt.roles.management m)
    || (mgmtKind m = 3 && (mgmtArg m = 0 || decide (3 < mgmtArg m)))

/-- SEQ of a management originator is kept in retention and mirrored in NVM (R339, R399). -/
def keepMgmtSeq (m : Bytes) (s : State) : State :=
  let r := setLastSeq s.crt.ret.mgmtSeq (emsgOrigin m) (emsgSeq m)
  { s with crt := { s.crt with ret := { s.crt.ret with mgmtSeq := r }, mirrorMgmt := r } }

/-- The reset that an accepted message selects (R456), of cause 6 over SMBus and 7 over a loop (R450). -/
def signedReset (cause arg : Nat) (s : State) : State :=
  match arg with
  | 1 => fullReset cause s
  | 2 => fullReset cause { s with pcr := { s.pcr with startFails := 0 } }
  | _ => serviceReset cause s

/-- What an accepted message does (R339). -/
def applyMgmt (cause : Nat) (m : Bytes) (s : State) : State :=
  let ch := byteAt m 20
  let msg := beAt m 22 2
  match mgmtKind m with
  | 1 => if (playRefusal s ch msg).isNone then acceptPlay ch msg none s else s
  | 2 => if (stopRefusal s ch).isNone then stopPlay ch s else s
  | _ => signedReset cause (mgmtArg m) s

/-- A management frame of loop port `lp` is checked and acted on (R339). -/
def checkMgmt (lp : Nat) (m : Bytes) (s : State) : State :=
  if mgmtRejected s m then evLoop lp 10 (incr (cLOOP_MGMT_REJECT lp) s) else applyMgmt 7 m (keepMgmtSeq m s)

/-- A signed reset over MCTP is checked and acted on: completion code 0, or 1 where it is rejected (R456). -/
def checkSignedReset (m : Bytes) (s : State) : State :=
  if mgmtRejected s m || mgmtKind m ≠ 3 then smbRespond [1] s else applyMgmt 6 m (smbRespond [0] (keepMgmtSeq m s))

/-- A message that comes while Crater restarts is held, at most 16 with the EMSGs (R453); `lp` 4 stands for MCTP. -/
def holdMgmt (lp : Nat) (m : Bytes) (s : State) : State :=
  if s.alp.heldMsgs.length < 16 then { s with alp := { s.alp with heldMsgs := s.alp.heldMsgs ++ [.mgmt lp m] } }
  else incr cPCR_MSG_HELD_DROP s

/-- A management frame reaches Crater, from its image on. -/
def mgmtIn (lp : Nat) (m : Bytes) (s : State) : State :=
  if !isRunning s || 4 ≤ lp || !s.alp.pathReady then s
  else if s.crt.restarting then holdMgmt lp m s
  else checkMgmt lp m s

/-- Whether a message belongs to the row of a KIND: a reserved KIND belongs to each. -/
def mgmtRow (k : Nat) (m : Bytes) : Bool := mgmtKind m = k || mgmtKind m = 0 || decide (3 < mgmtKind m)

/-- MGMT_PLAY (R339, R198). -/
def execMgmtPlay (lp : Nat) (msg : Bytes) (s : State) : Result := .next (if mgmtRow 1 msg then mgmtIn lp msg s else s)
/-- MGMT_PLAY_STOP (R339, R199). -/
def execMgmtPlayStop (lp : Nat) (msg : Bytes) (s : State) : Result := .next (if mgmtRow 2 msg then mgmtIn lp msg s else s)
/-- MGMT_RESET (R456). -/
def execMgmtReset (lp : Nat) (msg : Bytes) (s : State) : Result := .next (if mgmtRow 3 msg then mgmtIn lp msg s else s)

/-- MCTP_SIGNED_RESET (R456). Before the originators of the image are known the message is rejected. -/
def execMctpSignedReset (msg : Bytes) (s : State) : Result :=
  onMctp (fun s => if s.crt.restarting then holdMgmt 4 msg s else checkSignedReset msg s) s

end Sys2Proof.Machine
end

