-- ==== Sys2Proof/Machine/Power.lean ====
section
/-! DEFINITION. Power states, the watch state and its wakes, the thermal monitor and the clock islands (R460–R465). -/

namespace Sys2Proof.Machine

/-- The power state of a target code (R461). -/
def powerOf : Nat → Option PowerState
  | 0 => some .p0
  | 1 => some .p1
  | 2 => some .p2
  | 3 => some .p3
  | _ => none

/-- ERR_CODE of a power request: 0 when it is taken (R461). -/
def powerRefusal (s : State) (t : PowerState) : Nat :=
  if s.pcr.refuge || s.pcr.recoveryHold || (t = .p3 && s.alp.state ≠ .normal) then 5 else 0

/-- A request that is not refused: its transition begins, or it waits for full operation or the transition under way (R461). -/
def takePower (t : PowerState) (s : State) : State :=
  if s.pcr.fullOp && s.pcr.target.isNone then { s with pcr := { s.pcr with target := some t, targetFrom := s.now } }
  else { s with pcr := { s.pcr with queued := some t } }

/-- A power request (R461): ERR_CODE of the answer, 0 where it is taken. -/
def requestPower (t : PowerState) (s : State) : Nat × State :=
  let e := powerRefusal s t
  (e, if e = 0 then takePower t s else evPcr 3 s)

/-- The request that has waited is taken; one that is not allowed by now is refused (R461). -/
def takeQueued (s : State) : State :=
  match s.pcr.queued with
  | none => s
  | some t => (requestPower t { s with pcr := { s.pcr with queued := none } }).2

/-- ERR and ERR_CODE of PCR_PWR_CTL. -/
def setPowerError (e : Nat) (s : State) : State := setReg rPCR_PWR_CTL (putFld 24 3 e ||| putBit 30 (decide (e ≠ 0))) s

/-- A write of PCR_PWR_CTL.CMD: 1–4 stand for P0–P3, 0 for no request; only the PF writes it. -/
def writePowerCtl (p : Party) (cmd : Nat) (s : State) : State :=
  if !isPf p || !isRunning s || cmd = 0 then s
  else match powerOf (cmd - 1) with
    | none => setPowerError 3 s
    | some t => let r := requestPower t s; setPowerError r.1 r.2

/-- PWR_CTL_P0 (R461). -/
def execPwrCtlP0 (p : Party) (s : State) : Result := .next (writePowerCtl p 1 s)
/-- PWR_CTL_P1 (R461). -/
def execPwrCtlP1 (p : Party) (s : State) : Result := .next (writePowerCtl p 2 s)
/-- PWR_CTL_P2 (R461). -/
def execPwrCtlP2 (p : Party) (s : State) : Result := .next (writePowerCtl p 3 s)
/-- PWR_CTL_P3 (R461). -/
def execPwrCtlP3 (p : Party) (s : State) : Result := .next (writePowerCtl p 4 s)

/-- MCTP_POWER_STATE (R461): completion code 0, or 1 where the request is refused. -/
def execMctpPowerState (target : Nat) (s : State) : Result :=
  onMctp (fun s =>
    match powerOf target with
    | none => smbRespond [1] s
    | some t => let r := requestPower t s; smbRespond [if r.1 = 0 then 0 else 1] r.2) s

/-- The blocks take the power schedule in force (R460, R462). -/
def fitPower (s : State) : State := loseTests (clearUnpowered (fitGroups s))

/-- A POWER or THERMAL entry of the log (R481): the registers that report the event. -/
def powerData (s : State) : Bytes :=
  toLe 4 (s.pcr.power.code * 4 + (if s.pcr.thermHold then 128 else 0) + (if s.pcr.thermCrit then 256 else 0)) ++ toLe 4 (BitVec.ofInt 9 s.pcr.tempC).toNat

/-- P3 is entered (R463): the order of R454, then every island on VIN12 is without power. The wake detectors keep what they match. -/
def enterP3 (s : State) : State :=
  let s1 := if linksAllowed s then sendTopo true (upLinks s) s else s
  let s2 := deferEntry .power (powerData { s1 with pcr := { s1.pcr with power := .p3 } }) s1
  let s3 := setReg rETH_WAKE_CFG (getReg s rETH_WAKE_CFG) (holdIslands s2)
  let loops := mmap (fun lp x => { (getLoop State.reset lp) with on := x.on }) s.loops.ports
  let st := match mfind (getPort s 0).stations 0 with | some a => [(0, a)] | none => []
  setPort 0 { getPort s3 0 with stations := st }
    { s3 with pcr := { s3.pcr with power := .p3, target := none, queued := none, releaseAt := none }, loops := { ports := loops },
              alp := { s3.alp with etype := s.alp.etype, udpPort := s.alp.udpPort } }

/-- Least time of a transition (R466): 1 ms to or from P2 and to P3, 10 µs between P0 and P1. -/
def transitionTime (a b : PowerState) : Nat := if a = .p2 || b = .p2 || b = .p3 then ms 1 else us 10

/-- POWER_TRANSITION_DONE (R461–R463, R466). -/
def execPowerTransitionDone (s0 : State) : Result :=
  if !isRunning s0 then .next s0
  else
    match s0.pcr.target with
    | none => .next s0
    | some t =>
      let s := reachTime (s0.pcr.targetFrom + transitionTime s0.pcr.power t) s0
      if t = .p3 then .next (enterP3 s)
      else
        let s1 := fitPower { s with pcr := { s.pcr with power := t, target := none } }
        .next (takeQueued (evPcr 2 (logEvent .power (powerData s1) s1)))

/-- A wake event in P3 (R463): WAKE_OUT_N goes low, and with VIN12 good the reset is released. -/
def wakeDevice (src : WakeSource) (s : State) : State :=
  if s.pcr.power ≠ .p3 || s.pcr.phase ≠ .held || s.pcr.wakeFrom.isSome then s
  else
    let s1 := incr cPCR_P3_WAKES (recordFull 16 s)
    let s2 := emit (.pin 0 false) { s1 with pcr := { s1.pcr with wakeOutLow := true, wakeFrom := some src } }
    if suppliesGood s2 then wakeRelease s2 else s2

/-- P3_WAKE (R463). -/
def execP3Wake (source : WakeSource) (s : State) : Result := .next (wakeDevice source s)

/-- Sixteen repetitions of an address behind six bytes of ones. -/
def magicBytes (mac : Nat) : Bytes := List.replicate 6 0xFF ++ (List.replicate 16 (toBe 6 mac)).flatten

/-- Whether a pattern lies in a byte string. -/
def hasPattern (p : Bytes) : Bytes → Bool
  | [] => p.isEmpty
  | b :: bs => p.isPrefixOf (b :: bs) || hasPattern p bs

/-- An EMSG that the wake detector keeps, at most 4 (R321). -/
def keepWakeMsg (m : Bytes) (s : State) : State :=
  let l := s.crt.ret.wakeMsgs
  if 4 ≤ l.length then s
  else
    let s1 := setRet { s.crt.ret with wakeMsgs := l ++ [.emsg .eth m s.now] } s
    setRegFld rETH_WAKE_STATUS 2 3 (l.length + 1) s1

/-- WAKE_PATTERN_RX (R321): a frame on E0 in P3, or between the wake and the release. -/
def execWakePatternRx (f : RxFrame) (s : State) : Result :=
  let mac := ((mfind (getPort s 0).stations 0).map (fun (a : Station) => a.mac.toNat)).getD 0
  let dst := beAt f.bytes 0 6
  let magic := bit (getReg s rETH_WAKE_CFG) 0 && hasPattern (magicBytes mac) (f.bytes.take 512)
  let emsg := bit (getReg s rETH_WAKE_CFG) 1 && isEmsgFrame s f.bytes
  if s.pcr.power ≠ .p3 || s.pcr.phase ≠ .held || !f.fcsGood || (dst ≠ mac && dst ≠ 0xFFFFFFFFFFFF) || !(magic || emsg) then .next s
  else
    let s1 := if emsg then keepWakeMsg (emsgPayload s f.bytes) s else s
    let s2 := if s.pcr.wakeFrom.isSome then s1
      else setReg rETH_WAKE_STATUS (setFld (setFld (getReg s1 rETH_WAKE_STATUS) 0 1 magic.toNat) 1 1 (emsg && !magic).toNat) s1
    .next (wakeDevice .ethernet s2)

/-- WAKE_RX (R349): an unbroken WAKE stream at a loop port in P3. -/
def execWakeRx (lp : Nat) (west : Bool) (sender reason : Nat) (s : State) : Result :=
  let _side := west
  if 4 ≤ lp || s.pcr.power ≠ .p3 || s.pcr.phase ≠ .held || s.pcr.wakeFrom.isSome || !(getLoop s lp).on then .next s
  else .next (wakeDevice (.loop lp) (setReg (rLOOP_WAKE lp) (putFld 16 10 sender ||| putFld 26 4 reason ||| putBit 31 true) s))

/-- The thermal hold begins (R464). -/
def beginHold (s : State) : State :=
  let s1 := { s with pcr := { s.pcr with thermHold := true } }
  if isRunning s then evPcr 0 (logEvent .thermal (powerData s1) (fitPower s1)) else s1

/-- The thermal hold ends (R464). -/
def endHold (s : State) : State :=
  let s1 := { s with pcr := { s.pcr with thermHold := false } }
  if isRunning s then logEvent .thermal (powerData s1) (fitPower s1) else s1

/-- THERMAL_SAMPLE (R464, R315, R521): `celsius` is the highest of the junction sites. -/
def execThermalSample (celsius : Int) (s : State) : Result :=
  if s.pcr.phase = .off then .next s
  else
    let cool := if celsius < 100 then some (s.pcr.coolFrom.getD s.now) else none
    let top := match s.pcr.maxC with | some m => max m celsius | none => celsius
    let crit := decide (115 ≤ celsius)
    let s1 := { s with pcr := { s.pcr with tempC := celsius, maxC := some top, coolFrom := cool, thermCrit := crit } }
    let s2 := if decide (105 ≤ celsius) && !s1.pcr.thermHold then beginHold s1 else s1
    let s3 := if crit && !s.pcr.thermCrit && isRunning s2 then evPcr 1 s2 else s2
    if 120 ≤ celsius then .next (fullReset 10 s3)
    else .next (if isRunning s3 then forEach sampleDrift (List.range 4) s3 else s3)

/-- THERMAL_HOLD_END (R464): the junction has stayed below 100 °C for 10 s. -/
def execThermalHoldEnd (s : State) : Result :=
  match s.pcr.coolFrom with
  | none => .next s
  | some t => .next (if s.pcr.thermHold then endHold (reachTime (t + ms 10000) s) else s)

/-- THERMAL_TRIP_RELEASE (R464): the reset of a thermal trip is released once the junction has stayed below 100 °C for 10 s. -/
def execThermalTripRelease (s : State) : Result :=
  match s.pcr.coolFrom with
  | none => .next s
  | some t =>
    if s.pcr.phase ≠ .held || s.pcr.cause ≠ 10 || !suppliesGood s || s.pcr.power = .p3 then .next s
    else
      let s1 := reachTime (t + ms 10000) s
      .next (releaseReset { s1 with pcr := { s1.pcr with thermHold := false } })

end Sys2Proof.Machine
end

