-- ==== Sys2Proof/Machine/Crater.lean ====
section
/-! DEFINITION. Crater's own restart and resumption (R397, R412, R453), tamper trips and zeroisation (R168, R415, R416), and the clock
islands (R465). -/

namespace Sys2Proof.Machine

/-- A CRATER restart (R397, R426, R453): `cause` as in CRT_RESTART. Requests that wait in the mailboxes are cleared. -/
def craterRestart (cause : Nat) (s : State) : State :=
  if !isRunning s then s
  else
    let s1 := incr cCRT_RESTARTS (recordReset 8 s)
    let s2 := { s1 with crt := { s1.crt with restarting := true, restartAt := s1.now, restartCause := BitVec.ofNat 2 cause } }
    evCrt 5 (resetMbxCrater s2)

/-- CRATER_WATCHDOG_EXPIRY (R397). -/
def execCraterWatchdogExpiry (s : State) : Result :=
  .next (craterRestart 1 (if isRunning s then logEvent .watchdog (toLe 4 1) s else s))
/-- LOCKSTEP_MISMATCH (R397). -/
def execLockstepMismatch (s : State) : Result := .next (craterRestart 2 s)
/-- DOUBLE_TRAP (R397). -/
def execDoubleTrap (s : State) : Result := .next (craterRestart 3 s)

/-- The key operation that retention records is reported after a reset that restarts Crater (R412). -/
def reportKeyop (s : State) : State :=
  match s.crt.ret.keyOp with
  | none => s
  | some op =>
    let found := slotGeneration s op.slot.toNat
    let crt := { s.crt with keyop := some op, keyopFound := found, keyopCommitted := found = op.expectGen + 1, ret := { s.crt.ret with keyOp := none } }
    evCrt 2 { s with crt := crt }

/-- Key commands that Crater had taken up complete with UNKNOWN_AFTER_RESET; the others are executed from now on (R412). -/
def resumeKeyJobs (s : State) : State :=
  let s1 := match s.crt.keyJobs with
    | j :: _ => if j.taken then endKeyJob .unknownAfterReset s else s
    | [] => s
  takeKeyJob s1

/-- The active-originator set and the fault source that Crater restores (R49, R53, R70): a ZEROISED device keeps no originators over a
reset that restarts Crater. -/
def restoreSources (s : State) : State :=
  let active := if s.crt.sec = .zeroised then [] else s.crt.ret.active
  setRet { s.crt.ret with active := active }
    { s with alp := { s.alp with active := active, srcFault := s.alp.inFault && s.alp.faultDeclares } }

/-- The CRATER-restart row of R70: a holdover restarts at 60,000 ms and a drill at its limit; EMERGENCY without a declaration passes to
HOLDOVER, and a declaration drives EMERGENCY, its latency running from the declaration itself (R58). -/
def resumeAlarm (s0 : State) : State :=
  let s := restoreSources s0
  let was := s.alp.state
  let s1 := signalOnce rALP_EVENT rALP_EVENT_MASK (fun s => settleAlarm (declaredFrom s) (refreshView s)) s
  if s1.alp.state ≠ was then s1
  else match was with
    | .holdover => { s1 with alp := { s1.alp with holdEnd := some (s1.now + ms 60000) } }
    | .drill => { s1 with alp := { s1.alp with drillEnd := some (s1.now + drillLimit s1) } }
    | _ => s1

/-- A message that was held is checked. A reset that an earlier one caused leaves it unchecked. -/
def checkHeld (m : HeldMessage) (s : State) : State :=
  if !isRunning s then s
  else match m with
    | .emsg path b rx => checkEmsg path b rx s
    | .mgmt lp b => if lp < 4 then checkMgmt lp b s else checkSignedReset b s

/-- The messages that were held are checked in their order (R453). -/
def releaseMessages (s : State) : State := forEach checkHeld s.alp.heldMsgs { s with alp := { s.alp with heldMsgs := [] } }

/-- CRATER_RESUME (R453): at least 5 ms after the restart began (R466). -/
def execCraterResume (s : State) : Result :=
  if !s.crt.restarting || !isRunning s then .next s
  else
    let resume := fun s : State => let s1 := bootSteps s; reportKeyop { s1 with crt := { s1.crt with restarting := false } }
    let s2 := resumeKeyJobs (signalOnce rCRT_EVENT rCRT_EVENT_MASK resume (reachTime (s.crt.restartAt + ms 5) s))
    .next (withMarkers (fun s => releaseMessages (if s.alp.pathReady then resumeAlarm s else s)) s2)

/-- Whether a tamper source acts (R415): 0 TAMPER_N, 1 mesh, 2 supply, 3 clock, 4 cold. The last two need Crater's power. -/
def tamperEnabled (s : State) (n : Nat) : Bool :=
  match n with
  | 0 => s.crt.tamperNEn
  | 1 => true
  | 2 => true
  | 3 => isRunning s
  | 4 => s.crt.coldEn && isRunning s
  | _ => false

/-- A source enters or leaves its trip condition (R415). -/
def setTrip (n : Nat) (on : Bool) (s : State) : State :=
  let b := BitVec.ofNat 5 (2 ^ n)
  if 5 ≤ n || s.pcr.phase = .off || s.crt.live.getLsbD n = on then s
  else if on then { s with crt := { s.crt with live := s.crt.live ||| b, liveSince := minsert s.crt.liveSince n s.now } }
  else { s with crt := { s.crt with live := s.crt.live &&& ~~~ b, liveSince := merase s.crt.liveSince n } }

/-- TAMPER_TRIP_CONDITION (R415). -/
def execTamperTripCondition (source : Nat) (on : Bool) (s : State) : Result := .next (setTrip source on s)

/-- Least time from the condition to its acceptance (R415). -/
def tripWait (n : Nat) : Nat := if n = 0 then us 10 else 0

/-- Enabled sources whose condition has not been accepted yet, with the time their acceptance can come. -/
def tripsDue (s : State) : List (Nat × Nat) :=
  (s.crt.liveSince.filter (fun e => tamperEnabled s e.1)).map (fun e => (e.1, e.2 + tripWait e.1))

/-- The earliest of the times. -/
def earliest : List (Nat × Nat) → Option Nat
  | [] => none
  | (_, t) :: l => some (match earliest l with | some u => min t u | none => t)

/-- The engines stop (R168, R169): passes that have not left them are discarded, and the keys are gone. -/
def stopCipher (s : State) : State :=
  let gone := (s.cph.passes.filter (fun e => e.2.state ≠ .buffered)).length
  let passes := mfilter (fun _ p => decide (p.state = .buffered)) s.cph.passes
  addCtr cCPH_ZEROISED_DROP gone { s with cph := { s.cph with passes := passes, slots := [], cached := [], lostEntries := [], jobMisses := [] } }

/-- Every key command completes with ZEROISED (R416). -/
def endKeyJobs : Nat → State → State
  | 0, s => s
  | n + 1, s => endKeyJobs n (endKeyJob .zeroised s)

/-- What an accepted trip does to a running device (R168, R169, R416): no key can be recovered from then on. -/
def zeroise (tripped : BitVec 5) (s : State) : State :=
  let changed := decide (s.crt.sec ≠ .zeroised)
  let ret := { s.crt.ret with zeroisePending := true, tripped := tripped, trippedValid := true, keyOp := none }
  let crt := { s.crt with sec := .zeroised, zeroMarker := true, seed := none, ret := ret, nonApproved := s.crt.nonApproved || s.alp.clearFallback }
  let s1 := endKeyJobs s.crt.keyJobs.length { s with crt := crt }
  let s2 := dropRecorder (stopCipher s1)
  let s3 := if s2.pcr.target = some .p3 then evPcr 4 { s2 with pcr := { s2.pcr with target := none } } else s2
  let s4 := logEvent .tamper (toLe 4 tripped.toNat) (raiseBits rCRT_EVENT rCRT_EVENT_MASK (putBit 3 true ||| putBit 0 changed) (evCph 5 s3))
  let s5 := if changed then logEvent .secState (toLe 4 s4.crt.sec.code ++ toLe 4 s4.crt.degCause.toNat) s4 else s4
  forEach linkDown (List.range 4) s5

/-- An accepted trip while the VIN12 islands are held or without power (R415, R416): retention records it, and the next start completes
the overwrite. -/
def zeroiseHeld (tripped : BitVec 5) (s : State) : State :=
  let ret := { s.crt.ret with zeroisePending := true, tripped := tripped, trippedValid := true, keyOp := none }
  { s with crt := { s.crt with sec := .zeroised, seed := none, zeroMarker := true, ret := ret } }

/-- TAMPER_ACCEPT (R415, R416, R463): the sources whose condition has lasted for its interval are accepted together. -/
def execTamperAccept (s : State) : Result :=
  let due := tripsDue s
  match earliest due with
  | none => .next s
  | some t =>
    let s1 := reachTime t s
    let hit := (due.filter (fun e => decide (e.2 ≤ s1.now))).map Prod.fst
    let tripped := BitVec.ofNat 5 (hit.foldl (fun m n => m + 2 ^ n) 0)
    let s2 := { s1 with crt := { s1.crt with liveSince := mfilter (fun n _ => !hit.contains n) s1.crt.liveSince } }
    if isRunning s then .next (withMarkers (zeroise tripped) s2)
    else .next (wakeDevice .tamper (zeroiseHeld tripped s2))

/-- ZEROISE_COMPLETE (R168, R416): both copies of every slot are overwritten, and the reset of cause 11 acts. -/
def execZeroiseComplete (s : State) : Result :=
  if !isRunning s || !s.crt.ret.zeroisePending then .next s else .next (fullReset 11 (overwriteStore s))

/-- Whether an island has power (R29, R460, R465). -/
def islandPowered (s : State) (n : Nat) : Bool :=
  if s.pcr.phase = .off || 108 ≤ n then false
  else if n = 101 then true
  else if !isRunning s then s.pcr.power ≠ .p3 && s.pcr.vin12
  else if n < 20 then
    let g := if n < 16 then n / 4 else n - 16
    (laneGroup s g).mode ≠ .down && (!s.pcr.refuge || n = 0 || n = 16)
  else if n < 24 then true
  else if n < 28 || (decide (31 ≤ n) && decide (n < 42)) then !s.pcr.refuge
  else if n < 31 then true
  else if n < 74 then enginePowered s (8 * (n - 42))
  else if n = 74 || n = 77 || n = 82 then true
  else if n < 83 then !s.pcr.refuge
  else if n < 99 then decide (2 * (n - 83) < coresPowered s)
  else if n = 102 || n = 103 then !s.pcr.refuge
  else true

/-- ISLAND_CLOCK_FAULT (R465): a FULL reset of cause 15; Crater's clock is watched by the tamper clock monitor instead. -/
def execIslandClockFault (island : Nat) (s : State) : Result :=
  if !isRunning s || !islandPowered s island then .next s
  else if island = 99 then .next (setTrip 3 true s)
  else .next (fullReset 15 { s with pcr := { s.pcr with clkFault := [island] } })

end Sys2Proof.Machine
end

