-- ==== Sys2Proof/Machine/RegRead.lean ====
section
/-! DEFINITION. Reads of registers through the three views (R10, R499–R502, R506): the value of each register that the device computes
from its state, and what a read does beside returning it. -/

namespace Sys2Proof.Machine

/-- Number of a role (HEP_STATUS.ROLE, CAS_STATUS.ROLE). -/
def roleCode : Role → Nat
  | .standalone => 0
  | .head => 1
  | .member => 2

/-- Number of a function state (R240). -/
def fnStateCode : FnState → Nat
  | .run => 0
  | .quiesce => 1
  | .stopped => 2
  | .error => 3

/-- Number of a profile state (R124). -/
def profStateCode : ProfState → Nat
  | .run => 0
  | .quiesce => 1
  | .stopped => 2
  | .error => 3

/-- Number of a queue state (R265). -/
def queueStateCode : QueueState → Nat
  | .disabled => 0
  | .run => 1
  | .error => 2

/-- Number of a channel state (DMA_CH_CTL). -/
def chStateCode : ChState → Nat
  | .idle => 0
  | .run => 1
  | .wait => 2
  | .paused => 3
  | .faulted => 4

/-- Number of a thread state (SVC_THREAD_CTL). -/
def threadStateCode : ThreadState → Nat
  | .off => 0
  | .held => 1
  | .run => 2
  | .evwait => 3
  | .faulted => 4
  | .faultedUnsaved => 5

/-- Number of a link state (CAS_LINK_STATUS). -/
def linkStateCode : LinkState → Nat
  | .down => 0
  | .training => 1
  | .verify => 2
  | .up => 3
  | .retrain => 4
  | .held => 5

/-- Number of a lane-group mode (ETH_GRP_STATUS). -/
def groupModeCode : GroupMode → Nat
  | .one400 => 0
  | .two200 => 1
  | .four100 => 2
  | .down => 3

/-- Number of a synthesiser state. -/
def synthCode : Synth → Nat
  | .notReady => 0
  | .ready => 1
  | .calibrating => 2
  | .fault => 3

/-- Number of the other bank's state (PCR_IMG_STATUS). -/
def otherCode : OtherBank → Nat
  | .unchecked => 0
  | .verified => 1
  | .failed => 2
  | .writing => 3
  | .checking => 4

/-- Number of a time source (TIM_STATUS). -/
def ptpSourceCode : PtpSource → Nat
  | .free => 0
  | .ptp => 1
  | .loop => 2

/-- A word whose bit k tells whether `p` picks unit k. -/
def bitsWord (p : Nat → Bool) : Word := (List.range 32).foldl (fun v k => v ||| putBit k (p k)) 0

/-- A two's-complement number in a field. -/
def putSigned (lo w : Nat) (x : Int) : Word := putFld lo w (BitVec.ofInt 32 x).toNat

/-- HEP registers. -/
def hepValue (p : Party) (o : Nat) (s : State) : Option Word :=
  if o = rHEP_STATUS then
    some (putBit 0 s.hep.linkUp ||| putFld 1 3 s.hep.speed ||| putBit 4 s.hep.flit ||| putFld 5 5 s.hep.width ||| putBit 10 s.hep.cfgReady
      ||| putBit 11 s.hep.operational ||| putFld 12 2 (roleCode s.ident.role))
  else if o = rHEP_TAGS then
    some (putFld 0 15 s.hep.tags.length ||| putFld 16 15 (s.hep.tags.filter (fun e => e.2.quarantined)).length)
  else if o = rHEP_FN_STATUS then
    let fn := fld (getView s p rHEP_FN_SEL) 0 13
    let f := getFn s fn
    some (putBit 0 f.bme ||| putBit 1 (memEnabled s fn && (decide (pf ≤ fn) || decide (fn < vfsInEffect s))) ||| putBit 2 f.flrFrom.isSome
      ||| putBit 3 (!f.held.isEmpty) ||| putBit 4 f.d3hot ||| putFld 5 15 (tagsOf s fn))
  else if o = rHEP_VSW_SEL then some (if s.ident.role = .head then getView s p o else 0)
  else if o = rHEP_VSW_STATUS then
    let k := fld (getView s p rHEP_VSW_SEL) 0 6
    let v := getVsw s k
    some (if s.ident.role = .head then
      putBit 0 (portPresent s k) ||| putBit 1 (portActive s k) ||| putBit 2 (!v.powerOff) ||| putFld 3 2 v.attnInd.toNat ||| putFld 5 2 v.pwrInd.toNat
    else 0)
  else none

/-- VFM registers. -/
def vfmValue (o : Nat) (s : State) : Option Word :=
  if o = rVFM_STATUS then
    some (putBit 0 s.pcr.pathReady ||| putBit 1 s.hep.vfEnable ||| putFld 2 13 (vfsInEffect s)
      ||| putFld 16 13 (s.vfm.fns.filter (fun e => e.2.state = .error)).length)
  else if o = rVFM_FN_CTL then
    let v := getReg s o
    some (setFld v 20 2 (fnStateCode (getFnS s (fld v 0 13)).state))
  else none

/-- WQM registers. -/
def wqmValue (o : Nat) (s : State) : Option Word :=
  let q := getQueue s (regFld s rWQM_QCTL 0 16)
  if o = rWQM_STATUS then
    some (putBit 0 s.pcr.pathReady ||| putBit 1 s.hep.operational ||| putFld 2 2 (queueStateCode (getQueue s 0).state))
  else if o = rWQM_QCTL then
    some (setFld (setFld (getReg s o) 18 2 (queueStateCode q.state)) 31 1 (if q.resets.isEmpty then 0 else 1))
  else if o = rWQM_QHEAD then some (BitVec.ofNat 32 q.freed)
  else if o = rWQM_QTAIL then some (BitVec.ofNat 32 q.tail)
  else if o = rWQM_QERR then
    some (match q.qerr with
      | some (i, st) => putFld 0 16 i ||| putFld 16 8 st.toNat ||| putBit 31 true
      | none => 0)
  else none

/-- DMA registers. -/
def dmaValue (p : Party) (o : Nat) (s : State) : Option Word :=
  let ch := fld (getView s p rDMA_CH_SEL) 0 9
  let c := getCh s ch
  if o = rDMA_STATUS then some (putBit 0 s.pcr.pathReady ||| putBit 1 (levelAt s .dma).emergent ||| putFld 2 9 (min 384 (queueChannels s)))
  else if o = rDMA_CH_CTL then
    some (putBit 3 c.pauseReq ||| putFld 8 3 (chStateCode c.state) ||| putBit 11 (c.held && !maySend s c.inst) ||| putBit 30 c.err)
  else if o = rDMA_CH_PROG then some (putFld 0 13 c.base ||| putFld 16 13 c.last)
  else if o = rDMA_CH_PC then some (putFld 0 13 c.pc)
  else if o = rDMA_CH_MODE then some (putFld 0 13 c.inst ||| putFld 13 2 c.src.toNat ||| putFld 15 2 c.dst.toNat)
  else if o = rDMA_CH_FAULT then
    some (match c.fault with
      | some f => putFld 0 8 f.status.toNat ||| putFld 8 2 f.kind.toNat ||| putFld 10 3 f.depth ||| putBit 31 (decide (c.state = .faulted))
      | none => 0)
  else if o = rDMA_CH_END then some (putFld 0 2 c.endCode.toNat ||| putFld 16 16 c.sigcode.toNat)
  else if rDMA_CH_LOOP 0 ≤ o && o ≤ rDMA_CH_LOOP 3 then
    some (match c.loops.reverse[(o - rDMA_CH_LOOP 0) / 4]? with
      | some l => putFld 0 13 l.first ||| putFld 13 13 l.last ||| putFld 26 3 l.reg ||| putBit 31 true
      | none => 0)
  else if o = rDMA_REQ_SET then some 0
  else if o = rDMA_REQ_PEND then some (putFld 0 16 (mget (fun _ => 0) s.dma.reqs (fld (getView s p rDMA_REQ_SEL) 0 8)))
  else none

/-- POOL registers. -/
def poolValue (o : Nat) (s : State) : Option Word :=
  if o = rPOOL_STATUS then
    let shed := s.vfm.inForce.any (fun e => decide (2 ≤ shedAt s .pool e.1))
    some (putBit 0 s.pool.ready ||| putBit 1 s.pool.service ||| putBit 2 shed)
  else if o = rPOOL_CTL then some (setFld (getReg s o) 31 1 (if s.pool.rebuilding.isSome then 1 else 0))
  else if rPOOL_CFG 0 ≤ o && o ≤ rPOOL_CFG 15 then
    let q := getPool s ((o - rPOOL_CFG 0) / 4)
    some (putFld 0 3 q.size ||| putBit 3 q.hbm ||| putFld 4 4 q.fallback ||| putBit 8 q.noFallback ||| putFld 9 4 q.use.toNat)
  else if rPOOL_P_COUNT 0 ≤ o && o < rPOOL_P_COUNT 16 then
    let n := (o - rPOOL_P_COUNT 0) / 32
    let q := getPool s n
    some (match (o - rPOOL_P_COUNT 0) % 32 / 4 with
      | 0 => putFld 0 24 q.count
      | 1 => putFld 0 24 q.free
      | 2 => putFld 0 24 (heldIn s n).length
      | 3 => putFld 0 24 (if q.free = 0 then 0xFFFFFF else q.head)
      | 4 => putFld 0 24 q.lost
      | 5 => putFld 0 16 q.lsMin
      | 6 => putFld 0 16 q.coreMin
      | _ => putFld 0 16 q.svcMin)
  else none

/-- SWC registers. -/
def swcValue (o : Nat) (s : State) : Option Word :=
  if o = rSWC_STATUS then
    some (putBit 0 s.swc.ready ||| putBit 1 (decide (regFld s rSWC_SPILL_CFG 0 6 ≠ 0)) ||| putBit 2 (levelAt s .swc).emergent
      ||| putBit 3 (decide (regionCells s ≠ 0) && decide (regionCells s < s.swc.spillUsed + 64)) ||| putBit 4 (tephraFull s))
  else if o = rSWC_FREE_CELLS then some (putFld 0 19 (freeCells s))
  else if o = rSWC_SPILL_USED then some (putFld 0 28 s.swc.spillUsed)
  else none

/-- FLP registers. -/
def flpValue (o : Nat) (s : State) : Option Word :=
  if o = rFLP_STATUS then
    some (putBit 0 s.flp.ready ||| putBit 1 s.flp.lsLoaded ||| putBit 2 (levelAt s .flp).emergent ||| putBit 3 s.flp.ageScanning)
  else if o = rFLP_TICK then some (BitVec.ofNat 32 (s.now / 1000000))
  else if o = rFLP_PROF_CTL then
    let v := getReg s o
    some (setFld v 16 2 (profStateCode (profState s (fld v 0 6))))
  else none

/-- TMG registers. -/
def tmgValue (o : Nat) (s : State) : Option Word :=
  if o = rTMG_STATUS then some (putBit 0 s.tmg.ready ||| putBit 1 (lsBypass s) ||| putBit 2 (s.tmg.scaled.any (fun e => e.2))) else none

/-- CPH registers. -/
def cphValue (o : Nat) (s : State) : Option Word :=
  if o = rCPH_STATUS then
    some (putBit 0 s.cph.ready ||| putBit 1 (lsEnginesOnly s) ||| putFld 2 2 s.crt.sec.code ||| putBit 4 s.cph.keysReady
      ||| putBit 5 s.crt.nonApproved ||| putFld 16 9 (s.cph.fenced.filter (fun e => e.2)).length)
  else if rCPH_FENCED 0 ≤ o && o ≤ rCPH_FENCED 7 then some (bitsWord (fun k => engineFenced s (8 * (o - rCPH_FENCED 0) + k)))
  else if rCPH_POWERED 0 ≤ o && o ≤ rCPH_POWERED 7 then some (bitsWord (fun k => enginePowered s (8 * (o - rCPH_POWERED 0) + k)))
  else none

/-- READY connections. -/
def connsReady (p : Conn → Bool) (s : State) : Nat := (s.str.conns.filter (fun e => decide (e.2.state = .ready) && p e.2)).length

/-- CIDs that wait for a late response (R185). -/
def cidsHeld (s : State) : Nat := (s.str.conns.map (fun e => (e.2.cids.filter (fun c => !c.2.counts)).length)).sum

/-- STR registers. -/
def strValue (o : Nat) (s : State) : Option Word :=
  if o = rSTR_STATUS then
    some (putBit 0 s.str.ready ||| putBit 1 (playerArmed s) ||| putBit 2 (decide (s.str.rec_.capture ≠ .none))
      ||| putBit 3 (decide (s.str.rec_.capture = .drill)) ||| putBit 4 (decide (connsReady (fun c => c.recorder) s ≠ 0))
      ||| putBit 5 s.str.rec_.stopped ||| putBit 6 (reserveInUse s) ||| putBit 7 (tenantSuspended s))
  else if o = rSTR_STAGE_USED then
    let reserve := if reserveInUse s then stagedBytes s - stageLimit s false else 0
    some (putFld 0 14 (stagedBytes s / 1048576) ||| putFld 16 14 (ceilDiv reserve 1048576))
  else if o = rSTR_OUTSTANDING then some (putFld 0 17 (outstandingCmds s) ||| putFld 17 11 (connsReady (fun _ => true) s))
  else none

/-- ETH registers. -/
def ethValue (o : Nat) (s : State) : Option Word :=
  if o = rETH_STATUS then
    let deferred := (levelAt s .eth).emergent && s.eth.groups.any (fun e => e.2.dueFrom.isSome)
    some (putBit 0 s.eth.ready ||| putBit 1 deferred)
  else if rETH_GRP_STATUS 0 ≤ o && o ≤ rETH_GRP_STATUS 3 then
    let n := (o - rETH_GRP_STATUS 0) / 4
    let g := laneGroup s n
    some (putFld 0 2 (groupModeCode g.mode) ||| putFld 2 2 (synthCode g.synth) ||| putBit 4 g.dueFrom.isSome ||| putSigned 8 8 (driftOf s n))
  else if rETH_PORT_STATUS 0 ≤ o && o < rETH_PORT_STATUS 16 && (o - rETH_PORT_STATUS 0) % 512 = 0 then
    let x := getPort s ((o - rETH_PORT_STATUS 0) / 512)
    some (putBit 0 x.link ||| putBit 1 x.holdFrom.isSome ||| putBit 2 x.overLimit ||| putBit 3 x.redirecting
      ||| putBit 4 x.pausedUntil.isSome ||| putBit 5 x.xoff ||| putFld 8 8 (x.alt.getD 0xFF))
  else none

/-- LOOP registers. -/
def loopValue (o : Nat) (s : State) : Option Word :=
  if rLOOP_STATUS 0 ≤ o && o < rLOOP_STATUS 4 && o % 256 = 0 then
    let lp := (o - rLOOP_STATUS 0) / 256
    let x := getLoop s lp
    let role := loopRole s lp
    let shown := if !x.on then 3 else if x.sourcing then 0 else if role = 2 then 2 else 1
    let link := if !x.on then 0 else if x.broken then 3 else if x.heard || x.sourcing then 2 else 1
    some (putFld 0 2 shown ||| putFld 2 2 link ||| putBit 4 x.east.lock ||| putBit 5 x.west.lock ||| putBit 6 x.east.lost
      ||| putBit 7 x.west.lost ||| putFld 8 2 x.masterAlarm ||| putBit 10 (x.on && decide (role = 0) && !x.sourcing))
  else none

/-- Hops from this device to another; 7 when it is not reachable. -/
def hopsTo (s : State) (d : Nat) : Nat := if d = s.ident.cid then 0 else (mfind s.cas.reach d).getD 7

/-- Links of this device that lie on a shortest path to another. -/
def linksTo (s : State) (d : Nat) : Word :=
  (shortestPaths s s.ident.cid d).foldl (fun v r => match r with | g :: _ => v ||| putBit g true | [] => v) 0

/-- CAS registers. -/
def casValue (p : Party) (o : Nat) (s : State) : Option Word :=
  let sel := fld (getView s p rCAS_TOPO_SEL) 0 6
  if o = rCAS_STATUS then
    let root := treeRoot s
    some (putFld 0 2 (roleCode s.ident.role) ||| putFld 2 6 s.ident.cid ||| putFld 8 7 s.ident.devices ||| putBit 15 s.cas.ready
      ||| putBit 16 (s.cas.ready && s.cas.reach.isEmpty) ||| putFld 17 6 root ||| putFld 23 3 (if s.cas.ready then hopsTo s root else 7))
  else if o = rCAS_PEERS then some (BitVec.ofNat 32 (leNat ((List.range 4).map (fun g => BitVec.ofNat 8 ((mfind s.ident.peers g).getD 0xFF)))))
  else if rCAS_LINK_STATUS 0 ≤ o && o ≤ rCAS_LINK_STATUS 3 then
    let g := (o - rCAS_LINK_STATUS 0) / 4
    let l := getLink s g
    let rel := match relTo s g with | 1 => 2 | 2 => 1 | _ => 0
    some (putFld 0 3 (linkStateCode l.state) ||| putFld 4 6 l.peer ||| putBit 10 l.peerValid ||| putFld 11 2 rel)
  else if o = rCAS_CTL then
    some (setFld (setFld (setFld (getReg s o) 0 2 s.cas.attnInd) 2 2 s.cas.pwrInd) 4 1 (if s.cas.fnHeld then 1 else 0))
  else if o = rCAS_DRILL then some (putFld 0 8 s.cas.drillGen ||| putFld 8 8 s.cas.stopGen)
  else if o = rCAS_TOPO_INFO then
    let peers := if sel = s.ident.cid && s.cas.ready then some (ownPeers s) else (mfind s.cas.topo sel).map Topo.peers
    some (match peers with | some l => BitVec.ofNat 32 (leNat (l.map (BitVec.ofNat 8))) | none => 0xFFFFFFFF)
  else if o = rCAS_TOPO_ROUTE then
    let here := decide (sel = s.ident.cid)
    some (if here || isReachable s sel then
      linksTo s sel ||| putFld 4 3 (hopsTo s sel) ||| putBit 7 true ||| putFld 8 8 (mget (fun _ => 0) s.cas.epochs sel) else 0)
  else none

/-- Whether the power rebalance is in force (R60, R64, R538). -/
def rebalance (s : State) : Bool := decide (s.pcr.powerCap < 165) && s.pcr.cfgReady && (levelAt s .pcr).emergent

/-- SVC registers. -/
def svcValue (p : Party) (o : Nat) (s : State) : Option Word :=
  let g := fld (getView s p rSVC_THREAD_SEL) 0 8
  let t := getThread s g
  if o = rSVC_STATUS then
    some (putBit 0 s.svc.ready ||| putBit 1 (rebalance s) ||| putFld 2 6 (coresPowered s)
      ||| putFld 8 3 (threadStateCode (getThread s 0).state))
  else if o = rSVC_THREAD_CTL then
    some (putBit 3 (t.master || decide (g = 0)) ||| putFld 4 3 (threadStateCode t.state) ||| putBit 7 t.busy
      ||| putBit 30 (bit (getView s p o) 30))
  else if o = rSVC_SHADOW_CAUSE then some (putFld 0 6 t.shadowCause.toNat ||| putBit 31 (t.shadowCause.getLsbD 63))
  else none

/-- MBX registers: a party that is not named for a channel reads 0 (R420). -/
def mbxValue (p : Party) (o : Nat) (s : State) : Option Word :=
  if o < rMBX_WORD 0 || rMBX_WORD 40 ≤ o then none
  else
    let ch := (o - rMBX_WORD 0) / 32
    let c := getMbx s ch
    if !mbxNamed (endOf p) ch then some 0
    else some (match (o - rMBX_WORD 0) % 32 / 4 with
      | 0 => lo32 c.word
      | 1 => hi32 c.word
      | 2 => mbxStatus (endOf p) c
      | 3 => putBit 1 c.emptyEn
      | 4 => 0
      | 5 => c.db
      | 6 => c.dbMask
      | _ => putFld 0 8 c.thread.toNat ||| putFld 16 11 c.vector.toNat)

/-- The selector line in force (R430): the valid line with the higher SSEQ. -/
def lineShown (s : State) : Option SelectorLine :=
  match s.img.s0, s.img.s1 with
  | some a, some b => some (if a.sseq.toNat < b.sseq.toNat then b else a)
  | some a, none => some a
  | none, l => l

/-- BUSY of PCR_IMG_CTL. -/
def imgBusy (s : State) : Bool := s.img.job.isSome

/-- Whether the image unit pauses (R446). -/
def imgPaused (s : State) : Bool := s.img.paused

/-- Clock of a powered island in MHz (R29; R490 in P2 and thermal hold). -/
def islandFreq (s : State) (n : Nat) : Nat :=
  let slow := s.pcr.thermHold || (isRunning s && s.pcr.power = .p2)
  if decide (16 ≤ n) && decide (n < 20) then 1250
  else if n = 29 || n = 30 then 1000
  else if n = 31 then (if slow then 625 else 1250)
  else if n = 33 then 1250
  else if n = 32 || n = 34 || n = 35 then (if slow then Config.islandMhz n else 1250)
  else if decide (36 ≤ n) && decide (n < 42) then (if slow then 750 else 1500)
  else if decide (42 ≤ n) && decide (n < 75) then 1500
  else if decide (75 ≤ n) && decide (n < 83) then 1000
  else if decide (83 ≤ n) && decide (n < 99) then 2000
  else if n = 99 || n = 100 || n = 107 then 500
  else Config.islandMhz n

/-- PCR registers. -/
def pcrValue (p : Party) (o : Nat) (s : State) : Option Word :=
  if o = rPCR_STATUS then
    some (putBit 0 true ||| putBit 1 s.pcr.refuge ||| putFld 2 2 s.pcr.power.code ||| putFld 4 2 (s.pcr.target.getD s.pcr.power).code
      ||| putBit 6 s.pcr.target.isSome ||| putBit 7 s.pcr.thermHold ||| putBit 8 s.pcr.thermCrit ||| putFld 9 3 (min 7 s.pcr.startFails))
  else if o = rPCR_PWR_CTL then some (setFld (getReg s o) 31 1 (if s.pcr.target.isSome then 1 else 0))
  else if o = rPCR_RESET_CAUSE then some (putFld 0 5 s.pcr.cause.toNat ||| putFld 5 5 s.pcr.prevCause.toNat)
  else if o = rPCR_THERM then some (putSigned 0 9 s.pcr.tempC ||| putSigned 9 9 (s.pcr.maxC.getD 0))
  else if o = rPCR_ISLAND_STATUS then
    let n := fld (getView s p rPCR_ISLAND_SEL) 0 7
    let on := islandPowered s n
    some (putBit 0 on ||| putBit 1 on ||| putBit 2 (!isRunning s && decide (n ≠ 101)) ||| putBit 3 (s.pcr.clkFault.contains n)
      ||| putFld 16 16 (if on then islandFreq s n else 0))
  else if o = rPCR_IMG_STATUS then
    let l := lineShown s
    some (putBit 0 s.img.runB ||| putBit 1 ((l.map (fun x => x.activeB)).getD false) ||| putBit 2 ((l.map (fun x => x.trial)).getD false)
      ||| putBit 3 ((l.map (fun x => x.trialUsed)).getD false) ||| putFld 4 3 (otherCode s.img.other) ||| putBit 7 (imgPaused s)
      ||| putFld 16 16 ((l.map (fun x => x.svnMin.toNat)).getD 0))
  else if o = rPCR_IMG_CTL then some (setFld (getReg s o) 31 1 (if imgBusy s then 1 else 0))
  else if o = rPCR_IMG_DONE then some (putFld 0 27 s.img.done)
  else if o = rPCR_IMG_FAIL then some (putFld 0 8 s.img.failSection.toNat ||| putFld 8 8 s.img.failReason.toNat ||| putFld 16 16 s.img.failRecord.toNat)
  else none

/-- MEM registers. -/
def memValue (o : Nat) (s : State) : Option Word :=
  if o = rMEM_STATUS then
    some (putBit 0 s.mem.ready ||| putBit 1 (s.mem.ready && !backgroundRuns s) ||| putBit 2 s.mem.raised
      ||| putBit 3 (s.mem.owed.any (fun e => decide (e.2 ≠ 0))))
  else if o = rMEM_SVC_MEM then some (putFld 0 16 s.mem.svcMib)
  else if o = rMEM_SCRUB then some (putFld 0 11 s.mem.segment)
  else if o = rMEM_NVM_SPARE then some (putFld 0 16 (s.mem.spare / 16))
  else none

/-- TIM registers. -/
def timValue (o : Nat) (s : State) : Option Word :=
  if o = rTIM_STATUS then
    some (putFld 0 2 (ptpSourceCode s.tim.src) ||| putBit 2 s.tim.locked ||| putBit 3 s.tim.freewheel ||| putBit 4 s.tim.slewEnd.isSome
      ||| putBit 5 s.tim.wrErr)
  else if o = rTIM_LOG_STATUS then some (putFld 0 16 s.tim.nextGeneral ||| putFld 16 13 s.tim.pinnedUsed)
  else none

/-- ALP registers. -/
def alpValue (o : Nat) (s : State) : Option Word :=
  if o = rALP_STATUS then
    some (putFld 0 2 s.alp.state.code ||| putBit 2 s.alp.entryDone ||| putBit 3 s.alp.inA ||| putBit 4 s.alp.inB ||| putBit 5 s.alp.inFault
      ||| putBit 6 (decide (s.crt.sec = .zeroised)) ||| putBit 7 s.alp.pathReady)
  else if o = rALP_SOURCES then some (sourcesWord s)
  else if o = rALP_HOLD_REMAIN then
    some (match s.alp.holdEnd with | some t => putFld 0 17 (ceilDiv (t - s.now) 1000000) | none => 0)
  else if o = rALP_SHED_CFG then some (setFld (getReg s o) 4 2 s.alp.drillShed)
  else if o = rALP_POLICY then
    some (putBit 0 s.alp.faultDeclares ||| putBit 1 s.alp.clearFallback ||| putFld 8 9 s.alp.originators.length)
  else if o = rALP_MSG_ETYPE then some (putFld 0 16 s.alp.etype.toNat ||| putFld 16 16 s.alp.udpPort.toNat)
  else none

/-- CRT registers. -/
def crtValue (o : Nat) (s : State) : Option Word :=
  if o = rCRT_STATUS then
    some (putFld 0 2 s.crt.sec.code ||| putBit 2 s.pcr.refuge ||| putBit 3 s.img.runB ||| putBit 4 s.crt.fallback ||| putBit 5 s.crt.patchOk
      ||| putBit 6 s.crt.lsKeysReady ||| putBit 7 s.pcr.storeReady ||| putBit 8 s.crt.nonApproved ||| putBit 9 s.crt.cryptoOff
      ||| putBit 10 s.crt.ret.zeroisePending)
  else if o = rCRT_DEG_CAUSE then some (putFld 0 4 s.crt.degCause.toNat)
  else if o = rCRT_BOOT_COUNT then some s.crt.bootCount
  else if o = rCRT_SVN then
    some (putFld 0 16 s.crt.svnImage.toNat ||| putFld 16 16 (((lineShown s).map (fun x => x.svnMin.toNat)).getD 0))
  else if o = rCRT_TAMPER_CFG then some (putBit 0 s.crt.tamperNEn ||| 0x0E ||| putBit 4 s.crt.coldEn)
  else if o = rCRT_TAMPER_STATUS then
    some (putFld 0 5 s.crt.live.toNat ||| putFld 8 5 s.crt.ret.tripped.toNat ||| putBit 31 (s.crt.ret.trippedValid && decide (s.crt.ret.tripped ≠ 0)))
  else if o = rCRT_KEYOP then
    some (match s.crt.keyop with
      | some k => putFld 0 16 k.slot.toNat ||| putBit 16 k.retire ||| putBit 17 s.crt.keyopCommitted ||| putBit 31 true
      | none => 0)
  else if o = rCRT_KEYOP_GEN then
    some (match s.crt.keyop with | some k => putFld 0 16 k.expectGen.toNat ||| putFld 16 16 s.crt.keyopFound.toNat | none => 0)
  else if o = rCRT_RESTART then some (putFld 0 2 s.crt.restartCause.toNat)
  else none

/-- A register of 32 bits that is computed, by its window (R498); none for one whose stored bits are its value. -/
def computedValue (p : Party) (o : Nat) (s : State) : Option Word :=
  match o >>> 20 with
  | 0x00 => hepValue p o s
  | 0x01 => vfmValue o s
  | 0x02 => wqmValue o s
  | 0x03 => dmaValue p o s
  | 0x04 => poolValue o s
  | 0x05 => swcValue o s
  | 0x06 => flpValue o s
  | 0x07 => tmgValue o s
  | 0x08 => cphValue o s
  | 0x09 => strValue o s
  | 0x0A => ethValue o s
  | 0x0B => loopValue o s
  | 0x0C => casValue p o s
  | 0x0D => svcValue p o s
  | 0x0E => mbxValue p o s
  | 0x0F => pcrValue p o s
  | 0x10 => memValue o s
  | 0x11 => timValue o s
  | 0x12 => alpValue o s
  | 0x13 => crtValue o s
  | _ => none

/-- The stored bits of a register: WO fields are never stored, so they read 0 (R8); an offset that holds no register reads 0. -/
def storedValue (p : Party) (o : Nat) (s : State) : Word :=
  match regAt o with
  | some d => if d.perView then getView s p o else getReg s o
  | none => 0

/-- Value of a 64-bit register or counter by the offset of its low word (R10). -/
def wideValue (p : Party) (o : Nat) (s : State) : DWord :=
  let ch := getCh s (fld (getView s p rDMA_CH_SEL) 0 9)
  let t := getThread s (fld (getView s p rSVC_THREAD_SEL) 0 8)
  let n64 := fun (n : Nat) => BitVec.ofNat 64 n
  if o = cSTR_CID_HELD then n64 (cidsHeld s)
  else if isCounter o then getCtr s o
  else if o = rDMA_CH_FAULT_ADDR then (ch.fault.map ChFault.addr).getD 0
  else if rDMA_CH_C 0 ≤ o && o < rDMA_CH_C 8 then ch.c.getD ((o - rDMA_CH_C 0) / 8) 0
  else if o = rSTR_JNL_SEQ then n64 s.str.rec_.nextSeq
  else if o = rSTR_JNL_DURABLE then n64 s.str.rec_.durable
  else if o = rSTR_JNL_HEAD then n64 (if regionBytes s = 0 then 0 else s.str.rec_.head % regionBytes s)
  else if o = rCAS_REACH then n64 (s.cas.reach.foldl (fun m e => m ||| 2 ^ e.1) (if s.cas.ready then 2 ^ s.ident.cid else 0))
  else if o = rCAS_MAP then n64 (casMap s)
  else if o = rCAS_HELD then n64 s.cas.heldMap
  else if o = rCAS_TOPO_SERIAL then
    let sel := fld (getView s p rCAS_TOPO_SEL) 0 6
    if sel = s.ident.cid && s.cas.ready then Config.serial else topoSerial s sel
  else if o = rSVC_THREAD_PC then t.pc
  else if o = rSVC_TSBBASE then t.tsb
  else if o = rSVC_REGION_BASE then t.regionBase
  else if o = rSVC_REGION_LIMIT then t.regionLimit
  else if o = rSVC_XREG then
    (match t.state with
     | .held => t.xreg (fld (getView s p rSVC_XREG_SEL) 0 5)
     | .faulted => t.xreg (fld (getView s p rSVC_XREG_SEL) 0 5)
     | .faultedUnsaved => t.xreg (fld (getView s p rSVC_XREG_SEL) 0 5)
     | _ => 0)
  else if o = rSVC_SHADOW_PC then t.shadowPc
  else if o = rSVC_SHADOW_TVAL then t.shadowTval
  else if rMBX_WORD 0 ≤ o && o < rMBX_WORD 40 then
    (let n := (o - rMBX_WORD 0) / 32; if mbxNamed (endOf p) n then (getMbx s n).word else 0)
  else if o = rPCR_IMG_VER then s.img.otherVer
  else if o = rTIM_DEV then n64 s.now
  else join64 (storedValue p (o + 4) s) (storedValue p o s)

/-- A read of the low word: it returns it, and loads the reader's latch with the high word (R10). -/
def readWideLow (p : Party) (o : Nat) (s : State) : Word × State :=
  let v := wideValue p o s
  (lo32 v, { s with latch := mset (fun _ => 0) s.latch (viewKey p (o + 4)) (hi32 v) })

/-- The reader's latch of a register. -/
def latched (p : Party) (o : Nat) (s : State) : Word := mget (fun _ => 0) s.latch (viewKey p o)

/-- Whether a register may be seen through a view at all (R499): an unseen one reads 0. -/
def visible (p : Party) (o : Nat) : Bool :=
  match p with
  | .host => !(decide (rWQM_SVCQ_CFG ≤ o) && decide (o ≤ rWQM_SVCQ_HEAD)) && !(decide (0xF04000 ≤ o) && decide (o < 0xF0C000))
  | .service _ => decide (o >>> 20 ≠ 0x13)
  | .crater => !(decide (0xF04000 ≤ o) && decide (o < 0xF0C000))

/-- The oldest entry of the aging FIFO (R125). -/
def ageHead (s : State) : Word × Word :=
  match s.flp.ageFifo with
  | e :: _ => (putFld 0 23 e.index ||| putBit 31 true, e.key4)
  | [] => (0, 0)

/-- A read of a register of 32 bits whose read has an effect of its own, or none. -/
def readEffect (p : Party) (o : Nat) (s : State) : Option (Word × State) :=
  if o = rDMA_PMEM_LO then some (readPmemLo p s)
  else if o = rDMA_PMEM_HI then some (readPmemHi p s)
  else if o = rFLP_AGE_FIFO_LO then
    some ((ageHead s).1, { s with latch := mset (fun _ => 0) s.latch (viewKey p rFLP_AGE_FIFO_HI) (ageHead s).2 })
  else if o = rFLP_AGE_FIFO_HI then some (latched p o s, { s with flp := { s.flp with ageFifo := s.flp.ageFifo.drop 1 } })
  else if o = rCPH_NEAR_FIFO then
    some (match s.cph.nearFifo with
      | [] => (0, s)
      | e :: rest => (putFld 0 16 e.slot ||| putBit 16 e.limit ||| putBit 31 true, { s with cph := { s.cph with nearFifo := rest } }))
  else if o = rETH_STN_LO then some (readStation p s)
  else if rETH_TS_INFO 0 ≤ o && o < rETH_TS_INFO 16 && (o - rETH_TS_INFO 0) % 512 = 0 then some (popCapture p ((o - rETH_TS_INFO 0) / 512) s)
  else if o = rSVC_FAULT_FIFO then some (faultFifoValue s, popFaultFifo s)
  else if o = rTIM_PTP_NS then some (readPtpNs p s)
  else none

/-- Whether a read returns the reader's latch: the high words of R10, the seconds behind TIM_PTP_NS, the capture behind ETH_TS_INFO. -/
def isLatchRead (o : Nat) : Bool :=
  (decide (4 ≤ o) && isWideLow (o - 4)) || o = rTIM_PTP_SEC_LO || o = rTIM_PTP_SEC_HI
    || (decide (rETH_TS_NS 0 ≤ o) && decide (o < rETH_TS_NS 16) && decide (0x01C ≤ (o - 0xA01000) % 512) && decide ((o - 0xA01000) % 512 ≤ 0x024))

/-- A 4-byte read of BAR0 space by a party (R10, R498–R500): its value, and the state after it. An offset that holds no register reads 0. -/
def readReg (p : Party) (o : Nat) (s : State) : Word × State :=
  if !visible p o || o % 4 ≠ 0 then (0, s)
  else match readEffect p o s with
    | some r => r
    | none =>
      if isWideLow o then readWideLow p o s
      else if isLatchRead o then (latched p o s, s)
      else match computedValue p o s with
        | some v => (v, s)
        | none => (if 0xF04000 ≤ o && o < 0xF0C000 then mget (fun _ => 0) s.mem.svcRet o else storedValue p o s, s)

/-- An aligned 8-byte read through the host or service view (R211): low word first. -/
def readReg64 (p : Party) (o : Nat) (s : State) : DWord × State :=
  let a := readReg p o s
  let b := readReg p (o + 4) a.2
  (join64 b.1 a.1, b.2)

/-- COUNTER_LOW_READ (R10): a read of the low word of a 64-bit register or counter. -/
def execCounterLowRead (p : Party) (off : Nat) (s : State) : Result :=
  if !isRunning s || !isWideLow off then .next s
  else
    let r := readReg p off s
    .next (returnValue p off r.1 r.2)

end Sys2Proof.Machine
end

