-- ==== Sys2Proof/Machine/ImageUpdate.lean ====
section
/-! DEFINITION. The image banks, the bank selector, the checks of step 4 of R400, and the update of the other bank (R429–R437,
R444–R448). -/

namespace Sys2Proof.Machine

/-- NVM address of a bank (21_memory_time_telemetry.md, partitions). -/
def bankBase (b : Bool) : Nat := if b then 0x6000000 else 0

/-- Size of a bank (R429). -/
def bankSize : Nat := 100663296

/-- `n` bytes of a bank from offset `o`. -/
def bankBytes (s : State) (b : Bool) (o n : Nat) : Bytes := loadBytes s.mem.banks (bankBase b + o) n

/-- SVN_MIN of the line in force (R430). -/
def svnMin (s : State) : Nat := ((lineShown s).map (fun x => x.svnMin.toNat)).getD 0

/-- The selector as no valid line leaves it. -/
def SelectorLine.none_ : SelectorLine := { activeB := false, trial := false, trialUsed := false, sseq := 0, svnMin := 0 }

/-- The line in force (R430). -/
def lineNow (s : State) : SelectorLine := (lineShown s).getD SelectorLine.none_

/-- Crater writes the line that is not in force, with the next SSEQ (R430). -/
def writeSelector (b trial used : Bool) (svn : BitVec 16) (s : State) : State :=
  let l := lineNow s
  let new : SelectorLine := { activeB := b, trial := trial, trialUsed := used, sseq := l.sseq + 1, svnMin := svn }
  let inS0 := decide (s.img.s0 = lineShown s) && s.img.s0.isSome
  { s with img := if inS0 then { s.img with s1 := some new } else { s.img with s0 := some new } }

/-- Whether an activation is pending: the line in force names the other bank for a trial that has not begun (R429, R445). -/
def activationPending (s : State) : Bool :=
  let l := lineNow s
  l.trial && !l.trialUsed && decide (l.activeB ≠ s.img.runB)

/-- A failure of step 4 as PCR_IMG_FAIL records it (R437). -/
structure ImgFault where
  sect : Nat
  reason : Nat
  record : Nat
deriving DecidableEq, Repr

/-- An entry of the section directory (R433). -/
structure Section where
  type : Nat
  flags : Nat
  version : Nat
  offset : Nat
  length : Nat
deriving DecidableEq, Repr

/-- The section directory of an image whose bytes `get` reads. -/
def directoryOf (get : Nat → Nat → Bytes) : List Section :=
  (List.range (leAt (get 36 2) 0 2)).map (fun k =>
    let e := get (256 + 16 * k) 16
    { type := byteAt e 0, flags := byteAt e 1, version := leAt e 2 2, offset := leAt e 4 4, length := leAt e 8 4 })

/-- The first directory entry with a reserved or repeated TYPE or an unknown VERSION, with its place. -/
def badEntry : Nat → List Nat → List Section → Option ImgFault
  | _, _, [] => none
  | k, seen, e :: es =>
    if e.type = 0 || 9 < e.type || seen.contains e.type || e.version ≠ 1 then some { sect := e.type, reason := 4, record := k }
    else badEntry (k + 1) (e.type :: seen) es

/-- The first section that runs past the body or overlaps an earlier one (R437). -/
def badExtent (body : Nat) : Nat → List Section → List Section → Option ImgFault
  | _, _, [] => none
  | k, seen, e :: es =>
    if body < e.offset + e.length || seen.any (fun f => rangesMeet e.offset e.length f.offset f.length) then
      some { sect := e.type, reason := 4, record := k }
    else badExtent body (k + 1) (e :: seen) es

/-- The sections that every image holds (R434). -/
def requiredSections : List Nat := [1, 2, 3, 4, 5, 7]

/-- The offset of the signature block: BODY_LEN rounded up to a multiple of 4,096. -/
def sigOffset (get : Nat → Nat → Bytes) : Nat := ceilDiv (leAt (get 20 4) 0 4) 4096 * 4096

/-- Step 4 of R400 over an image of at most `room` bytes, in the order of R437: the first failure, or none. A signature block that
would lie beyond the image fails as one with a wrong MAGIC. -/
def imageFault (s : State) (room : Nat) (get : Nat → Nat → Bytes) : Option ImgFault :=
  let body := leAt (get 20 4) 0 4
  let sig := sigOffset get
  let fail := fun (sect reason : Nat) => some ({ sect := sect, reason := reason, record := 0 } : ImgFault)
  let dir := directoryOf get
  let has := fun (t : Nat) => dir.any (fun e => decide (e.type = t))
  let serial := leAt (get 24 8) 0 8
  if room < sig + 256 || leAt (get sig 4) 0 4 ≠ 0x4749534D then fail 0 1
  else if !ecdsaVerify (get (sig + 4) 96) (get 0 body) (get (sig + 100) 96) then fail 0 1
  else if !s.crt.ownerKeys.contains (sha384 (get (sig + 4) 96)) then fail 0 2
  else if leAt (get 16 2) 0 2 < svnMin s || leAt (get 16 2) 0 2 < leAt (get 18 2) 0 2 then fail 0 3
  else if leAt (get 0 4) 0 4 ≠ 0x4F56454D || leAt (get 4 2) 0 2 ≠ 1 || leAt (get 6 2) 0 2 ≠ 256 || body < 1280 || 100659200 < body
    || dir.isEmpty || 32 < dir.length then fail 0 4
  else match badEntry 0 [] dir with
    | some f => some f
    | none =>
      match badExtent body 0 [] dir with
      | some f => some f
      | none =>
        match requiredSections.find? (fun t => !has t) with
        | some t => fail t 4
        | none =>
          if serial ≠ 0 && serial ≠ Config.serial.toNat then fail 0 5
          else if serial = 0 && (has 6 || has 9) then fail 0 5
          else none

/-- The check of a bank. -/
def bankFault (s : State) (b : Bool) : Option ImgFault := imageFault s bankSize (bankBytes s b)

/-- PCR_IMG_FAIL (R442). -/
def recordImgFault (f : ImgFault) (s : State) : State :=
  { s with img := { s.img with failSection := BitVec.ofNat 8 f.sect, failReason := BitVec.ofNat 8 f.reason,
                               failRecord := BitVec.ofNat 16 (min 65535 f.record) } }

/-- ERR_CODE and ERR of PCR_IMG_CTL. -/
def setImgErr (e : Nat) (s : State) : State := setReg rPCR_IMG_CTL (putFld 24 3 e ||| putBit 30 (decide (e ≠ 0))) s

/-- A job of the image unit. -/
def setImgJob (j : Option ImgJob) (s : State) : State := { s with img := { s.img with job := j } }

/-- A phase of a job begins; it takes 1 ms at least (R446). -/
def startImgJob (j : ImgJob) (s : State) : State := { s with img := { s.img with job := some j, jobFrom := s.now } }

/-- The least time of the present phase has passed (R446). -/
def endImgPhase (s : State) : State := reachTime (s.img.jobFrom + ms 1) s

/-- What the other bank shows; its version shows while it is VERIFIED. -/
def setOther (o : OtherBank) (ver : DWord) (s : State) : State := { s with img := { s.img with other := o, otherVer := ver } }

/-- The other bank shows FAILED (R444). -/
def otherFailed (s : State) : State := evImg 1 (setOther .failed 0 s)

/-- Whether NVM work of the image unit pauses (R446). -/
def imgHeld (s : State) : Bool := (levelAt s .pcr).emergent

/-- PCR_IMG_CTL commands come from the PF, or through the Crater view (R445, R499), while the device runs. -/
def imgCommand (p : Party) (f : State → State) (s : State) : State := if isPf p && isRunning s then f s else s

/-- CMD WRITE (R444, R448). -/
def imgWrite (s : State) : State :=
  let src := (getReg64 s rPCR_IMG_SRC_LO).toNat / 4096 * 4096
  let len := regFld s rPCR_IMG_LEN 0 27
  if s.img.job.isSome || activationPending s then setImgErr 5 s
  else if len < 4352 || bankSize < len || devbufSize s < src + len then setImgErr 1 s
  else
    let s1 := setImgErr 0 (startImgJob (.checkStaged src len) s)
    { s1 with img := { s1.img with done := 0, abort := false } }

/-- IMG_WRITE. -/
def execImgWrite (p : Party) (s : State) : Result := .next (imgCommand p imgWrite s)

/-- CMD VERIFY (R444). -/
def imgVerify (s : State) : State :=
  if s.img.job.isSome then setImgErr 5 s
  else setImgErr 0 (setOther .checking 0 (startImgJob (.readBack 0 0) s))

/-- IMG_VERIFY. -/
def execImgVerify (p : Party) (s : State) : Result := .next (imgCommand p imgVerify s)

/-- CMD ABORT (R444): a WRITE stops at its next page. Without a WRITE there is nothing to stop, and nothing is refused. -/
def imgAbort (s : State) : State :=
  match s.img.job with
  | some (.checkStaged _ _) => setImgErr 0 { s with img := { s.img with abort := true } }
  | some (.pages _ _ _) => setImgErr 0 { s with img := { s.img with abort := true } }
  | some (.readBack _ _) => setImgErr 0 s
  | none => setImgErr 0 s

/-- IMG_ABORT. -/
def execImgAbort (p : Party) (s : State) : Result := .next (imgCommand p imgAbort s)

/-- CMD ACTIVATE (R445, R446). -/
def imgActivate (s : State) : State :=
  if imgHeld s || s.img.other ≠ .verified then setImgErr 5 s
  else setImgErr 0 (writeSelector (!s.img.runB) true false (lineNow s).svnMin s)

/-- IMG_ACTIVATE. -/
def execImgActivate (p : Party) (s : State) : Result := .next (imgCommand p imgActivate s)

/-- CMD DEACTIVATE (R445, R446). -/
def imgDeactivate (s : State) : State :=
  if imgHeld s then setImgErr 5 s else setImgErr 0 (writeSelector s.img.runB false false (lineNow s).svnMin s)

/-- IMG_DEACTIVATE. -/
def execImgDeactivate (p : Party) (s : State) : Result := .next (imgCommand p imgDeactivate s)

/-- CMD CONFIRM (R445, R448). -/
def imgConfirm (s : State) : State :=
  let l := lineNow s
  if !l.trial || !s.pcr.fullOp || l.activeB ≠ s.img.runB then setImgErr 5 s
  else
    let svn := if l.svnMin.toNat < s.img.svnFloor.toNat then s.img.svnFloor else l.svnMin
    evImg 3 (setImgErr 0 (writeSelector l.activeB false false svn s))

/-- IMG_CONFIRM. -/
def execImgConfirm (p : Party) (s : State) : Result := .next (imgCommand p imgConfirm s)

/-- PCR_IMG_CTL.CMD as a register write (R448, R541): 0 starts nothing, 7 is reserved. -/
def writeImgCtl (p : Party) (cmd : Nat) (s : State) : State :=
  imgCommand p (fun s =>
    match cmd with
    | 0 => s
    | 1 => imgWrite s
    | 2 => imgActivate s
    | 3 => imgDeactivate s
    | 4 => imgVerify s
    | 5 => imgConfirm s
    | 6 => imgAbort s
    | _ => setImgErr 3 s) s

/-- The image unit waits (R446). -/
def pauseImg (s : State) : State := { s with img := { s.img with paused := true } }

/-- A WRITE that ABORT stops: the bank shows FAILED (R444). -/
def stopImg (s : State) : State :=
  let s1 := otherFailed (setImgJob none s)
  { s1 with img := { s1.img with abort := false } }

/-- Bytes of the staged copy. -/
def stagedImage (s : State) (src : Nat) (o n : Nat) : Bytes := devbufLoad s (src + o) n

/-- IMG_STAGED_CHECKED (R444, R448): a copy that fails leaves the bank untouched. -/
def execImgStagedChecked (s : State) : Result :=
  match s.img.job with
  | some (.checkStaged src len) =>
    if imgHeld s then .next (pauseImg s)
    else if s.img.abort then .next (stopImg s)
    else
      let s1 := endImgPhase s
      match imageFault s1 len (stagedImage s1 src) with
      | some f => .next (setImgErr 4 (recordImgFault f (setImgJob none s1)))
      | none => .next (setOther .writing 0 (startImgJob (.pages src len 0) s1))
  | some (.pages _ _ _) => .next s
  | some (.readBack _ _) => .next s
  | none => .next s

/-- Bytes stored in a bank. -/
def storeBank (b : Bool) (o : Nat) (bs : Bytes) (s : State) : State :=
  { s with mem := { s.mem with banks := storeBytes s.mem.banks (bankBase b + o) bs } }

/-- IMG_PAGE_WRITE (R444, R446). -/
def execImgPageWrite (s : State) : Result :=
  match s.img.job with
  | some (.pages src len done) =>
    if imgHeld s then .next (pauseImg s)
    else if s.img.abort then .next (stopImg s)
    else
      let n := min 4096 (len - done)
      let s1 := storeBank (!s.img.runB) done (stagedImage s (src + done) 0 n) s
      let s2 := { s1 with img := { s1.img with done := done + n } }
      .next (if len ≤ done + n then setOther .checking 0 (startImgJob (.readBack src len) (endImgPhase s2))
        else setImgJob (some (.pages src len (done + n))) s2)
  | some (.checkStaged _ _) => .next s
  | some (.readBack _ _) => .next s
  | none => .next s

/-- The result of a check of bank `b` is shown (R444). -/
def showBank (b : Bool) (bad : Option ImgFault) (same : Bool) (s : State) : State :=
  match bad with
  | some f => otherFailed (recordImgFault f s)
  | none => if same then evImg 0 (setOther .verified (BitVec.ofNat 64 (leAt (bankBytes s b 8 8) 0 8)) s) else otherFailed s

/-- IMG_VERIFY_DONE (R444, R446): after a WRITE the read-back also finds a staged copy that was changed. -/
def execImgVerifyDone (s : State) : Result :=
  match s.img.job with
  | some (.readBack src len) =>
    if imgHeld s then .next (pauseImg s)
    else
      let s := endImgPhase s
      let b := !s.img.runB
      let same := decide (bankBytes s b 0 len = stagedImage s src 0 len)
      let s1 := showBank b (bankFault s b) same (setImgJob none s)
      .next (setImgErr (if s1.img.other = .verified then 0 else 4) s1)
  | some (.checkStaged _ _) => .next s
  | some (.pages _ _ _) => .next s
  | none => .next s

/-- Where the recovery commands act (R447): elsewhere they return completion code 2. -/
def onRecovery (f : State → State) (s : State) : Result :=
  onMctp (fun s => if s.pcr.recoveryHold || s.pcr.refuge then f s else smbRespond [2] s) s

/-- REC_BEGIN (R447): in Refuge mode the running bank, and a bank whose activation is pending, are write-protected (R429). -/
def execRecBegin (bank len : Nat) (s : State) : Result :=
  onRecovery (fun s =>
    let b := decide (bank = 1)
    if 1 < bank || len < 4352 || bankSize < len then smbRespond [1] s
    else if !s.pcr.recoveryHold && (decide (b = s.img.runB) || activationPending s) then smbRespond [2] s
    else
      let s1 := setOther .writing 0 { s with img := { s.img with rec_ := some { bankB := b, len := len, got := 0 } } }
      smbRespond [0] s1) s

/-- REC_DATA (R447): 1–48 bytes at the offset that follows those received. -/
def execRecData (offset : Nat) (bytes : Bytes) (s : State) : Result :=
  onRecovery (fun s =>
    match s.img.rec_ with
    | none => smbRespond [1] s
    | some r =>
      let n := bytes.length
      if offset ≠ r.got || n = 0 || 48 < n || r.len < r.got + n || s.img.other ≠ .writing then smbRespond [1] s
      else
        let s1 := storeBank r.bankB r.got bytes s
        smbRespond [0] { s1 with img := { s1.img with rec_ := some { r with got := r.got + n } } }) s

/-- REC_FINISH (R447): a bank that has not received all its bytes is not verified. -/
def execRecFinish (s : State) : Result :=
  onRecovery (fun s =>
    match s.img.rec_ with
    | none => smbRespond [1] s
    | some r =>
      let s1 := showBank r.bankB (imageFault s r.len (bankBytes s r.bankB)) (decide (r.got = r.len)) s
      smbRespond [if s1.img.other = .verified then 0 else 3] s1) s

/-- The restart after REC_ACTIVATE in the recovery hold: a FULL reset, whose cause the spec does not number. -/
def recoveryRestart (s : State) : State :=
  let (k, s1) := takeFree s
  let s2 := recordFull ((Config.freeDWord k).toNat % 32) s1
  let s3 := holdIslands (reachTime (s2.now + us 2) s2)
  { s3 with pcr := { s3.pcr with releaseAt := some (s3.now + us 1000) } }

/-- REC_ACTIVATE (R445–R447, R458): the line names the recovered bank for a trial, and the failed-start count is cleared. -/
def execRecActivate (s : State) : Result :=
  onRecovery (fun s =>
    match s.img.rec_ with
    | none => smbRespond [1] s
    | some r =>
      if imgHeld s || s.img.other ≠ .verified then smbRespond [1] s
      else
        let s1 := writeSelector r.bankB true false (lineNow s).svnMin s
        let s2 := smbRespond [0] { s1 with pcr := { s1.pcr with startFails := 0 } }
        if s2.pcr.recoveryHold then recoveryRestart s2 else s2) s

/-- REC_STATUS (R447): the PCR_IMG_STATUS word and the bytes received. -/
def execRecStatus (s : State) : Result :=
  onRecovery (fun s =>
    let w := ((computedValue .crater rPCR_IMG_STATUS s).getD 0).toNat
    smbRespond ([0] ++ toLe 4 w ++ toLe 4 ((s.img.rec_.map (fun r => r.got)).getD 0)) s) s

end Sys2Proof.Machine
end

