-- ==== Sys2Proof/Machine/RegWrite.lean ====
section
/-! DEFINITION. Register writes: the access types of R8 with reserved encodings (R7) and locks (R9), the rights of the three views
(R35, R272, R394, R499), the command registers of R541, and the event masks of R539. -/

namespace Sys2Proof.Machine

/-- The fields of `new` that hold a reserved encoding keep their old value (R7). -/
def keepReserved (old : Word) : List (Nat × Nat × List (Nat × Nat)) → Word → Word
  | [], new => new
  | (lo, w, ok) :: rest, new =>
    let x := fld new lo w
    keepReserved old rest
      (if ok.any (fun g => decide (g.1 ≤ x) && decide (x ≤ g.2)) then new else setFld new lo w (fld old lo w))

/-- What a write leaves in a register: RW fields take the value, RWL fields until the lock (R9), W1C fields lose the bits written as 1,
every other bit stays (R8). -/
def RegDesc.written (d : RegDesc) (locked : Bool) (old v : Word) : Word :=
  let m := BitVec.ofNat 32 (if locked then d.rw else d.rw ||| d.rwl)
  let put := (old &&& ~~~ m) ||| (v &&& m)
  keepReserved old d.legal put &&& ~~~ (v &&& BitVec.ofNat 32 d.w1c)

/-- Whether a party's writes to a register have effect (R35, R394, R499). -/
def mayWrite (p : Party) (o : Nat) (d : RegDesc) : Bool :=
  visible p o && (match p with
    | .host => d.who.1 && (decide (o >>> 20 ≠ 0xD) || o = rSVC_EVENT || o = rSVC_EVENT_MASK)
    | .service _ => d.who.2
    | .crater => decide (o >>> 20 ≠ 0xD))

/-- A write of a register whose access types say all. -/
def plainWrite (p : Party) (o : Nat) (v : Word) (s : State) : State :=
  match regAt o with
  | none => s
  | some d =>
    let k := if d.perView then viewKey p o else o
    if mayWrite p o d then setReg k (d.written s.pcr.cfgReady (getReg s k) v) s else s

/-- The operation that the command bits of an indirect control register name: `ok` lists the bits it has (R541). The answer is none
where no bit is set, and `some none` where the write starts nothing and is in error. -/
def indCommand (v : Word) (n : Nat) : Option (Option TableOp) :=
  match fld v 0 n with
  | 0 => none
  | 1 => some (some .read)
  | 2 => some (some .write)
  | 4 => some (some .insert)
  | 8 => some (some .delete)
  | _ => some none

/-- A write of an indirect control register with `n` command bits: one command runs, several give ERR (R541). -/
def indWrite (n : Nat) (v : Word) (err : State → State) (run : TableOp → State → State) (s : State) : State :=
  match indCommand v n with
  | none => s
  | some none => err s
  | some (some op) => run op s

/-- VFM_IND_CTL (R238). -/
def vfmIndirect (p : Party) (op : TableOp) (s : State) : State :=
  let r := vfmIndOp p op s
  showReply p rVFM_IND_CTL (rVFM_IND_DATA 0) 16 op r.1 r.2

/-- POOL_IND_CTL (R301). -/
def poolIndirect (p : Party) (op : TableOp) (s : State) : State :=
  if isCrater p && op ≠ .read then s
  else
    let r := poolIndOp p op s
    showReply p rPOOL_IND_CTL (rPOOL_IND_DATA 0) 6 op r.1 r.2

/-- VFM_FN_CTL (R240, R541): INSTANCE, then the command on it. -/
def writeFnCtl (v : Word) (s : State) : State :=
  let old := getReg s rVFM_FN_CTL
  let inst := fld v 0 13
  match fld v 16 2 with
  | 0 => setReg rVFM_FN_CTL (setFld old 0 13 inst) s
  | 1 => let r := quiesceFn inst none s; showFnCtl inst (decide (r.1 = .done .malformed)) r.2
  | 2 => let r := runFn inst s; showFnCtl inst (decide (r.1 ≠ .ok)) r.2
  | _ => showFnCtl inst true s

/-- Registers of the VFM window. -/
def writeVfm (p : Party) (o : Nat) (v : Word) (s : State) : State :=
  if o = rVFM_IND_CTL then indWrite 2 v (setErr p o 3) (vfmIndirect p) s
  else if o = rVFM_FN_CTL then writeFnCtl v s
  else plainWrite p o v s

/-- WQM_QCTL (R265, R541). -/
def writeQctl (p : Party) (v : Word) (s : State) : State :=
  match fld v 16 2 with
  | 0 => plainWrite p rWQM_QCTL v s
  | 1 => qctlReset p (fld v 0 16) false s
  | 2 => qctlReset p (fld v 0 16) true s
  | _ =>
    if (getQueue s (regFld s rWQM_QCTL 0 16)).resets.isEmpty then setRegFld rWQM_QCTL 30 1 1 (plainWrite p rWQM_QCTL v s) else s

/-- Whether the base registers and sizes of an admin ring can be written: it is DISABLED with ENABLE 0 (R266). -/
def ringWritable (svcRing : Bool) (s : State) : Bool :=
  decide ((getQueue s (adminQp svcRing)).state = .disabled)
    && !bit (getReg s (if svcRing then rWQM_SVCQ_CFG else rWQM_ADMIN_CFG)) 0

/-- Registers of the WQM window. -/
def writeWqm (p : Party) (o : Nat) (v : Word) (s : State) : State :=
  if o = rWQM_QCTL then writeQctl p v s
  else if o = rWQM_ADMIN_CFG then (if ownsRing p false then writeRingCfg false v s else s)
  else if o = rWQM_SVCQ_CFG then (if ownsRing p true then writeRingCfg true v s else s)
  else if rWQM_ADMIN_SQ ≤ o && o < rWQM_SVCQ_CFG then (if ringWritable false s then plainWrite p o v s else s)
  else if rWQM_SVCQ_SQ ≤ o && o < rWQM_SVCQ_TAIL then (if ringWritable true s then plainWrite p o v s else s)
  else if o = rWQM_SVCQ_TAIL then (if ownsRing p true then writeSqTail svcRingQp v (plainWrite p o v s) else s)
  else if o = rWQM_SVCQ_HEAD then (if ownsRing p true then writeCqHead svcRingQp v (plainWrite p o v s) else s)
  else plainWrite p o v s

/-- The channel that a view selects. -/
def selectedCh (p : Party) (s : State) : Nat := fld (getView s p rDMA_CH_SEL) 0 9

/-- DMA_CH_MODE (R275, R278): in IDLE only, and a combination that R278 does not give the channel is refused. -/
def writeChMode (p : Party) (v : Word) (s : State) : State :=
  let ch := selectedCh p s
  let inst := fld v 0 13
  let src : BitVec 2 := BitVec.ofNat 2 (fld v 13 2)
  let dst : BitVec 2 := BitVec.ofNat 2 (fld v 15 2)
  let ok := decide ((getCh s ch).state = .idle) && spaceAllowed s ch inst src && spaceAllowed s ch inst dst
  writeChReg p ch ok (fun c => { c with inst := inst, src := src, dst := dst, modeWritten := true }) s

/-- One half of C0–C7. -/
def writeChC (p : Party) (o : Nat) (v : Word) (s : State) : State :=
  let ch := selectedCh p s
  let n := (o - rDMA_CH_C 0) / 8
  let high := decide ((o - rDMA_CH_C 0) % 8 = 4)
  let put := fun (c : Channel) =>
    let w := c.c.getD n 0
    let new := if high then join64 v (lo32 w) else join64 (hi32 w) v
    { c with c := c.c.set n new }
  writeChReg p ch (chWritable (getCh s ch).state) put s

/-- Registers of the DMA window. -/
def writeDma (p : Party) (o : Nat) (v : Word) (s : State) : State :=
  let ch := selectedCh p s
  if o = rDMA_CH_CTL then writeChCtl p ch v s
  else if o = rDMA_CH_PROG then
    writeChReg p ch (chWritable (getCh s ch).state) (fun c => { c with base := fld v 0 13, last := fld v 16 13 }) s
  else if o = rDMA_CH_MODE then writeChMode p v s
  else if rDMA_CH_C 0 ≤ o && o < rDMA_CH_C 8 then writeChC p o v s
  else if o = rDMA_REQ_SET then writeReqSet p (fld v 0 8) s
  else if o = rDMA_PMEM_HI then writePmemHi p v s
  else if rDMA_TMR_CFG 0 ≤ o && o < rDMA_TMR_CFG 32 then
    let n := (o - rDMA_TMR_CFG 0) / 4
    let mine := match p with | .host => decide (n < 16) | .service _ => decide (16 ≤ n) | .crater => true
    if mine then timerWritten n (plainWrite p o v s) else s
  else plainWrite p o v s

/-- POOL_CTL (R296, R541). -/
def writePoolCtl (p : Party) (v : Word) (s : State) : State :=
  if bit v 20 then
    (if s.pool.rebuilding.isSome then s
     else let s1 := plainWrite p rPOOL_CTL v s; startRebuild p (regFld s1 rPOOL_CTL 16 4) s1)
  else plainWrite p rPOOL_CTL v s

/-- Registers of the POOL window. -/
def writePool (p : Party) (o : Nat) (v : Word) (s : State) : State :=
  if o = rPOOL_CTL then writePoolCtl p v s
  else if o = rPOOL_IND_CTL then indWrite 2 v (setErr p o 3) (poolIndirect p) s
  else plainWrite p o v s

/-- Registers of the SWC window. -/
def writeSwc (p : Party) (o : Nat) (v : Word) (s : State) : State :=
  if o = rSWC_IND_CTL then indWrite 2 v (setView p o (putBit 30 true)) (swcIndirect p) s
  else if o = rSWC_TEPHRA_CFG then tephraCfgWrite v s
  else if o = rSWC_TEPHRA_BASE_LO || o = rSWC_TEPHRA_BASE_HI then
    (if bit (getReg s rSWC_TEPHRA_CFG) 0 then s else plainWrite p o v s)
  else plainWrite p o v s

/-- FLP_PROF_CTL (R124): PROFILE, then the command; CMD 3 has no ERR bit here to set. -/
def writeProfCtl (p : Party) (v : Word) (s : State) : State :=
  let s1 := selectProfile (fld v 0 6) s
  match fld v 8 2 with
  | 1 => quiesceProfile p (fld v 0 6) s1
  | 2 => runProfile p (fld v 0 6) s1
  | _ => s1

/-- Registers of the FLP window. -/
def writeFlp (p : Party) (o : Nat) (v : Word) (s : State) : State :=
  if o = rFLP_IND_CTL then indWrite 4 v (setErr p o 3) (flpIndirect p) s
  else if o = rFLP_PROF_CTL then writeProfCtl p v s
  else plainWrite p o v s

/-- Registers of the TMG window. -/
def writeTmg (p : Party) (o : Nat) (v : Word) (s : State) : State :=
  if o = rTMG_IND_CTL then indWrite 2 v (setErr p o 3) (tmgIndirect p) s else plainWrite p o v s

/-- Registers of the CPH window. -/
def writeCph (p : Party) (o : Nat) (v : Word) (s : State) : State :=
  if o = rCPH_IND_CTL then indWrite 1 v (setErr p o 3) (fun _ => cphIndirect p) s else plainWrite p o v s

/-- STR_IND_CTL: TABLE, of which 7–15 are reserved (R7), then the command (R182, R541). -/
def writeStrIndCtl (p : Party) (v : Word) (s : State) : State :=
  let old := getView s p rSTR_IND_CTL
  let table := if fld v 4 4 ≤ 6 then fld v 4 4 else fld old 4 4
  let s1 := setView p rSTR_IND_CTL (setFld old 4 4 table) s
  indWrite 2 v (fun s => setView p rSTR_IND_CTL (putFld 4 4 table ||| putFld 26 3 3 ||| putBit 30 true) s) (strIndirect p) s1

/-- Registers of the STR window. -/
def writeStr (p : Party) (o : Nat) (v : Word) (s : State) : State :=
  if o = rSTR_IND_CTL then writeStrIndCtl p v s else plainWrite p o v s

/-- Registers of the ETH window. -/
def writeEth (p : Party) (o : Nat) (v : Word) (s : State) : State :=
  if o = rETH_STN_HI then writeStation p v s
  else if rETH_PFC_CFG 0 ≤ o && o < rETH_PFC_CFG 16 && (o - rETH_PFC_CFG 0) % 512 = 0 then settlePfc (plainWrite p o v s)
  else plainWrite p o v s

/-- Registers of the LOOP window. -/
def writeLoop (p : Party) (o : Nat) (v : Word) (s : State) : State :=
  let lp := (o - rLOOP_STATUS 0) / 256
  if lp < 4 then
    if o = rLOOP_WAKE lp then writeLoopWake lp v s
    else if o = rLOOP_IND_CTL lp then indWrite 2 v (setErr p o 3) (loopIndirect p lp) s
    else plainWrite p o v s
  else plainWrite p o v s

/-- CAS_CTL (R375, R541): ID on the head, then the one command bit. -/
def writeCasCtl (p : Party) (v : Word) (s : State) : State :=
  if isCrater p then s
  else
    let s1 := if s.ident.role = .head then plainWrite p rCAS_CTL v s else s
    if bit v 8 && bit v 24 then s1
    else if bit v 8 then requestRemoval p s1
    else if bit v 24 then resetMember p (regFld s1 rCAS_CTL 16 6) s1
    else s1

/-- Registers of the CAS window. -/
def writeCas (p : Party) (o : Nat) (v : Word) (s : State) : State :=
  if o = rCAS_CTL then writeCasCtl p v s else plainWrite p o v s

/-- Registers of the SVC window (R388, R393): thread control and setup by service threads alone. -/
def writeSvc (p : Party) (o : Nat) (v : Word) (s : State) : State :=
  match p with
  | .service g =>
    let target := fld (getView s p rSVC_THREAD_SEL) 0 8
    if o = rSVC_THREAD_CTL then writeThreadCtl g target v s
    else if o = rSVC_WDOG then (if bit v 31 then kickWatchdog p s else s)
    else if o = rSVC_THREAD_PC || o = rSVC_TSBBASE || o = rSVC_REGION_BASE || o = rSVC_REGION_LIMIT || o = rSVC_XREG then
      writeSetup g target o (fun w => join64 (hi32 w) v) s
    else if o = rSVC_THREAD_PC + 4 || o = rSVC_TSBBASE + 4 || o = rSVC_REGION_BASE + 4 || o = rSVC_REGION_LIMIT + 4 || o = rSVC_XREG + 4 then
      writeSetup g target (o - 4) (fun w => join64 v (lo32 w)) s
    else plainWrite p o v s
  | .host => plainWrite p o v s
  | .crater => plainWrite p o v s

/-- Registers of the MBX window (R420–R424). -/
def writeMbx (p : Party) (o : Nat) (v : Word) (s : State) : State :=
  let e := endOf p
  let ch := (o - rMBX_WORD 0) / 32
  if 40 ≤ ch then s
  else match (o - rMBX_WORD 0) % 32 with
    | 0x00 => writeMbxLo e ch v s
    | 0x04 => commitWord e ch v s
    | 0x08 => writeMbxStatus e ch v s
    | 0x0C => writeMbxCtl e ch v s
    | 0x10 => writeDbSet e ch v s
    | 0x14 => writeDb e ch v s
    | 0x18 => writeDbMask e ch v s
    | _ => writeMbxCfg e ch v s

/-- PCR_SWRESET (R450, R541): KIND 0 starts nothing, 3 is reserved. -/
def writeSwreset (p : Party) (v : Word) (s : State) : State :=
  let key : BitVec 16 := BitVec.ofNat 16 (fld v 16 16)
  match fld v 0 2 with
  | 1 => swresetFull p key s
  | 2 => swresetService p key s
  | _ => s

/-- Registers of the PCR window; service retention is 32-bit words of the service view (20_reset_power_clocks.md). -/
def writePcr (p : Party) (o : Nat) (v : Word) (s : State) : State :=
  if o = rPCR_PWR_CTL then writePowerCtl p (fld v 0 3) s
  else if o = rPCR_SWRESET then writeSwreset p v s
  else if o = rPCR_IMG_CTL then writeImgCtl p (fld v 0 3) s
  else if rPCR_IMG_SRC_LO ≤ o && o ≤ rPCR_IMG_LEN then (if isPf p then plainWrite p o v s else s)
  else if rPCR_BACKUP 0 ≤ o && o < rPCR_BACKUP 16 then
    let n := (o - rPCR_BACKUP 0) / 4
    let mine := match p with | .host => decide (n < 8) | .service _ => decide (8 ≤ n) | .crater => true
    if mine then plainWrite p o v s else s
  else if 0xF04000 ≤ o && o < 0xF0C000 then
    match p with
    | .service _ => { s with mem := { s.mem with svcRet := mset (fun _ => 0) s.mem.svcRet o v } }
    | .host => s
    | .crater => s
  else plainWrite p o v s

/-- TIM_TELEM_CFG (R483): the first snapshot falls one period after EN is set. -/
def writeTelemCfg (p : Party) (v : Word) (s : State) : State :=
  let s1 := plainWrite p rTIM_TELEM_CFG v s
  if bit (getReg s1 rTIM_TELEM_CFG) 0 && !bit (getReg s rTIM_TELEM_CFG) 0 then
    { s1 with tim := { s1.tim with snapDue := s1.now + ms (regFld s1 rTIM_TELEM_CFG 16 10) } }
  else s1

/-- Registers of the TIM window. -/
def writeTim (p : Party) (o : Nat) (v : Word) (s : State) : State :=
  if o = rTIM_STATUS then (if bit v 5 then { s with tim := { s.tim with wrErr := false } } else s)
  else if o = rTIM_CFG then (if isPf p then writeTimCfg v s else s)
  else if o = rTIM_PTP_RATE then (if isPf p then writePtpRate v s else s)
  else if o = rTIM_PTP_STEP_LO then (if isPf p && s.tim.src = .loop then timWriteError s else plainWrite p o v s)
  else if o = rTIM_PTP_STEP_HI then (if isPf p then writePtpStep v s else s)
  else if o = rTIM_LOG_SEL then loadLogEntry p (fld v 0 16) s
  else if o = rTIM_TELEM_CFG then writeTelemCfg p v s
  else plainWrite p o v s

/-- ALP_DRILL_CTL (R65, R66, R541): START and STOP together act as STOP alone. -/
def writeDrillCtl (p : Party) (v : Word) (s : State) : State :=
  if isCrater p then s
  else
    let s1 := plainWrite p rALP_DRILL_CTL v s
    if bit v 1 then withMarkers (stopDrill true) s1
    else if bit v 0 then withMarkers (requestDrill true) s1
    else s1

/-- Registers of the ALP window. -/
def writeAlp (p : Party) (o : Nat) (v : Word) (s : State) : State :=
  if o = rALP_DRILL_CTL then writeDrillCtl p v s
  else if o = rALP_SHED_CFG then plainWrite p o v (settleShapers s)
  else plainWrite p o v s

/-- The event mask registers with their event registers (R539). -/
def eventPairs : List (Nat × Nat) :=
  [(rHEP_EVENT_MASK, rHEP_EVENT), (rVFM_EVENT_MASK, rVFM_EVENT), (rWQM_EVENT_MASK, rWQM_EVENT), (rDMA_EVENT_MASK, rDMA_EVENT),
   (rPOOL_EVENT_MASK, rPOOL_EVENT), (rSWC_EVENT_MASK, rSWC_EVENT), (rFLP_EVENT_MASK, rFLP_EVENT), (rTMG_EVENT_MASK, rTMG_EVENT),
   (rCPH_EVENT_MASK, rCPH_EVENT), (rSTR_EVENT_MASK, rSTR_EVENT), (rETH_EVENT_MASK, rETH_EVENT),
   (rLOOP_EVENT_MASK 0, rLOOP_EVENT 0), (rLOOP_EVENT_MASK 1, rLOOP_EVENT 1), (rLOOP_EVENT_MASK 2, rLOOP_EVENT 2),
   (rLOOP_EVENT_MASK 3, rLOOP_EVENT 3), (rCAS_EVENT_MASK, rCAS_EVENT), (rSVC_EVENT_MASK, rSVC_EVENT), (rPCR_EVENT_MASK, rPCR_EVENT),
   (rPCR_IMG_EVENT_MASK, rPCR_IMG_EVENT), (rMEM_EVENT_MASK, rMEM_EVENT), (rTIM_EVENT_MASK, rTIM_EVENT),
   (rALP_EVENT_MASK, rALP_EVENT), (rCRT_EVENT_MASK, rCRT_EVENT)]

/-- The event register behind a mask register. -/
def maskOf (o : Nat) : Option Nat := (eventPairs.find? (fun e => e.1 = o)).map Prod.snd

/-- A write of an event mask register (R539): a 1 written to the ENABLE bit of an event bit that reads 1 sends the vector at once. -/
def writeMask (p : Party) (o ev : Nat) (v : Word) (s : State) : State :=
  match regAt o with
  | some d => let s1 := plainWrite p o v s; if mayWrite p o d then enableBits ev o (getReg s1 o) s1 else s1
  | none => s

/-- A write of a register by its window. -/
def writeWindow (p : Party) (o : Nat) (v : Word) (s : State) : State :=
  match o >>> 20 with
  | 0x00 => if o = rHEP_VSW_SEL && s.ident.role ≠ .head then s else plainWrite p o v s
  | 0x01 => writeVfm p o v s
  | 0x02 => writeWqm p o v s
  | 0x03 => writeDma p o v s
  | 0x04 => writePool p o v s
  | 0x05 => writeSwc p o v s
  | 0x06 => writeFlp p o v s
  | 0x07 => writeTmg p o v s
  | 0x08 => writeCph p o v s
  | 0x09 => writeStr p o v s
  | 0x0A => writeEth p o v s
  | 0x0B => writeLoop p o v s
  | 0x0C => writeCas p o v s
  | 0x0D => writeSvc p o v s
  | 0x0E => writeMbx p o v s
  | 0x0F => writePcr p o v s
  | 0x11 => writeTim p o v s
  | 0x12 => writeAlp p o v s
  | _ => plainWrite p o v s

/-- A 4-byte write of BAR0 space by a party (R8, R498–R500). A write of an offset that holds no register is ignored (R211). -/
def writeReg (p : Party) (o : Nat) (v : Word) (s : State) : State :=
  if !visible p o || o % 4 ≠ 0 then s
  else match maskOf o with
    | some ev => writeMask p o ev v s
    | none => writeWindow p o v s

/-- An aligned 8-byte write through the host or service view (R211): the lower register first. -/
def writeReg64 (p : Party) (o : Nat) (v : DWord) (s : State) : State := writeReg p (o + 4) (hi32 v) (writeReg p o (lo32 v) s)

/-- REGISTER_WRITE (R8). -/
def execRegisterWrite (p : Party) (off : Nat) (v : Word) (s : State) : Result := .next (if isRunning s then writeReg p off v s else s)

/-- EVENT_MASK_WRITE (R539). -/
def execEventMaskWrite (p : Party) (off : Nat) (v : Word) (s : State) : Result :=
  match maskOf off with
  | some ev => .next (if isRunning s && visible p off then writeMask p off ev v s else s)
  | none => .next s

end Sys2Proof.Machine
end

