-- ==== Sys2Proof/Machine/ConfigSpace.lean ====
section
/-! DEFINITION. Configuration Requests (R206–R210, R216, R217, R225, R229–R231): the configuration space of the PF, the VFs and the ports
of a head's virtual switch. The spec gives the capabilities and the values of R207–R210; the layout of each capability is that of the
PCI Express base specification, which it cites, and the offsets of the capabilities are the model's (log entry). -/

namespace Sys2Proof.Machine

/-- Number of a function in `hep.fns`. -/
def cfgFn : CfgTarget → Nat
  | .pf => pf
  | .vf n => n
  | .upstream => 8191
  | .downstream k => 8192 + k
  | .member k _ => 8192 + k

/-- Whether the target is a port of the virtual switch. -/
def isPort : CfgTarget → Bool
  | .upstream => true
  | .downstream _ => true
  | _ => false

/-- Vendor and Device ID (R207). -/
def cfgIdent : CfgTarget → Word
  | .pf => 0x64001CE7
  | .vf _ => 0x64011CE7
  | .upstream => 0x64021CE7
  | .downstream _ => 0x64031CE7
  | .member _ _ => 0

/-- Slot Control and Slot Status of a downstream port (R230, R231). -/
def slotRegister (s : State) (k : Nat) : Word :=
  let v := getVsw s k
  putFld 0 16 v.slotCtl.toNat ||| putBit 16 v.attnPressed ||| putBit 19 v.presenceChanged ||| putBit 20 v.cmdCompleted
    ||| putBit 22 (portPresent s k) ||| putBit 24 v.dllChanged

/-- Link Status of a port or of the PF: the rate and width reached; Data Link Layer Link Active of a downstream port (R230). -/
def linkStatus (s : State) (t : CfgTarget) : Word :=
  match t with
  | .downstream k => putBit 29 (portActive s k)
  | _ => putFld 16 4 s.hep.speed ||| putFld 20 6 s.hep.width

/-- The standard header of an endpoint function. -/
def headerEndpoint (s : State) (t : CfgTarget) (n : Nat) : Word :=
  let fn := cfgFn t
  let f := getFn s fn
  let c := getCfg s fn n
  let own := decide (fn = pf)
  match n with
  | 0 => cfgIdent t
  | 1 => (c &&& 0x0000FFF9) ||| putBit 1 (own && f.mse) ||| putBit 2 f.bme ||| 0x00100000
  | 2 => 0x020000B0
  | 3 => c
  | 4 => if own then c ||| 0x4 else 0
  | 6 => if own then c ||| 0xC else 0
  | 8 => if own then c ||| 0x4 else 0
  | 11 => putFld 0 16 s.img.subsysVid.toNat ||| putFld 16 16 s.img.subsysId.toNat
  | 13 => if own then 0x40 else 0x50
  | _ => if own then c else 0

/-- The standard header of a port. -/
def headerPort (s : State) (t : CfgTarget) (n : Nat) : Word :=
  let c := getCfg s (cfgFn t) n
  match n with
  | 0 => cfgIdent t
  | 1 => (c &&& 0x0000FFFF) ||| 0x00100000
  | 2 => 0x060400B0
  | 3 => c ||| (match t with | .downstream _ => 0x00810000 | _ => 0x00010000)
  | 9 => c ||| 0x00010001
  | 13 => 0x40
  | _ => c

/-- Message Control and the tables of MSI-X (R208, R210, R503, R504). -/
def msixCap (s : State) (t : CfgTarget) (n : Nat) : Word :=
  let f := getFn s (cfgFn t)
  let size := vectorsOf (cfgFn t) - 1
  match t, n with
  | .upstream, _ => 0
  | _, 20 => 0x6011 ||| putFld 16 11 size ||| putBit 30 f.msixFnMask ||| putBit 31 f.msixEnable
  | .pf, 21 => 0x80004
  | .pf, 22 => 0xC0004
  | .vf _, 21 => 0x10000
  | .vf _, 22 => 0x10800
  | .downstream _, 22 => 0x800
  | _, _ => 0

/-- The PCI Express capability (R204, R206, R208, R224, R226, R230): Transactions Pending is bit 21 of register 26. -/
def pcieCap (s : State) (t : CfgTarget) (n : Nat) : Word :=
  let c := getCfg s (cfgFn t) n
  match n with
  | 24 => 0x00020010 ||| (match t with | .upstream => 0x00500000 | .downstream _ => 0x01600000 | _ => 0)
  | 26 => c ||| putBit 21 (decide (0 < tagsOf s (cfgFn t)))
  | 25 => 0x00008022 ||| (if isPort t then 0 else 0x10000000)
  | 27 => 0x00000906 ||| putFld 4 6 16 ||| (match t with | .downstream k => putBit 20 true ||| putFld 24 8 k | _ => 0)
  | 28 => c ||| linkStatus s t
  | 29 => match t with | .downstream k => 0x0000007B ||| putFld 19 13 k | _ => 0
  | 30 => match t with | .downstream k => slotRegister s k | _ => 0
  | 33 => 0x00030013
  | 35 => 0x0000007E
  | _ => c

/-- An extended capability header: ID, version 1, next. -/
def extHeader (id next : Nat) : Word := putFld 0 16 id ||| putFld 16 4 1 ||| putFld 20 12 next

/-- The SR-IOV capability of the PF (R209). -/
def sriovCap (s : State) (n : Nat) : Word :=
  let c := getCfg s pf n
  match n with
  | 92 => extHeader 0x0010 0x1B0
  | 94 => c ||| putBit 0 s.hep.vfEnable
  | 95 => putFld 0 16 (totalVfs s) ||| putFld 16 16 (totalVfs s)
  | 96 => putFld 0 16 s.hep.numVfs.toNat
  | 97 => 0x00010001
  | 98 => 0x64010000
  | 99 => 1
  | 100 => 1
  | 101 => c ||| 0x4
  | _ => c

/-- The other extended capabilities: serial number, ARI, ACS, readiness times, and those of the link (R208). -/
def extCap (s : State) (t : CfgTarget) (n : Nat) : Word :=
  let c := getCfg s (cfgFn t) n
  let lone := match t with | .vf _ => true | _ => false
  match n with
  | 64 => extHeader 0x0001 (match t with | .vf _ => 0x160 | .downstream _ => 0x1B0 | _ => 0x150)
  | 84 => extHeader 0x0003 (if isPort t then 0x1C0 else 0x160)
  | 85 => lo32 Config.serial
  | 86 => hi32 Config.serial
  | 88 => extHeader 0x000E (if lone then 0x2C0 else 0x170)
  | 108 => extHeader 0x000D (match t with | .downstream _ => 0x2C0 | _ => 0x1C0)
  | 109 => c ||| (match t with | .downstream _ => 0x0000001D | _ => 0)
  | 112 => extHeader 0x0022 0x1D0
  | 116 => extHeader 0x0019 0x200
  | 128 => extHeader 0x0025 0x210
  | 132 => extHeader 0x0026 0x240
  | 144 => extHeader 0x002A 0x270
  | 156 => extHeader 0x0031 0x2A0
  | 168 => extHeader 0x0027 0x2C0
  | 176 => extHeader 0x002F 0
  | 177 => match t with | .downstream _ => 0x6 | _ => 0xE
  | _ => c

/-- Whether a function has the extended capability that holds register `n` (R208). -/
def hasExt (t : CfgTarget) (n : Nat) : Bool :=
  let link := match t with | .vf _ => false | .downstream _ => false | _ => true
  if n < 84 then true
  else if n < 88 then link
  else if n < 92 then !isPort t
  else if n < 108 then decide (t = .pf)
  else if n < 112 then (match t with | .pf => true | .downstream _ => true | _ => false)
  else if n < 176 then link
  else decide (n < 180)

/-- A register of a function's configuration space. -/
def cfgValue (s : State) (t : CfgTarget) (n : Nat) : Word :=
  let power := match t with | .vf _ => false | _ => true
  if n < 16 then (if isPort t then headerPort s t n else headerEndpoint s t n)
  else if n = 16 then (if power then (match t with | .upstream => 0x00036001 | _ => 0x00035001) else 0)
  else if n = 17 then (if power then (getCfg s (cfgFn t) 17 ||| putFld 0 2 (if (getFn s (cfgFn t)).d3hot then 3 else 0)) else 0)
  else if n < 20 then 0
  else if n < 24 then msixCap s t n
  else if n < 64 then pcieCap s t n
  else if !hasExt t n then 0
  else if 92 ≤ n && n < 108 then sriovCap s n
  else extCap s t n

/-- RW bits among the stored bits of a register, and its W1C bits. -/
def cfgMasks (t : CfgTarget) (n : Nat) : Word × Word :=
  let down := match t with | .downstream _ => true | _ => false
  match n with
  | 1 => (if isPort t then 0x0547 else 0x0540, 0)
  | 3 => (0xFF, 0)
  | 4 => (if t = .pf then 0xFC000000 else if down then 0xFFFFF000 else 0, 0)
  | 5 => (if t = .pf then 0xFFFFFFFF else 0, 0)
  | 6 => (if isPort t then 0x00FFFFFF else if t = .pf then 0xF0000000 else 0, 0)
  | 7 => (if t = .pf then 0xFFFFFFFF else 0, 0)
  | 8 => (if isPort t then 0xFFF0FFF0 else if t = .pf then 0xFFF00000 else 0, 0)
  | 9 => (if isPort t then 0xFFF0FFF0 else if t = .pf then 0xFFFFFFFF else 0, 0)
  | 10 => (if isPort t then 0xFFFFFFFF else 0, 0)
  | 11 => (if isPort t then 0xFFFFFFFF else 0, 0)
  | 15 => (if isPort t then 0x005F00FF else if t = .pf then 0xFF else 0, 0)
  | 17 => (0, 0)
  | 26 => (0x7FFF, 0x000F0000)
  | 28 => (0x0FFB, 0)
  | 34 => (0x101F, 0)
  | 36 => (0xFFFF, 0)
  | 65 => (0, 0x007FF030)
  | 66 => (0x007FF030, 0)
  | 67 => (0x007FF030, 0)
  | 68 => (0, 0xF1C1)
  | 69 => (0xF1C1, 0)
  | 94 => (0x18, 0)
  | 101 => (0xFFF80000, 0)
  | 102 => (0xFFFFFFFF, 0)
  | 109 => (if down then 0x001D0000 else 0, 0)
  | 178 => (0x1F, 0)
  | _ => (0, 0)

/-- The bits of the bytes that a request enables. -/
def beMask (be : BitVec 4) : Word :=
  putFld 0 8 (if be.getLsbD 0 then 255 else 0) ||| putFld 8 8 (if be.getLsbD 1 then 255 else 0)
    ||| putFld 16 8 (if be.getLsbD 2 then 255 else 0) ||| putFld 24 8 (if be.getLsbD 3 then 255 else 0)

/-- The stored bits of a register after a write. -/
def storeCfg (t : CfgTarget) (n : Nat) (be : BitVec 4) (data : Word) (s : State) : State :=
  let fn := cfgFn t
  let old := getCfg s fn n
  let (rw, w1c) := cfgMasks t n
  let on := rw &&& beMask be
  let new := ((old &&& ~~~ on) ||| (data &&& on)) &&& ~~~ (data &&& beMask be &&& w1c)
  if new = old then s else setCfg fn n new s

/-- An FLR of a function begins (R225, R227). -/
def startFlr (fn : Nat) (s : State) : State :=
  if fn = pf then markFlr pf (pfFlrEffects s) else markFlr fn (unmapSegments fn none (resetFunction fn s))

/-- A Secondary Bus Reset of the head's own downstream port: a HOST reset of its functions; the link, the ports and the requests of
members go on (R34, R450). -/
def ownBusReset (s : State) : State :=
  let h := s.hep
  let s1 := hostResetBy false 4 s
  let ports := mfilter (fun n _ => decide (8191 ≤ n)) h.fns
  let hep := { s1.hep with linkUp := h.linkUp, speed := h.speed, width := h.width, flit := h.flit, portsReady := h.portsReady, fns := ports,
                           vsw := h.vsw, memberReads := h.memberReads }
  { s1 with hep := hep, cas := { s1.cas with hostReqs := s.cas.hostReqs } }

/-- A Secondary Bus Reset of a downstream port: HOST for the device behind it (R450). -/
def busReset (k : Nat) (s : State) : State :=
  if k = s.ident.cid then ownBusReset s
  else if portPresent s k then sendTlp k (tlpBytes (.msg pf 5 0)) s
  else s

/-- The functions of the device are held in reset, or released (R231). -/
def holdFunctions (held : Bool) (s : State) : State :=
  let s1 := { s with cas := { s.cas with fnHeld := held } }
  if held && !s.cas.fnHeld then
    let s2 := pfFlrEffects s1
    { s2 with hep := { s2.hep with cfgReady := false, operational := false, inReset := false } }
  else if !held && s.cas.fnHeld then endpointReady s1
  else s1

/-- Slot Control of a downstream port is written (R230, R231); that of port 0 of the head acts on its own functions. -/
def writeSlotControl (k : Nat) (v : BitVec 16) (s : State) : State :=
  let s1 := slotControl k v s
  if k = s.ident.cid then
    holdFunctions (v.getLsbD 10)
      { s1 with cas := { s1.cas with attnInd := (v.extractLsb' 6 2).toNat, pwrInd := (v.extractLsb' 8 2).toNat } }
  else s1

/-- SLOT_CONTROL_WRITE (R230, R231). -/
def execSlotControlWrite (k : Nat) (v : BitVec 16) (s : State) : Result :=
  if s.ident.role ≠ .head || 64 ≤ k then .next s else .next (writeSlotControl k v s)

/-- The effects of a write on what a register stands for beyond its stored bits. Answers whether the request is refused with UR. -/
def cfgEffects (t : CfgTarget) (n : Nat) (be : BitVec 4) (data old : Word) (s : State) : Bool × State :=
  let fn := cfgFn t
  let b0 := be.getLsbD 0
  let up := (cfgValue s t n &&& ~~~ beMask be) ||| (data &&& beMask be)
  match t, n with
  | .pf, 1 => (false, if b0 then writeBme pf (bit data 2) (writeMse pf (bit data 1) s) else s)
  | .vf _, 1 => (false, if b0 then writeBme fn (bit data 2) s else s)
  | .upstream, 1 => (false, if b0 then setFn fn { getFn s fn with bme := bit data 2, mse := bit data 1 } s else s)
  | .downstream _, 1 => (false, if b0 then writeBme fn (bit data 2) (writeMse fn (bit data 1) s) else s)
  | .vf _, 17 => (false, s)
  | .vf _, 20 => (false, if be.getLsbD 3 then flushVectors fn (setFn fn { getFn s fn with msixEnable := bit data 31, msixFnMask := bit data 30 } s) else s)
  | .vf _, 26 => (false, if be.getLsbD 1 && bit data 15 then startFlr fn s else s)
  | .pf, 26 => (false, if be.getLsbD 1 && bit data 15 then startFlr pf s else s)
  | .pf, 94 =>
    if b0 && bit data 0 then setVfEnable s
    else (false, if b0 then clearVfEnable s else s)
  | .pf, 96 => (false, if be.getLsbD 0 || be.getLsbD 1 then writeNumVfs (BitVec.ofNat 16 (fld up 0 16)) s else s)
  | .upstream, 20 => (false, s)
  | .upstream, 15 =>
    (false, if be.getLsbD 2 && bit data 22 && !bit old 22 then forEach busReset (List.range 64) s else s)
  | .downstream k, 15 => (false, if be.getLsbD 2 && bit data 22 && !bit old 22 then busReset k s else s)
  | .downstream k, 30 =>
    let v := getVsw s k
    let high := data &&& beMask be
    let calm := { v with attnPressed := v.attnPressed && !bit high 16, presenceChanged := v.presenceChanged && !bit high 19,
                         cmdCompleted := v.cmdCompleted && !bit high 20, dllChanged := v.dllChanged && !bit high 24 }
    let s1 := { s with hep := { s.hep with vsw := mset (fun _ => VswPort.absent) s.hep.vsw k calm } }
    (false, if be.getLsbD 0 || be.getLsbD 1 then writeSlotControl k (BitVec.ofNat 16 (fld up 0 16)) s1 else s1)
  | _, 17 =>
    (false, if b0 then (match fld data 0 2 with | 0 => writePowerState fn false s | 3 => writePowerState fn true s | _ => s) else s)
  | _, 20 => (false, if be.getLsbD 3 then flushVectors fn (setFn fn { getFn s fn with msixEnable := bit data 31, msixFnMask := bit data 30 } s) else s)
  | _, _ => (false, s)

/-- A configuration write: the stored bits, then the effects; one that is refused stores nothing. -/
def writeCfg (t : CfgTarget) (n : Nat) (be : BitVec 4) (data : Word) (s : State) : Bool × State :=
  let old := getCfg s (cfgFn t) n
  let kept := cfgEffects t n be data old s
  if kept.1 then (true, s) else (false, (cfgEffects t n be data old (storeCfg t n be data s)).2)

/-- Whether a function answers configuration requests, by name: ports on a head alone; VFs while they exist. -/
def cfgExists (s : State) : CfgTarget → Bool
  | .pf => true
  | .vf n => decide (n < vfsInEffect s)
  | .upstream => decide (s.ident.role = .head)
  | .downstream k => decide (s.ident.role = .head) && decide (k < 64)
  | .member _ _ => false

/-- A Configuration Request to a function of this device (R209, R216, R217): status, data, and the state after it. -/
def configOp (t : CfgTarget) (type1 write : Bool) (reg : Nat) (be : BitVec 4) (data : Word) (s : State) : CplStatus × Bytes × State :=
  if (if isPort t then !s.hep.portsReady else !s.hep.cfgReady && !s.cas.fnHeld) then (.retry, [], s)
  else if s.cas.fnHeld && !isPort t then (.unsupported, [], logUr (8192 + s.ident.cid) (incr cHEP_UR_SENT s))
  else if (type1 && !isPort t) || !cfgExists s t then (.unsupported, [], incr cHEP_UR_SENT s)
  else if (getFn s (cfgFn t)).flrFrom.isSome then (.retry, [], s)
  else if !write then (.success, toLe 4 (cfgValue s t (reg % 1024)).toNat, s)
  else
    let (ur, s1) := writeCfg t (reg % 1024) be data s
    if ur then (.unsupported, [], logUr (cfgFn t) (incr cHEP_UR_SENT s1)) else (.success, [], s1)

/-- A request that the host routes below a downstream port whose member is not present: UR from that port (R217, R233). -/
def portRefuses (k tag : Nat) (posted : Bool) (s : State) : State :=
  let lost := decide ((mget (fun _ => DdtMember.absent) s.hep.members k).state = 3)
  if posted && lost then s
  else if posted then logUr (8192 + k) s
  else logUr (8192 + k) (emit (.completion tag .unsupported []) (incr cHEP_UR_SENT s))

/-- A memory request that a port of the head in D3hot does not forward (R206): UR from that port. -/
def asleepRefuses (k tag : Nat) (posted : Bool) (s : State) : State :=
  let port := if (getFn s 8191).d3hot then 8191 else 8192 + k
  refuseRequest (some port) (if posted then none else some tag) s

/-- A request of the host to a member: carried as a TLP frame; the head owes the host an answer to a non-posted one (R233, R370). -/
def toMember (k tag : Nat) (posted : Bool) (t : Tlp) (s : State) : State :=
  if s.ident.role ≠ .head || !portPresent s k || k = s.ident.cid || (getVsw s k).powerOff then portRefuses k tag posted s
  else
    let s1 := if posted then s else { s with cas := { s.cas with hostReqs := minsert s.cas.hostReqs tag k } }
    sendTlp k (tlpBytes t) s1

/-- CONFIG_REQUEST (R216, R217). A MEMBER keeps its lanes in electrical idle and receives nothing from a host link of its own. -/
def execConfigRequest (t : CfgTarget) (type1 write : Bool) (reg : Nat) (be : BitVec 4) (data : Word) (tag : Nat) (s : State) : Result :=
  if !isRunning s || !s.hep.linkUp || s.ident.role = .member then .next s
  else match t with
    | .member k fn =>
      if !s.hep.portsReady then .next (emit (.completion tag .retry []) s)
      else .next (toMember k tag false (.cfg fn reg write be.toNat data.toNat tag) s)
    | _ =>
      let (st, bs, s1) := configOp t type1 write reg be data s
      .next (emit (.completion tag st bs) s1)

end Sys2Proof.Machine
end

