-- ==== Sys2Proof/Machine/Precedence.lean ====
section
/-! DEFINITION. The arrival of an alarm level at the subsystems (R56, R60). -/

namespace Sys2Proof.Machine

/-- Whether nothing of a storage command has been sent. -/
def StorCmd.unsent (c : StorCmd) : Bool := c.subs.all (fun x => decide (x.state = .unsent))

/-- Storage commands of VFs shed at level 3 that have not been sent complete with SHED (R60, R61); those of LS queues never do (R62). -/
def shedCommand (k : Nat) (s : State) : State :=
  match mfind s.str.cmds k with
  | none => s
  | some c =>
    match c.owner with
    | .queue qp pos =>
      if c.unsent && !(getQueue s qp).ls && decide (3 ≤ shedAt s .str c.inst) then endStor qp pos .shed none false (dropCmd k s) else s
    | _ => s

/-- WAKE_ON_EMERG: for 1 s after entering EMERGENCY every lost side sends WAKE (R349, LOOP_CFG[22]). -/
def wakeOnEmergency (lp : Nat) (s : State) : State :=
  if loopRuns s lp && bit (getReg s (rLOOP_CFG lp)) 22 then startWake lp 1 (s.now + ms 1000) s else s

/-- What a subsystem does as a level reaches it (R60). What follows from the level itself, an arbitration or a drop, is read from it
where it applies. -/
def applyLevel (old new : AlarmState) (sub : Subsystem) (s : State) : State :=
  match sub with
  | .wqm => forEach completeShed (s.wqm.queues.map Prod.fst) s
  | .cph =>
    let s1 := if new.active && !old.active then returnQueued s else s
    { s1 with cph := { s1.cph with entryAt := if new.active then some s1.now else none } }
  | .str =>
    let s1 := forEach (levelAtChannel old new) (s.str.chans.map Prod.fst) s
    forEach shedCommand (s1.str.cmds.map Prod.fst) (if s1.str.rec_.on then captureLevel new s1 else s1)
  | .eth =>
    let s1 := if old.emergent && !new.emergent then forEach endDeferredRecal [0, 1, 2, 3] s else s
    if new = .normal then fitGroups s1 else forEach forceRecal [0, 1, 2, 3] s1
  | .loop => if new = .emergency then forEach wakeOnEmergency [0, 1, 2, 3] s else s
  | .svc => raiseThread 0 1 s
  | .pcr =>
    let s1 := settleScrub s
    if new = .normal then { s1 with img := { s1.img with paused := false } } else s1
  | .hep => s
  | .vfm => s
  | .dma => s
  | .pool => s
  | .swc => s
  | .flp => s
  | .tmg => s
  | .cas => s
  | .crt => s

/-- PRECEDENCE_LEVEL_ARRIVE (R60): the level that Crater drives reaches a subsystem. While Crater restarts no entry or exit action runs
(R70). -/
def execPrecedenceLevelArrive (sub : Subsystem) (s : State) : Result :=
  let old := levelAt s sub
  let new := s.alp.state
  if old = new || s.crt.restarting then .next s
  else
    let put := fun s : State =>
      { s with alp := { s.alp with levels := mset (fun _ => AlarmState.normal) s.alp.levels (subsystemNumber sub) new } }
    .next (withMarkers (fun s => applyLevel old new sub (put s)) s)

/-- What the sweep applies at each instance: the fields of its record that come into force, its level-1 scaling, and SHED for the fetched
descriptors and the unsent storage commands of a VF whose new level sheds them (R61). -/
def sweepInstances (s : State) : State :=
  let insts := s.vfm.records.map Prod.fst ++ s.tmg.scaled.map Prod.fst
  let s1 := { s with vfm := { s.vfm with inForce := s.vfm.records } }
  let scale := fun (inst : Nat) (s : State) =>
    { s with tmg := { s.tmg with scaled := mset (fun _ => false) s.tmg.scaled inst (decide (shedAt s .tmg inst = 1)) } }
  let s2 := forEach scale insts s1
  let s3 := forEach completeShed (s2.wqm.queues.map Prod.fst) s2
  forEach shedCommand (s3.str.cmds.map Prod.fst) s3

/-- PARAMETER_SWEEP (R61, R140, R237, R241): each instance is visited once; `lost` names those whose record has an uncorrectable error.
Shapers and policers are brought up to date at their rates before the change. -/
def execParameterSweep (lost : List Nat) (s : State) : Result :=
  if !isRunning s then .next s
  else .next (sweepInstances (forEach damageRecord lost (settleShapers s)))

end Sys2Proof.Machine
end

