-- ==== Sys2Proof/Machine/SecureRequests.lean ====
section
/-! DEFINITION. Requests to Crater on the secure mailbox channels (R413, R414, R422). -/

namespace Sys2Proof.Machine

/-- OP, TAG and ARG of a request word (R413). -/
def reqOp (w : DWord) : Nat := w.toNat % 256
/-- TAG. -/
def reqTag (w : DWord) : Nat := w.toNat / 2 ^ 8 % 256
/-- ARG. -/
def reqArg (w : DWord) : Nat := w.toNat / 2 ^ 16

/-- An answer word: OP and TAG of the request, a status, and RESULT (R413). -/
def answerWord (w : DWord) (st : Status) (result : Nat) : DWord :=
  BitVec.ofNat 64 (reqOp w + 2 ^ 8 * reqTag w + 2 ^ 16 * st.code + 2 ^ 24 * (result % 2 ^ 40))

/-- Whether a party may make a request (R413); an undefined OP is nobody's. -/
def requestAllowed (op : Nat) (e : MbxEnd) : Bool :=
  match op with
  | 1 => true
  | 2 => decide (e ≠ .management)
  | _ => decide (e = .host)

/-- CRATER_REQUEST_READ (R422): Crater reads the oldest request word and releases it; it answers one request before it reads the next.
An undefined OP is answered at once (R413). -/
def execCraterRequestRead (s : State) : Result :=
  match s.mbx.requests with
  | [] => .next s
  | ch :: rest =>
    if s.crt.restarting || !s.mbx.taken.isEmpty then .next s
    else
      let w := (getMbx s ch).word
      let s1 := wordReleased ch { s with mbx := { s.mbx with requests := rest, taken := minsert s.mbx.taken ch w } }
      if reqOp w = 0 || 4 < reqOp w then .next (answerRequest ch (answerWord w .malformed 0) s1) else .next s1

/-- The request of OP `op` that Crater has read on a channel is answered: with PERMISSION when its party may not make it. -/
def onRequest (op ch : Nat) (f : DWord → State → State) (s : State) : Result :=
  match mfind s.mbx.taken ch with
  | none => .next s
  | some w =>
    if s.crt.restarting || reqOp w ≠ op then .next s
    else if !requestAllowed op (secureParty ch) then .next (incr cCRT_MBS_REJECT (answerRequest ch (answerWord w .permission 0) s))
    else .next (f w s)

/-- RESULT of STATE (R413). -/
def stateResult (s : State) : Nat :=
  s.crt.sec.code + (if s.pcr.refuge then 4 else 0) + (if s.img.runB then 8 else 0) + (if s.crt.nonApproved then 16 else 0)
    + 2 ^ 8 * s.crt.bootCount.toNat

/-- STATE (R413). -/
def execSecureState (ch : Nat) (s : State) : Result :=
  onRequest 1 ch (fun w s => answerRequest ch (answerWord w .ok (stateResult s)) s) s

/-- FLAGS of a slot in the positions of R160. -/
def slotFlags (k : KeySlot) : Nat :=
  (if k.key256 then 1 else 0) + (if k.tx then 2 else 0) + (if k.ls then 4 else 0) + (if k.integrity then 64 else 0)

/-- RESULT of SLOT_GEN (R413). -/
def slotGenResult (s : State) (n : Nat) : Nat :=
  let g := (slotGeneration s n).toNat
  match getSlot s n with
  | some k => g + 2 ^ 16 * k.proto + 2 ^ 24 * slotFlags k
  | none => g

/-- SLOT_GEN (R413). -/
def execSecureSlotGen (ch : Nat) (s : State) : Result :=
  onRequest 2 ch (fun w s =>
    if s.crt.sec = .zeroised then answerRequest ch (answerWord w .zeroised 0) s
    else answerRequest ch (answerWord w .ok (slotGenResult s (reqArg w % 65536))) s) s

/-- Bytes 0–163 of an attestation report (R414). -/
def reportHead (s : State) (nonce : Bytes) : Bytes :=
  let patch := if s.crt.patchOk then slice s.crt.patchHash 0 48 else List.replicate 48 0
  let boot := (if s.pcr.refuge then 1 else 0) + (if s.img.runB then 2 else 0) + (if s.crt.fallback then 4 else 0)
  let flags := (if s.crt.nonApproved then 1 else 0) + (if s.crt.degCause.getLsbD 1 then 2 else 0)
  toLe 4 0x54414352 ++ toLe 2 1 ++ toLe 2 192 ++ toLe 8 Config.serial.toNat ++ slice nonce 0 32 ++ patch ++ slice s.crt.bodyHash 0 48
    ++ toLe 8 s.crt.imageVer.toNat ++ toLe 1 s.crt.sec.code ++ toLe 1 boot ++ toLe 1 s.alp.state.code ++ toLe 1 flags
    ++ toLe 4 Config.romVersion.toNat ++ toLe 4 s.crt.bootCount.toNat

/-- The report, tagged under the attestation slot (R414). -/
def attestReport (key nonce : Bytes) (s : State) : Bytes × State :=
  let (iv, s1) := drawIv s
  let body := reportHead s nonce ++ iv
  (body ++ gmac key iv body, s1)

/-- The buffer of an ATTEST request. -/
def attestDva (w : DWord) : Nat := reqArg w % 2 ^ 48

/-- The read of the nonce of an ATTEST has come back: the report is written over the buffer, or the request is answered with the status
of the fault. -/
def attestBack (ch : Nat) (r : ReadReply) (s : State) : State :=
  match mfind s.mbx.taken ch, r with
  | some w, .got nonce =>
    match translate .key pf (attestDva w) 192 true s, slotKey s s.crt.roles.attestation with
    | (.error _, s1), _ => answerRequest ch (answerWord w .xlateFault 0) s1
    | (.ok _, s1), none => answerRequest ch (answerWord w .keyAbsent 0) s1
    | (.ok x, s1), some key =>
      let (rep, s2) := attestReport key nonce s1
      answerRequest ch (answerWord w .ok 192) (incr cCRT_ATTESTS (writeXlate pf false x rep s2))
  | some w, .failed st => answerRequest ch (answerWord w (if st = .permission then .xlateFault else st) 0) s
  | _, _ => s

/-- ATTEST (R413, R414); `nonce` is how the read of the nonce ends. -/
def execSecureAttest (ch : Nat) (nonce : ReadOutcome) (s : State) : Result :=
  onRequest 3 ch (fun w s =>
    let under := s.hep.tags.any (fun e => decide (e.2.purpose = .attest ch) && !e.2.abandoned)
    if s.crt.sec = .zeroised then answerRequest ch (answerWord w .zeroised 0) s
    else if attestDva w % 64 ≠ 0 then answerRequest ch (answerWord w .malformed 0) s
    else if under then s
    else
      let (r, s1) := dtuRead .key pf (attestDva w) 32 nonce (.attest ch) s
      attestBack ch r s1) s

/-- KEYOP_ACK (R412, R413). -/
def execSecureKeyopAck (ch : Nat) (s : State) : Result :=
  onRequest 4 ch (fun w s => answerRequest ch (answerWord w .ok 0) { s with crt := { s.crt with keyop := none } }) s

end Sys2Proof.Machine
end

