-- ==== Sys2Proof/Machine/Requests.lean ====
section
/-! DEFINITION. What arrives from the host and from the head of a Cascade: memory requests (R210, R211, R217, R502–R505), completions of
the device's own reads and their time-outs (R222–R226), TLP frames (R370) and SLOT frames (R375). -/

namespace Sys2Proof.Machine

/-- `n` bytes of a list at an offset, zeros beyond its end. -/
def bytesAt (bs : Bytes) (o n : Nat) : Bytes := (List.range n).map (fun i => bs.getD (o + i) 0)

/-- A member entry of the DDT (R213). -/
def ddtEntryBytes (m : DdtMember) : Bytes := toLe 1 m.state ++ toLe 1 m.hops ++ toLe 2 m.buses ++ toLe 8 m.serial.toNat ++ toLe 4 0

/-- The DDT as it reads now: as built, with the member table and DDT_GEN in force (R212, R214). -/
def ddtNow (s : State) : Bytes :=
  let off := leAt s.hep.ddt 68 2
  let d := patch s.hep.ddt 60 (toLe 4 s.hep.ddtGen.toNat)
  if off = 0 then d
  else (s.hep.members).foldl (fun d e => patch d (off + 16 * e.1) (ddtEntryBytes e.2)) d

/-- Pending Bit Array of a function as bytes. -/
def pbaBytes (s : State) (fn : Nat) (o n : Nat) : Bytes :=
  let p := (getFn s fn).pba
  (List.range n).map (fun i => BitVec.setWidth 8 (bitsWord (fun k => decide (k < 8) && mget (fun _ => false) p (8 * (o + i) + k))))

/-- Bytes of the MSI-X table of a function. -/
def msixBytes (s : State) (fn : Nat) (o n : Nat) : Bytes :=
  let t := (getFn s fn).msix
  (List.range n).map (fun i => BitVec.ofNat 8 ((mget msixDefault t ((o + i) / 4)).toNat >>> (8 * ((o + i) % 4))))

/-- A write of 4 or 8 bytes to an MSI-X table. -/
def msixWrite (fn o : Nat) (bs : Bytes) (s : State) : State :=
  let s1 := writeMsixTable fn (o / 4) (BitVec.ofNat 32 (leAt bs 0 4)) s
  if bs.length = 8 then writeMsixTable fn (o / 4 + 1) (BitVec.ofNat 32 (leAt bs 4 4)) s1 else s1

/-- A read of BAR4 (R503). -/
def readBar4 (o n : Nat) (s : State) : Bytes :=
  if o < 0x80000 then bytesAt (ddtNow s) o n
  else if o < 0x88000 then msixBytes s pf (o - 0x80000) n
  else if 0xC0000 ≤ o && o < 0xC0100 then pbaBytes s pf (o - 0xC0000) n
  else List.replicate n 0

/-- VFM_VF_STATUS (R505). -/
def vfStatus (s : State) (vf : Nat) : Word :=
  putFld 0 2 (fnStateCode (getFnS s vf).state) ||| putFld 2 2 (getRecord s vf).shed ||| putFld 4 2 (s.alp.state.code)
    ||| putBit 6 (decide (shedAt s .vfm vf ≠ 0)) ||| putBit 7 s.hep.operational

/-- Key of the latch behind a VF's VFM_VF_DROP_STOPPED_LO (R10). -/
def vfLatchKey (vf : Nat) : Nat := 4 * 2 ^ 32 + vf

/-- A 4-byte register of a VF's control page (R505). -/
def vfRegister (vf o : Nat) (s : State) : Word × State :=
  let drops := getCtr s (instCtr vf 0)
  if o = 0x000 then (vfStatus s vf, s)
  else if o = 0x004 then (putFld 0 13 vf ||| putFld 13 6 s.ident.cid, s)
  else if 0x040 ≤ o && o < 0x080 then (BitVec.ofNat 32 (leAt (recordBytes (getRecord s vf)) (o - 0x040) 4), s)
  else if o = 0x080 then (lo32 drops, { s with latch := mset (fun _ => 0) s.latch (vfLatchKey vf) (hi32 drops) })
  else if o = 0x084 then (mget (fun _ => 0) s.latch (vfLatchKey vf), s)
  else (0, s)

/-- A read of VF BAR0 (R504). -/
def readVfBar (vf o n : Nat) (s : State) : Bytes × State :=
  if o < 0x10000 then
    let a := vfRegister vf o s
    if n = 8 then (let b := vfRegister vf (o + 4) a.2; (toLe 4 a.1.toNat ++ toLe 4 b.1.toNat, b.2)) else (toLe 4 a.1.toNat, a.2)
  else if o < 0x10080 then (msixBytes s vf (o - 0x10000) n, s)
  else if o = 0x10800 then (pbaBytes s vf 0 n, s)
  else (List.replicate n 0, s)

/-- A 4-byte write in the doorbell slot of a queue pair (R251). -/
def ringSlot (fn qp o : Nat) (v : Word) (s : State) : State :=
  if !mayRing s fn qp then s
  else match o with
    | 0 => writeSqTail qp v s
    | 4 => writeCqHead qp v s
    | 8 => writeCqArm qp v s
    | _ => s

/-- A write in a doorbell slot: 4 or 8 bytes, or 64 bytes to GEYSER (R211, R251, R257). -/
def writeSlot (fn qp o : Nat) (bs : Bytes) (s : State) : State :=
  if bs.length = 64 then (if o = 0x40 && mayRing s fn qp then writeGeyser qp bs s else s)
  else
    let s1 := ringSlot fn qp o (BitVec.ofNat 32 (leAt bs 0 4)) s
    if bs.length = 8 then ringSlot fn qp (o + 4) (BitVec.ofNat 32 (leAt bs 4 4)) s1 else s1

/-- Whether an access of `n` bytes at an offset is one that R211 accepts in a window of registers. -/
def registerSized (o n : Nat) : Bool := (decide (n = 4) || decide (n = 8)) && decide (o % n = 0)

/-- The same for a window of doorbells: GEYSER takes 64 bytes in writes. -/
def doorbellSized (write : Bool) (o n : Nat) : Bool := registerSized o n || (write && decide (n = 64) && decide (o % 64 = 0))

/-- Whether an access is accepted by its size and alignment (R211). -/
def sizeAccepted (t : MemTarget) (write : Bool) (o n : Nat) : Bool :=
  match t with
  | .bar2 => doorbellSized write o n
  | .vfBar0 _ => if 0x40000 ≤ o then doorbellSized write o n else registerSized o n
  | _ => registerSized o n

/-- The function that a memory request addresses. -/
def memFn : MemTarget → Nat
  | .vfBar0 n => n
  | .portBar k => 8192 + k
  | _ => pf

/-- A read that the checks have passed. -/
def memRead (t : MemTarget) (o n : Nat) (s : State) : Bytes × State :=
  match t with
  | .bar0 =>
    if n = 8 then (let r := readReg64 .host o s; (toLe 8 r.1.toNat, r.2)) else (let r := readReg .host o s; (toLe 4 r.1.toNat, r.2))
  | .bar2 => (List.replicate n 0, s)
  | .bar4 => (readBar4 o n s, s)
  | .vfBar0 vf => readVfBar vf o n s
  | .portBar k =>
    (if o < 0x10 then msixBytes s (8192 + k) o n else if o = 0x800 then pbaBytes s (8192 + k) 0 n else List.replicate n 0, s)
  | .member _ => ([], s)

/-- A write that the checks have passed. -/
def memWrite (t : MemTarget) (o : Nat) (bs : Bytes) (s : State) : State :=
  match t with
  | .bar0 =>
    if bs.length = 8 then writeReg64 .host o (BitVec.ofNat 64 (leAt bs 0 8)) s else writeReg .host o (BitVec.ofNat 32 (leAt bs 0 4)) s
  | .bar2 => writeSlot pf (o / 4096) (o % 4096) bs s
  | .bar4 => if 0x80000 ≤ o && o < 0x88000 then msixWrite pf (o - 0x80000) bs s else s
  | .vfBar0 vf =>
    if 0x10000 ≤ o && o < 0x10080 then msixWrite vf (o - 0x10000) bs s
    else if 0x40000 ≤ o then
      let q := (o - 0x40000) / 256
      if q < (getRecord s vf).queueCount then writeSlot vf ((getRecord s vf).queueBase + q) (o % 256) bs s else s
    else s
  | .portBar k => if o < 0x10 then msixWrite (8192 + k) o bs s else s
  | .member _ => s

/-- A memory request to a function of this device (R217). -/
def memOp (r : MemReq) (s : State) : State :=
  let fn := memFn r.target
  let tag := if r.write then none else some r.tag
  let n := if r.write then r.data.length else r.len
  if s.cas.fnHeld && decide (fn < 8191) then (if s.ident.role = .member then s else refuseRequest (some (8192 + s.ident.cid)) tag s)
  else if !fnExists s fn && !portExists s fn then refuseRequest none tag s
  else if r.unsupported then refuseRequest (some fn) (some r.tag) s
  else if !memEnabled s fn || (getFn s fn).d3hot || (getFn s fn).flrFrom.isSome then refuseRequest (some fn) tag s
  else if r.write && r.poisoned then logPoisoned fn s
  else if !sizeAccepted r.target r.write r.offset n then refuseRequest (some fn) tag s
  else if r.write then memWrite r.target r.offset r.data s
  else
    let (bs, s1) := memRead r.target r.offset n s
    hostOut (.completion r.tag .success bs) s1

/-- An error of the link or of the endpoint is logged where R222 places it; link-level errors in `linkFunction`, a header that is
dropped in the function `fn`. -/
def logLinkError (e : LinkError) (fn : Nat) (s : State) : State :=
  match e with
  | .receiver => logCorrectable (linkFunction s) 0 s
  | .badTlp => logCorrectable (linkFunction s) 6 s
  | .badDllp => logCorrectable (linkFunction s) 7 s
  | .replayRollover => logCorrectable (linkFunction s) 8 s
  | .replayTimeout => logCorrectable (linkFunction s) 12 s
  | .correctedInternal => logCorrectable pf 14 s
  | .headerOverflow => logCorrectable fn 15 s
  | .dataLinkProtocol => logNonFatal (linkFunction s) 4 s
  | .flowControlProtocol => logNonFatal (linkFunction s) 13 s
  | .receiverOverflow => logNonFatal (linkFunction s) 17 s
  | .malformedTlp => logNonFatal (linkFunction s) 18 s
  | .internal => evHep 5 (logNonFatal pf 22 s)

/-- A memory request that arrives whole (R217): to a member, or to a function of this device. -/
def takeMemRequest (r : MemReq) (s : State) : State :=
  match r.target with
  | .member k =>
    if r.unsupported then portRefuses k r.tag false s
    else if portPresent s k && portAsleep s k then asleepRefuses k r.tag r.write s
    else toMember k r.tag r.write
      (if r.write then .memWrite pf r.offset r.data false r.poisoned r.tag else .memRead pf r.offset r.len r.tag) s
  | .portBar _ => if (getFn s 8191).d3hot then asleepRefuses 0 r.tag r.write s else memOp r s
  | _ => if portAsleep s s.ident.cid then asleepRefuses s.ident.cid r.tag r.write s else memOp r s

/-- Whether an error lies inside the device, and not on its host link or in a request. -/
def internalError (e : LinkError) : Bool := e = .correctedInternal || e = .internal

/-- MEMORY_REQUEST (R217, R222). -/
def execMemoryRequest (r : MemReq) (s : State) : Result :=
  let heard := s.hep.linkUp && decide (s.ident.role ≠ .member)
  if !isRunning s then .next s
  else match r.error with
    | some e => .next (if heard || internalError e then logLinkError e (memFn r.target) s else s)
    | none => .next (if heard then takeMemRequest r s else s)

/-- The end of a read goes to the operation that asked for it (R223). -/
def deliver (purpose : ReadFor) (r : ReadReply) (s : State) : State :=
  match purpose with
  | .descriptor qp idx => descriptorBack qp idx r s
  | .jobData qp idx =>
    match (getQueue s qp).kind with
    | .tx => txBack qp idx r s
    | .stor => storBack qp idx r s
    | .admin => adminBack (decide (qp = svcRingQp)) idx r s
    | .rx => s
  | .barrier qp idx => barrierBack qp idx (match r with | .failed st => some st | _ => none) s
  | .burst ch => finishBurst ch r s
  | .load ch => finishLoad ch r s
  | .fence ch => finishFence ch r s
  | .attest ch => attestBack ch r s

/-- The functions under an FLR that waits for a tag note when it came back, and whether it timed out (HEP_LAST_FLR.TIMED_OUT, R228). -/
def noteFlrTag (timedOut : Bool) (tag : Nat) (s : State) : State :=
  let fns := (s.hep.fns.filter (fun e => e.2.flrFrom.isSome && (flrTags s e.1).contains tag)).map Prod.fst
  forEach (fun fn s => let f := getFn s fn; setFn fn { f with flrTagAt := s.now, flrTimedOut := f.flrTimedOut || timedOut } s) fns s

/-- The state with a tag released. -/
def releaseTag (tag : Nat) (s : State) : State :=
  let s1 := noteFlrTag false tag s
  { s1 with hep := { s1.hep with tags := merase s1.hep.tags tag } }

/-- A completion that answers nothing outstanding (R222). -/
def unexpectedCompletion (fn : Nat) (s : State) : State := logAdvisory fn 16 s

/-- Bytes of a successful completion join the read. The last of those that its requests have asked for lets its next request leave, or
ends it (R204). -/
def takeData (tag : Nat) (e : TagEntry) (bs : Bytes) (s : State) : State :=
  let got := e.got ++ bs
  let keep := fun (e : TagEntry) (s : State) => { s with hep := { s.hep with tags := minsert s.hep.tags tag e } }
  if got.length < e.upTo then keep { e with got := got } s
  else match e.rest with
    | p :: rest => sendRequest e.fn tag p (keep { e with got := got, upTo := e.upTo + p.2, rest := rest, issued := s.now } s)
    | [] => deliver e.purpose (.got (slice got 0 e.len)) (releaseTag tag s)

/-- A completion for a read whose operation is gone is discarded (R224–R226): the tag is free once nothing more can arrive for it. -/
def lateData (tag : Nat) (e : TagEntry) (r : ReadOutcome) (s : State) : State :=
  let s1 := incr cHEP_LATE_CPL s
  match r with
  | .data bs =>
    if e.got.length + bs.length < e.upTo then
      { s1 with hep := { s1.hep with tags := minsert s1.hep.tags tag { e with got := e.got ++ bs } } }
    else releaseTag tag s1
  | _ => releaseTag tag s1

/-- A completion for a read of this device (R222–R224). -/
def completionIn (fn tag : Nat) (r : ReadOutcome) (s : State) : State :=
  retryFlushes <| match mfind s.hep.tags tag with
  | none => unexpectedCompletion fn s
  | some e =>
    if e.fn ≠ fn then unexpectedCompletion fn s
    else if e.abandoned || e.quarantined then lateData tag e r s
    else match r with
      | .pending => s
      | .data bs => takeData tag e bs s
      | .ur => deliver e.purpose (.failed .xlateFault) (releaseTag tag s)
      | .ca => deliver e.purpose (.failed .xlateFault) (releaseTag tag s)
      | .poisoned => deliver e.purpose (.failed .malformed) (releaseTag tag (logPoisoned fn s))

/-- Key of a member's read at the head. -/
def memberReadKey (member tag : Nat) : Nat := 2 ^ 20 * (member + 1) + tag

/-- The completion as a TLP to the member. -/
def completionTlp (fn tag : Nat) : ReadOutcome → Option Tlp
  | .data bs => some (.cpl fn tag .success false bs)
  | .ur => some (.cpl fn tag .unsupported false [])
  | .ca => some (.cpl fn tag .abort false [])
  | .poisoned => some (.cpl fn tag .success true [])
  | .pending => none

/-- A completion that the host sends for a read of a member (R232, R233): passed on, or discarded when the member is lost. -/
def memberCompletion (member fn tag : Nat) (r : ReadOutcome) (s : State) : State :=
  let key := memberReadKey member tag
  match mfind s.hep.memberReads key, completionTlp fn tag r with
  | none, _ => unexpectedCompletion 8191 s
  | some _, none => s
  | some owed, some t =>
    let got := match r with | .data bs => bs.length | _ => owed
    let s1 := { s with hep := { s.hep with
      memberReads := (if owed ≤ got then merase s.hep.memberReads key else minsert s.hep.memberReads key (owed - got)) } }
    if portPresent s member then sendTlp member (tlpBytes t) s1
    else incr cHEP_LATE_CPL { s1 with hep := { s1.hep with memberReads := merase s1.hep.memberReads key } }

/-- READ_COMPLETION_RX (R223). On a head a requester number of 65,536 or more names a member: member k's function is
65,536 × (k + 1) + function. -/
def execReadCompletionRx (fn tag : Nat) (r : ReadOutcome) (s : State) : Result :=
  if !s.hep.linkUp || r = .pending then .next s
  else if fn < 65536 then .next (completionIn fn tag r s)
  else .next (memberCompletion (fn / 65536 - 1) (fn % 65536) tag r s)

/-- Whether a read waits, unissued, among what its function holds (R218). -/
def readHeld (s : State) (tag : Nat) : Bool :=
  s.hep.fns.any (fun e => e.2.held.any (fun h => match h with | .read _ _ t => decide (t = tag) | _ => false))

/-- COMPLETION_TIMEOUT (R224): the operation ends with TIMEOUT, and the tag is quarantined. -/
def execCompletionTimeout (tag : Nat) (s : State) : Result :=
  match mfind s.hep.tags tag with
  | none => .next s
  | some e =>
    match e.timeout with
    | none => .next s
    | some t =>
      if e.quarantined || readHeld s tag then .next s
      else
        let s2 := timeOutTag tag e.fn (noteFlrTag true tag (reachTime (e.issued + t) s))
        .next (retryFlushes (if e.abandoned then s2 else deliver e.purpose (.failed .timeout) s2))

/-- Where an address of the host bus falls among the BARs that a member's host has set (R210). -/
def decodeBar (s : State) (a : Nat) : Option (MemTarget × Nat) :=
  let base := fun (n : Nat) => (join64 (getCfg s pf (n + 1)) (getCfg s pf n)).toNat
  let inside := fun (b size : Nat) => decide (b ≤ a) && decide (a < b + size)
  if inside (base 4) 0x4000000 then some (.bar0, a - base 4)
  else if inside (base 6) 0x10000000 then some (.bar2, a - base 6)
  else if inside (base 8) 0x100000 then some (.bar4, a - base 8)
  else if inside (base 101) (0x80000 * vfsInEffect s) then some (.vfBar0 ((a - base 101) / 0x80000), (a - base 101) % 0x80000)
  else none

/-- A memory request of the host that reaches a member as a TLP frame. -/
def memberMemory (a len : Nat) (write : Bool) (bs : Bytes) (poisoned : Bool) (tag : Nat) (s : State) : State :=
  match decodeBar s a with
  | some (t, o) =>
    memOp { target := t, offset := o, len := len, write := write, data := bs, poisoned := poisoned, unsupported := false, tag := tag } s
  | none => if s.cas.fnHeld then s else refuseRequest (some pf) (if write then none else some tag) s

/-- The function that a TLP names to a member. -/
def cfgTargetOf (fn : Nat) : CfgTarget := if fn = pf then .pf else .vf fn

/-- How the host ended a read, from its completion. -/
def outcomeOf (st : CplStatus) (poisoned : Bool) (bs : Bytes) : ReadOutcome :=
  match st with
  | .success => if poisoned then .poisoned else .data bs
  | .unsupported => .ur
  | .retry => .ur
  | .abort => .ca

/-- A TLP that the head has sent to this member (R370). Functions that the head holds in reset answer nothing (R231). -/
def tlpAtMember (t : Tlp) (s : State) : State :=
  match t with
  | .memRead _ a len tag => memberMemory a len false [] false tag s
  | .memWrite _ a bs _ ep tag => memberMemory a bs.length true bs ep tag s
  | .cfg fn reg w be data tag =>
    if s.cas.fnHeld then s
    else
      let (st, bs, s1) := configOp (cfgTargetOf fn) false w reg (BitVec.ofNat 4 be) (BitVec.ofNat 32 data) s
      hostOut (.completion tag st bs) s1
  | .cpl fn tag st ep bs => completionIn fn tag (outcomeOf st ep bs) s
  | .msg _ code _ => if code = 5 then memberHostReset s else s
  | .other fn tag => refuseRequest (some fn) (some tag) s

/-- A TLP that a member has sent to this head (R232, R370). -/
def tlpAtHead (member : Nat) (t : Tlp) (bytes : Bytes) (s : State) : State :=
  match t with
  | .cpl _ tag st _ bs =>
    if mfind s.cas.hostReqs tag = some member then
      emit (.completion tag st bs) { s with cas := { s.cas with hostReqs := merase s.cas.hostReqs tag } }
    else s
  | .memRead fn _ len tag =>
    if portAsleep s member then sendTlp member (tlpBytes (.cpl fn tag .unsupported false [])) (logUr (8192 + member) s)
    else
    let key := memberReadKey member tag
    let owed := (mfind s.hep.memberReads key).getD 0 + len
    emit (.tlpUp member bytes) { s with hep := { s.hep with memberReads := minsert s.hep.memberReads key owed } }
  | .memWrite _ _ _ _ _ _ => if portAsleep s member then logUr (8192 + member) s else emit (.tlpUp member bytes) s
  | .msg _ _ _ => emit (.tlpUp member bytes) s
  | .cfg _ _ _ _ _ _ => s
  | .other _ _ => s

/-- A TLP that has arrived at its device. -/
def tlpHere (src : Nat) (payload : Bytes) (s : State) : State :=
  match parseTlp payload with
  | none => s
  | some t =>
    match s.ident.role with
    | .member => tlpAtMember t s
    | .head => tlpAtHead src t payload s
    | .standalone => s

/-- The member at either end of a TLP or SLOT path: FLOW_HASH of the path (R370). -/
def memberEnd (s : State) (src dst : Nat) : Nat := if headCid s = some dst then src else dst

/-- TLP_FRAME_RX (R370). -/
def execTlpFrameRx (g : Nat) (frame : Bytes) (s : State) : Result :=
  .next (withMarkers (fun s =>
    match receiveLink g 2 frame s with
    | (none, s1) => s1
    | (some r, s1) =>
      if isOwnCid s1 r.dst then tlpHere r.src r.payload s1
      else forwardTlp { type := 2, dst := r.dst, src := r.src, local_ := false, payload := r.payload } (memberEnd s1 r.src r.dst) s1) s)

/-- A SLOT byte that the head has sent to this member (R231, R375). RESET_REQ is a FULL reset (R450). -/
def slotAtMember (v : Nat) (s : State) : State :=
  let s1 := holdFunctions (nbit v 4) { s with cas := { s.cas with attnInd := v % 4, pwrInd := v / 4 % 4 } }
  if nbit v 5 then fullReset 5 s1 else s1

/-- ATTN of a member at the head: Attention Button Pressed, and CAS_EVENT.REMOVE_REQ. -/
def slotAtHead (member v : Nat) (s : State) : State :=
  if nbit v 0 then evCas 8 (setVsw member { getVsw s member with attnPressed := true } [0] s) else s

/-- SLOT_FRAME_RX (R375). -/
def execSlotFrameRx (g : Nat) (frame : Bytes) (s : State) : Result :=
  .next (withMarkers (fun s =>
    match receiveLink g 5 frame s with
    | (none, s1) => s1
    | (some r, s1) =>
      let v := byteAt r.payload 0
      if isOwnCid s1 r.dst then
        match s1.ident.role with
        | .member => slotAtMember v s1
        | .head => slotAtHead r.src v s1
        | .standalone => s1
      else sendSlot r.dst r.src v (memberEnd s1 r.src r.dst) s1) s)

end Sys2Proof.Machine
end

