-- ==== Sys2Proof/Machine/Image.lean ====
section
/-! DEFINITION. The records of the Maevo image and what each of them sets (R434, R435, R438–R440, R459, R543). -/

namespace Sys2Proof.Machine

/-- A record: its KEY and its VALUE (R434). -/
structure ImgRecord where
  key : Nat
  value : Bytes
deriving DecidableEq, Repr

/-- The records of a section, and whether the section ends at the end of a record (R434). -/
def recordsOf : Nat → Bytes → List ImgRecord × Bool
  | _, [] => ([], true)
  | 0, _ => ([], false)
  | fuel + 1, bs =>
    let len := leAt bs 2 2
    if bs.length < 4 + len then ([], false)
    else
      let r := recordsOf fuel (bs.drop (4 + ceilDiv len 4 * 4))
      ({ key := leAt bs 0 2, value := slice bs 4 len } :: r.1, r.2)

/-- What applying a record gives: the next state, or the REASON that PCR_IMG_FAIL shows (R442). -/
abbrev RecordOut := Except Nat State

/-- A setting that is made when its record passes its check; REASON 6 otherwise. -/
def checked (ok : Bool) (s : State) : RecordOut := if ok then .ok s else .error 6

/-- A table write as a record makes it: each record is checked as its block checks the same write (R440). -/
def okWrite (r : TableReply × State) : RecordOut := if r.1.code = 0 then .ok r.2 else .error 6

/-- Records applied in order, up to the first that fails (R434, R442). -/
def applyRecords (f : ImgRecord → State → RecordOut) (sect : Nat) : Nat → List ImgRecord → State → Option ImgFault × State
  | _, [], s => (none, s)
  | k, r :: rs, s =>
    match f r s with
    | .ok s1 => applyRecords f sect (k + 1) rs s1
    | .error e => (some { sect := sect, reason := e, record := k }, s)

/-- A section of the running image by type; in Refuge mode only one marked REFUGE (R433, R440). -/
def imageSection (s : State) (type : Nat) : Option Section :=
  (directoryOf (bankBytes s s.img.runB)).find? (fun e => decide (e.type = type) && (!s.pcr.refuge || nbit e.flags 0))

/-- A section of the running image is applied. One that does not end with a record fails at the place behind its last one. -/
def applySection (type : Nat) (f : ImgRecord → State → RecordOut) (s : State) : Option ImgFault × State :=
  match imageSection s type with
  | none => (none, s)
  | some e =>
    let r := recordsOf (e.length / 4 + 1) (bankBytes s s.img.runB e.offset e.length)
    match applyRecords f type 0 r.1 s with
    | (some x, s1) => (some x, s1)
    | (none, s1) => (if r.2 then none else some { sect := type, reason := 6, record := r.1.length }, s1)

/-- Sections applied one after the other, up to a failure (R440). -/
def applySections : List (Nat × (ImgRecord → State → RecordOut)) → State → Option ImgFault × State
  | [], s => (none, s)
  | (t, f) :: l, s =>
    match applySection t f s with
    | (none, s1) => applySections l s1
    | (some x, s1) => (some x, s1)

/-- Bytes that the pools of one placement hold (R292). -/
def poolArea (s : State) (hbm : Bool) : Nat :=
  ((s.pool.pools.filter (fun e => e.2.hbm = hbm)).map (fun e => e.2.count * poolBytes e.2.size)).sum

/-- Whether the regions of HBM fit into 48 GiB, and the pools into their areas (R292, R468). -/
def memoryFits (s : State) : Bool :=
  let gib := 11 + regFld s rSWC_SPILL_CFG 0 6 + regFld s rSTR_STAGE_CFG 0 4
  decide (gib * 1024 + regFld s rDMA_DEVBUF_CFG 0 13 + s.mem.svcMib + ceilDiv (poolArea s true) 1048576 ≤ 49152)
    && decide (poolArea s true ≤ 1024 * 1048576) && decide (poolArea s false ≤ 16 * 1048576)

/-- A record of the IDENTITY section. In Refuge mode neither the PF record nor the HBM regions are in use (R459, R460). -/
def applyIdentity (r : ImgRecord) (s : State) : RecordOut :=
  let v := r.value
  match r.key with
  | 0x0101 =>
    let role := match byteAt v 0 with | 0 => Role.standalone | 1 => .head | _ => .member
    let peers := (List.range 4).filterMap (fun g => if byteAt v (4 + g) = 0xFF then none else some (g, byteAt v (4 + g)))
    let ok := v.length = 16 && decide (byteAt v 0 ≤ 2) && decide (byteAt v 1 < 64) && decide (1 ≤ byteAt v 2) && decide (byteAt v 2 ≤ 64)
      && decide (byteAt v 3 ≤ 2) && peers.all (fun e => decide (e.2 < 64))
    let id : Ident := { role := role, cid := byteAt v 1, devices := byteAt v 2, topology := byteAt v 3, peers := peers,
                        tag := BitVec.ofNat 64 (leAt v 8 8) }
    checked ok { s with ident := id }
  | 0x0102 =>
    let q := parseRecord v
    let ok := v.length = 64 && recordInRange v && q.queueBase = 0 && decide (q.storqBase + q.storqCount ≤ 4096)
      && (q.queueCount = 0 || decide (q.spreadBase + 2 ^ q.spreadLog2 ≤ q.queueCount))
    if s.pcr.refuge then .ok s else checked ok { s with vfm := { s.vfm with pfImage := q } }
  | 0x0103 =>
    let stage := byteAt v 1
    let reserve := byteAt v 2
    let devbuf := leAt v 3 2
    let s1 := setRegFld rSWC_SPILL_CFG 0 6 (byteAt v 0) s
    let s2 := setReg rSTR_STAGE_CFG (putFld 0 4 stage ||| putFld 4 4 reserve) s1
    let s3 := setRegFld rDMA_DEVBUF_CFG 0 13 devbuf s2
    let s4 := { s3 with mem := { s3.mem with svcMib := leAt v 5 2 } }
    let ok := v.length = 7 && decide (byteAt v 0 ≤ 32) && decide (1 ≤ stage) && decide (stage ≤ 8) && decide (reserve ≤ 4)
      && decide (reserve < stage) && decide (devbuf ≤ 4096) && memoryFits s4
    if s.pcr.refuge then .ok s else checked ok s4
  | _ => .error 6

/-- Lane-group mode by its number (R304, ETH_GRP_STATUS). -/
def groupModeOf : Nat → GroupMode
  | 0 => .one400
  | 1 => .two200
  | 2 => .four100
  | _ => .down

/-- A loop is configured (R324, R435): its port runs unless its role is disabled, and listens from now on (R344). WAKE_ON_EMERG is
what record 0x0501 gives (log entry). -/
def configureLoop (lp : Nat) (v : Bytes) (s : State) : State :=
  let wake := regFld s (rLOOP_CFG lp) 22 1
  let cfg := putFld 0 2 (byteAt v 1) ||| putFld 2 2 (byteAt v 2) ||| putFld 4 10 (leAt v 3 2) ||| putFld 14 8 (byteAt v 5) ||| putFld 22 1 wake
  let s1 := setReg (rLOOP_CFG lp) cfg s
  let s2 := setReg (rLOOP_BUDGET lp) (putFld 0 16 (leAt v 6 2) ||| putFld 16 16 (leAt v 8 2)) s1
  let s3 := setReg (rLOOP_CABLE lp) (putFld 0 20 (leAt v 10 3)) s2
  let s4 := setReg (rLOOP_MATCH0 lp) (putFld 0 10 (leAt v 13 2) ||| putBit 31 true) s3
  setLoop lp { getLoop s4 lp with on := decide (byteAt v 1 ≠ 3), slot := leAt v 15 2, listenFrom := s4.now } s4

/-- A record of the PORTS section. In Refuge mode E0 and the loops alone are configured (R459). -/
def applyPorts (r : ImgRecord) (s : State) : RecordOut :=
  let v := r.value
  let n := byteAt v 0
  match r.key with
  | 0x0201 =>
    if s.pcr.refuge && n ≠ 0 then .ok s
    else checked (v.length = 2 && decide (n < 4) && decide (byteAt v 1 < 3)) (setLaneGroup n { laneGroup s n with imageMode := groupModeOf (byteAt v 1) } s)
  | 0x0202 =>
    let mtu := leAt v 1 2
    let alt := byteAt v 6
    let ok := v.length = 7 && decide (n < 16) && decide (1280 ≤ mtu) && decide (mtu ≤ 9216) && decide (byteAt v 3 ≤ 1)
      && decide (byteAt v 4 < 8) && decide (byteAt v 5 ≤ 5) && (alt = 0xFF || (decide (alt < 16) && decide (alt / 4 ≠ n / 4)))
    let pfc := setFld (getReg s (rETH_PFC_CFG n)) 0 7 (byteAt v 3 + 2 * byteAt v 4 + 16 * byteAt v 5)
    let s1 := setReg (rETH_PFC_CFG n) pfc (setRegFld (rETH_MTU n) 0 14 mtu s)
    let s2 := setPort n { getPort s1 n with alt := if alt = 0xFF then none else some alt } s1
    if s.pcr.refuge && n ≠ 0 then .ok s else checked ok s2
  | 0x0203 =>
    let st : Station := { mac := BitVec.ofNat 48 (leAt v 2 6), valid := true }
    let p := getPort s n
    let s1 := setPort n { p with stations := mset (fun _ => Station.empty) p.stations (byteAt v 1) st } s
    if s.pcr.refuge && n ≠ 0 then .ok s else checked (v.length = 8 && decide (n < 16) && decide (byteAt v 1 < 4)) s1
  | 0x0204 =>
    let ok := v.length = 17 && decide (n < 4) && decide (byteAt v 1 < 4) && decide (byteAt v 2 < 4) && decide (leAt v 3 2 < 1024)
      && decide (64 ≤ leAt v 6 2) && decide (leAt v 6 2 ≤ 16384) && decide (64 ≤ leAt v 8 2) && decide (leAt v 10 3 < 2 ^ 20)
      && decide (leAt v 13 2 < 1024)
    checked ok (configureLoop n v s)
  | _ => .error 6

/-- Whether a parse node is no reserved encoding (R99). -/
def nodeLegal (d : Bytes) : Bool :=
  (decide (nodeLayer d < 15) || nodeLayer d = 0xFF) && decide (byteAt d 1 < 32) && decide (byteAt d 3 < 16) && decide (leAt d 4 2 < 2 ^ 13)
    && decide (leAt d 8 2 < 2 ^ 13) && (decide (leAt d 10 2 < 256) || leAt d 10 2 = 0xFFFF)
    && (decide (nodeProfile d < 63) || nodeProfile d = 0xFF) && zeroAt d 14 2
    && (nodeTransitions d).all (fun t => decide (t.2.2 < 256) || t.2.2 = 0xFFFF)

/-- The extracts of a profile record from byte `o` on (record 0x0303). -/
def extractsAt (v : Bytes) : Nat → Nat → List Extract
  | 0, _ => []
  | n + 1, o =>
    { layer := byteAt v o, off := byteAt v (o + 1), len := byteAt v (o + 2), ternary := decide (byteAt v (o + 3) = 1) } :: extractsAt v n (o + 4)

/-- Whether the extracts fit the keys (R104). -/
def extractsFit (es : List Extract) : Bool :=
  decide (((es.filter (fun e => !e.ternary)).map (fun e => e.len)).sum ≤ 30) && decide (((es.filter (fun e => e.ternary)).map (fun e => e.len)).sum ≤ 72)

/-- A pool as its record sets it (R292): every buffer is free. -/
def poolOf (v : Bytes) : Pool :=
  { Pool.none_ with size := byteAt v 1, hbm := decide (byteAt v 2 = 1), fallback := byteAt v 3, noFallback := decide (byteAt v 4 = 1),
                    use := BitVec.ofNat 4 (byteAt v 5), count := leAt v 6 3, lsMin := leAt v 9 2, coreMin := leAt v 11 2, svcMin := leAt v 13 2 }

/-- A record of the FABRIC section. In Refuge mode its on-die pool records alone apply (R434, R459). -/
def applyFabric (r : ImgRecord) (s : State) : RecordOut :=
  let v := r.value
  let n := byteAt v 0
  if s.pcr.refuge && (r.key ≠ 0x0305 || byteAt v 2 ≠ 0) then .ok s
  else match r.key with
  | 0x0301 =>
    checked (v.length = 65 && nodeLegal (v.drop 1)) { s with flp := { s.flp with nodes := minsert s.flp.nodes n (slice v 1 64) } }
  | 0x0302 =>
    checked (v.length = 2 && (decide (n < 25) || n = 0xFE || n = 0xFF))
      { s with flp := { s.flp with starts := mset (fun _ => 0) s.flp.starts n (byteAt v 1) } }
  | 0x0303 =>
    let es := extractsAt v (byteAt v 1) 2
    let ok := v.length = 2 + 4 * byteAt v 1 && decide (n < 64) && es.all (fun e => decide (e.layer < 16) && decide (1 ≤ e.len) && decide (e.len ≤ 16)) && extractsFit es
      && (List.range (byteAt v 1)).all (fun k => decide (byteAt v (5 + 4 * k) ≤ 1))
    checked ok { s with flp := { s.flp with profiles := minsert s.flp.profiles n es } }
  | 0x0304 =>
    checked (v.length = 33 && decide (n < 64) && resLegal false (slice v 1 32))
      { s with flp := { s.flp with defaults := minsert s.flp.defaults n (slice v 1 32) } }
  | 0x0305 =>
    let s1 := setPool n (poolOf v) s
    let ok := v.length = 15 && decide (n < 16) && decide (byteAt v 1 < 8) && decide (byteAt v 2 ≤ 1) && decide (byteAt v 3 < 16)
      && decide (byteAt v 4 ≤ 1) && decide (byteAt v 5 < 16) && memoryFits s1
    checked ok s1
  | 0x0306 =>
    let q := leAt v 2 2
    let s1 := setRegFld rTMG_DWRR_CFG 0 16 q (setRegFld rSWC_BUF_CFG 0 16 (leAt v 0 2) s)
    checked (v.length = 8 && decide (leAt v 0 2 ≤ 8192) && decide (256 ≤ q) && decide (q ≤ 16384))
      (setReg rFLP_TUN_PORTS (putFld 0 16 (leAt v 4 2) ||| putFld 16 16 (leAt v 6 2)) s1)
  | _ => .error 6

/-- The members of a group record from byte `o` on, block by block, into the shadow list (R118). -/
def writeMembers (g : Nat) (v : Bytes) : Nat → State → RecordOut
  | 0, s => .ok s
  | k + 1, s =>
    match writeMembers g v k s with
    | .error e => .error e
    | .ok s1 => okWrite (writeBlock true (32 * g + k) (slice v (256 * k) 256) s1)

/-- A multicast group of the protected region: its port set, its members, and the commit (R90, R117, R118). -/
def configureGroup (g ports count : Nat) (members : Bytes) (s : State) : RecordOut :=
  match okWrite (swcTable true .write 0 g (toLe 4 ports) s) with
  | .error e => .error e
  | .ok s1 =>
    match writeMembers g members (ceilDiv count 32) s1 with
    | .error e => .error e
    | .ok s2 => okWrite (commitGroup true g (toLe 4 count) s2)

/-- The context that a record 0x0406 gives an LS queue pair (R542). -/
def lsQueueOf (v : Bytes) : Queue :=
  let kind := match byteAt v 4 with | 0 => QueueType.tx | 1 => .rx | _ => .stor
  { Queue.init with state := .run, kind := kind, inst := leAt v 2 2, sqLog2 := byteAt v 5, cqLog2 := byteAt v 6, vector := leAt v 7 2,
                    sqBase := leAt v 9 8, cqBase := leAt v 17 8, modCount := 1, modUs := 0, tstamp := false, ls := true, armed := true }

/-- An LS queue pair is set up (R250, R542). -/
def configureLsQueue (v : Bytes) (s : State) : RecordOut :=
  let qp := leAt v 0 2
  let q := lsQueueOf v
  let ok := v.length = 25 && qp ≠ 0 && (mfind s.wqm.lsImage qp).isNone && decide (q.inst ≤ pf)
    && (q.inst = pf || decide (s.vfm.pfImage.queueBase + s.vfm.pfImage.queueCount ≤ qp)) && decide (byteAt v 4 ≤ 2)
    && decide (4 ≤ q.sqLog2) && decide (q.sqLog2 ≤ 16) && decide (q.sqLog2 ≤ q.cqLog2) && decide (q.cqLog2 ≤ 16)
    && decide (q.vector < vectorsOf q.inst) && decide (q.sqBase % min 4096 (64 * 2 ^ q.sqLog2) = 0)
    && decide (q.cqBase % min 4096 (16 * 2 ^ q.cqLog2) = 0)
  checked ok (setQueue qp q { s with wqm := { s.wqm with lsImage := minsert s.wqm.lsImage qp q } })

/-- Entries of 18 bytes, an index and 16 bytes of a table of STR, written one after the other. -/
def writeStrEntries (table : Nat) (v : Bytes) : Nat → State → RecordOut
  | 0, s => .ok s
  | k + 1, s =>
    match writeStrEntries table v k s with
    | .error e => .error e
    | .ok s1 => okWrite (strWrite true table (leAt v (18 * k) 2) (slice v (18 * k + 2) 16) s1)

/-- The map entries of a run of extents: mapped in order to the extents of a target through a binding (R180). -/
def mapRun (first target bind : Nat) : Nat → State → State
  | 0, s => s
  | n + 1, s =>
    let e := toLe 8 (1 + 16 * bind + 65536 * (target + n))
    mapRun first target bind n { s with str := { s.str with map := mset (fun _ => List.replicate 8 0) s.str.map (first + n) e } }

/-- The map runs of a recorder record, 13 bytes each: first extent, count, first target extent. -/
def mapRuns (bind : Nat) (v : Bytes) : Nat → State → RecordOut
  | 0, s => .ok s
  | k + 1, s =>
    match mapRuns bind v k s with
    | .error e => .error e
    | .ok s1 =>
      let first := leAt v (13 * k) 4
      let count := leAt v (13 * k + 4) 4
      let s2 := { s1 with str := { s1.str with protExtents := s1.str.protExtents ++ [(first, count)] } }
      checked (decide (first + count ≤ 2 ^ 30) && decide (leAt v (13 * k + 8) 5 + count ≤ 2 ^ 40)) (mapRun first (leAt v (13 * k + 8) 5) bind count s2)

/-- A recorder record (0x0408): the connect block of the recorder's next connection, then the numbers of bindings, of namespace entries
and of map runs, one byte each, and these themselves (log entry). -/
def configureRecorder (v : Bytes) (s : State) : RecordOut :=
  let nb := byteAt v 1088
  let nn := byteAt v 1089
  let nr := byteAt v 1090
  let b := slice v 1091 (18 * nb)
  let n := (s.str.conns.filter (fun e => e.2.recorder)).length
  if v.length ≠ 1091 + 18 * nb + 18 * nn + 13 * nr || !connectOk v || 1024 ≤ n then .error 6
  else
    let f := takeFree s
    let s1 := setConn n { connectConn v f.1 with recorder := true } f.2
    let own := (List.range nb).map (fun k => leAt b (18 * k) 2)
    let s2 := { s1 with str := { s1.str with protBindings := s1.str.protBindings ++ own } }
    match writeStrEntries 2 b nb s2 with
    | .error e => .error e
    | .ok s3 =>
      match writeStrEntries 1 (slice v (1091 + 18 * nb) (18 * nn)) nn s3 with
      | .error e => .error e
      | .ok s4 => mapRuns (leAt b 0 2) (slice v (1091 + 18 * nb + 18 * nn) (13 * nr)) nr s4

/-- A play channel (R197, record 0x040A). -/
def configurePlay (v : Bytes) (s : State) : RecordOut :=
  let c := { PlayChannel.init with output := byteAt v 1, loopMask := byteAt v 2, loopCh := byteAt v 3, autoMsg := leAt v 4 2,
                                   autoDelay := leAt v 6 2, template := byteAt v 8, short := decide (byteAt v 9 = 1), l16 := decide (byteAt v 10 = 1) }
  let ok := v.length = 11 && decide (byteAt v 0 < 32) && decide (c.output ≤ 2) && decide (c.loopMask < 16) && decide (c.loopCh < 32)
    && (c.autoMsg = 0xFFFF || decide (c.autoMsg < 256)) && decide (c.template < 32) && decide (byteAt v 9 ≤ 1) && decide (byteAt v 10 ≤ 1)
  checked ok (setPc (byteAt v 0) c s)

/-- A record of the LSPATH section. In Refuge mode the loop outputs of the player alone are configured (R459). -/
def applyLspath (r : ImgRecord) (s : State) : RecordOut :=
  let v := r.value
  if s.pcr.refuge && (r.key ≠ 0x040A || byteAt v 1 ≠ 1) then .ok s
  else match r.key with
  | 0x0401 => if v.length = 64 && resLs (slice v 32 32) && resValid (slice v 32 32) then okWrite (flpInsertEntry true v s) else .error 6
  | 0x0402 => if v.length = 194 && leAt v 0 2 < 1024 then okWrite (flpWrite true 2 (leAt v 0 2) (v.drop 2) s) else .error 6
  | 0x0403 => if v.length = 66 && leAt v 0 2 < 8192 then okWrite (flpWrite true 4 (leAt v 0 2) (v.drop 2) s) else .error 6
  | 0x0404 =>
    if v.length = 8 + 8 * leAt v 6 2 && leAt v 0 2 < 1024 then configureGroup (leAt v 0 2) (leAt v 2 4) (leAt v 6 2) (v.drop 8) s else .error 6
  | 0x0405 => if v.length = 18 && leAt v 0 2 < 1024 then okWrite (tmgTable true .write 0 (leAt v 0 2) (slice v 2 32) s) else .error 6
  | 0x0406 => configureLsQueue v s
  | 0x0407 => if v.length = 34 && leAt v 0 2 < 1024 then okWrite (strWrite true 4 (leAt v 0 2) (v.drop 2) s) else .error 6
  | 0x0408 => configureRecorder v s
  | 0x0409 =>
    let first := leAt v 0 4
    let count := leAt v 4 4
    let s1 := setReg rSTR_JNL_CFG (putFld 0 1 (byteAt v 8) ||| putFld 8 8 (byteAt v 9)) s
    let s2 := setReg rSTR_JNL_EXTENTS (putFld 0 31 count) (setReg rSTR_JNL_BASE (putFld 0 30 first) s1)
    checked (v.length = 10 && decide (first < 2 ^ 30) && decide (first + count ≤ 2 ^ 30) && decide (byteAt v 8 ≤ 1) && decide (1 ≤ byteAt v 9)
      && decide (byteAt v 9 ≤ 100)) { s2 with str := { s2.str with protExtents := s2.str.protExtents ++ [(first, count)] } }
  | 0x040A => configurePlay v s
  | 0x040B =>
    let n := byteAt v 1
    let t : PlayTemplate := { header := slice v 2 n, tunnel := leAt v (2 + n) 4 }
    checked (v.length = 6 + n && decide (byteAt v 0 < 32) && (t.tunnel = 0xFFFFFFFF || decide (t.tunnel < 1048576)))
      { s with str := { s.str with templates := minsert s.str.templates (byteAt v 0) t } }
  | _ => .error 6

/-- Whether a slot that a role names holds no key, or one of the PROTO of the role (R543). -/
def roleFits (s : State) (slot proto : Nat) : Bool :=
  decide (slot < 1024) && (match getSlot s slot with | some k => decide (k.proto = proto) | none => true)

/-- Whether a slot of PROTO 5 fits the recorder's role or the chain's, which only INTEGRITY_ONLY tells apart (R190, R543). -/
def journalFits (s : State) (slot : Nat) (chain : Bool) : Bool :=
  roleFits s slot 5 && (match getSlot s slot with | some k => k.integrity = chain | none => true)

/-- The slot roles of record 0x0504. -/
def rolesOf (v : Bytes) : SlotRoles :=
  { emergency := leAt v 0 2, management := leAt v 2 2, cascade := leAt v 4 2, attestation := leAt v 6 2, recorder := leAt v 8 2,
    chain := leAt v 10 2, transport := leAt v 12 2 }

/-- Whether every role's slot fits (R543). -/
def rolesFit (s : State) (x : SlotRoles) : Bool :=
  roleFits s x.emergency 7 && roleFits s x.management 7 && roleFits s x.cascade 10 && roleFits s x.attestation 11
    && journalFits s x.recorder false && journalFits s x.chain true && roleFits s x.transport 8

/-- WAKE_ON_EMERG of every loop (R349, record 0x0501). -/
def setWakeOnEmerg (on : Nat) (s : State) : State := forEach (fun lp s => setRegFld (rLOOP_CFG lp) 22 1 on s) (List.range 4) s

/-- A record of the POLICY section, which applies whole in Refuge mode too (R459). -/
def applyPolicy (r : ImgRecord) (s : State) : RecordOut :=
  let v := r.value
  let origin := BitVec.ofNat 64 (leAt v 0 8)
  match r.key with
  | 0x0501 =>
    let s1 := { s with alp := { s.alp with faultDeclares := decide (byteAt v 0 = 1), clearFallback := decide (byteAt v 1 = 1), drillShed := byteAt v 2 } }
    let s2 := { s1 with crt := { s1.crt with tamperNEn := decide (byteAt v 3 = 1), coldEn := decide (byteAt v 4 = 1) } }
    checked (v.length = 6 && decide (byteAt v 0 ≤ 1) && decide (byteAt v 1 ≤ 1) && decide (byteAt v 2 ≤ 3) && decide (byteAt v 3 ≤ 1)
      && decide (byteAt v 4 ≤ 1) && decide (byteAt v 5 ≤ 1)) (setWakeOnEmerg (byteAt v 5) s2)
  | 0x0502 =>
    let a := byteAt v 8
    let o : Originator := { origin := origin, mayDeclare := nbit a 0, mayClear := nbit a 1, mayDrill := nbit a 2 }
    let l := s.alp.originators.filter (fun x => decide (x.origin ≠ origin)) ++ [o]
    checked (v.length = 9 && decide (a < 8) && decide (l.length ≤ 256)) { s with alp := { s.alp with originators := l } }
  | 0x0503 =>
    let m := minsert s.crt.mgmtOriginators origin.toNat (byteAt v 8)
    checked (v.length = 9 && decide (byteAt v 8 < 4) && decide (m.length ≤ 64)) { s with crt := { s.crt with mgmtOriginators := m } }
  | 0x0504 =>
    let x := rolesOf v
    checked (v.length = 14 && rolesFit s x) { s with crt := { s.crt with roles := x }, alp := { s.alp with emsgSlot := x.emergency } }
  | 0x0505 =>
    checked (v.length = 4) { s with alp := { s.alp with etype := BitVec.ofNat 16 (leAt v 0 2), udpPort := BitVec.ofNat 16 (leAt v 2 2) } }
  | 0x0506 =>
    let cap := byteAt v 0
    checked (v.length = 4 && decide (cap ≤ 165) && (cap = 165 || decide (byteAt v 1 ≤ cap)))
      (setRegFld rSVC_WDOG 0 16 (leAt v 2 2) { s with pcr := { s.pcr with powerCap := cap } })
  | _ => .error 6

/-- The key data of a record 0x0601 with its secret opened. START_PN stands in no field of the record: it is a free value. -/
def keyRecordData (v pt : Bytes) (free : Nat) : KeyData :=
  let flags := byteAt v 3
  { proto := byteAt v 2, key256 := nbit flags 0, tx := nbit flags 1, ls := true, integrity := nbit flags 6,
    limitLog2 := if byteAt v 4 = 0 then 44 else byteAt v 4, startPn := (Config.freeDWord free).toNat, param := BitVec.ofNat 32 (leAt v 8 4),
    replayWin := leAt v 12 4, secret := pt }

/-- Whether the fields of a key record are valid (R438, and R160 as an install checks them). -/
def keyRecordOk (v pt : Bytes) : Bool :=
  let proto := byteAt v 2
  let flags := byteAt v 3
  let lim := byteAt v 4
  decide (leAt v 0 2 < 1024) && nbit flags 2 && decide (flags &&& 0xB8 = 0) && (lim = 0 || (decide (20 ≤ lim) && decide (lim ≤ 48)))
    && decide (1 ≤ proto) && decide (proto ≤ 11) && !(nbit flags 6 && (proto = 3 || proto = 4)) && zeroAt v 5 3 && (proto = 1 || proto = 4 || decide (leAt v 8 4 = 0))
    && replayWinOk proto (nbit flags 1) (leAt v 12 4) && (nbit flags 0 || zeroAt pt 16 16)

/-- Whether a slot holds the key of a record already (R438). -/
def sameKey (k : KeySlot) (d : KeyData) : Bool :=
  decide (k.key = slice d.secret 0 (if d.key256 then 32 else 16)) && decide (k.salt = slice d.secret 32 12) && decide (k.proto = d.proto)
    && k.key256 = d.key256 && k.tx = d.tx && k.ls = d.ls && k.integrity = d.integrity

/-- A new generation of an LS slot is committed and pinned (R409, R438). -/
def installLsKey (n : Nat) (d : KeyData) (s : State) : State :=
  let gen := slotGeneration s n + 1
  let c := writeCopy n gen d s
  let s1 := incr cCRT_KEY_COMMITS (writeLine n gen c.1 (2 ^ 24) c.2)
  setSlot n { slotOf d gen 0 d.startPn (2 ^ 24) with pinned := true } (uncacheSlot n s1)

/-- A key record (R438): REASON 8 for a failing tag, 6 for a faulty field. -/
def applyKey (r : ImgRecord) (s : State) : RecordOut :=
  let v := r.value
  if r.key ≠ 0x0601 || v.length ≠ 88 then .error 6
  else
    let o := gcmOpen (imgKey s) (slice v 16 12) (slice v 0 16) (slice v 28 44)
    if o.2 ≠ slice v 72 16 then .error 8
    else if !keyRecordOk v o.1 then .error 6
    else
      let n := leAt v 0 2
      let f := takeFree s
      let d := keyRecordData v o.1 f.1
      match getSlot s n with
      | some k => .ok (if sameKey k d then s else installLsKey n d f.2)
      | none => .ok (installLsKey n d f.2)

/-- An LS slot that no record names is retired (R438). -/
def retireLsSlot (n : Nat) (s : State) : State := incr cCRT_KEY_COMMITS (emptySlot n (writeLine n (slotGeneration s n + 1) 0 (2 ^ 24) s))

/-- Slots that the key records of the running image name. -/
def namedSlots (s : State) : List Nat :=
  match imageSection s 6 with
  | none => []
  | some e => (recordsOf (e.length / 4 + 1) (bankBytes s s.img.runB e.offset e.length)).1.map (fun r => leAt r.value 0 2)

/-- LS slots that hold a key which no record names are retired (R438). -/
def retireUnnamed (s : State) : State :=
  let keep := namedSlots s
  forEach (fun e s => if e.1 < 1024 && !keep.contains e.1 then retireLsSlot e.1 s else s) s.cph.slots s

/-- Provisioning (R439): SEED is written, every slot emptied, BOOT_COUNT restarted at 1, the marker cleared. A record that does
not verify fails with REASON 7, and a device that has its SEED ignores the section. -/
def applyProvision (r : ImgRecord) (s : State) : RecordOut :=
  let v := r.value
  let o := gcmOpen (imgKey s) (slice v 8 12) (slice v 0 8) (slice v 20 32)
  if s.crt.seed.isSome then .ok s
  else if r.key ≠ 0x0901 || v.length ≠ 68 || leAt v 0 8 ≠ Config.serial.toNat || o.2 ≠ slice v 52 16 then .error 7
  else
    let crt := { s.crt with seed := some o.1, zeroMarker := false, store := [], bootCount := 1, writeCount := 0, bootCseq := s.crt.bootCseq + 1 }
    .ok (secEvent { s with crt := { crt with sec := if s.crt.degCause = 0 then .operational else .degraded, nonApproved := false } })

/-- A record of the SVCCODE section (R388, R435): the start state of SC0.T0, and code bytes loaded into service memory. -/
def applySvccode (r : ImgRecord) (s : State) : RecordOut :=
  let v := r.value
  match r.key with
  | 0x0701 =>
    let at_ := fun (o : Nat) => BitVec.ofNat 64 (leAt v o 8)
    checked (v.length = 32) { s with svc := { s.svc with entry := at_ 0, supBase := at_ 8, supLimit := at_ 16, supTsb := at_ 24 } }
  | 0x0702 =>
    let a := leAt v 0 8
    let n := v.length - 8
    let base := if s.svc.codeEnd = 0 then a else min s.svc.codeBase a
    let s1 := { s with mem := { s.mem with svc := storeBytes s.mem.svc a (v.drop 8) } }
    checked (decide (8 ≤ v.length) && decide (a + n ≤ svcMemSize s))
      { s1 with svc := { s1.svc with codeBase := base, codeEnd := max s.svc.codeEnd (a + n) } }
  | _ => .error 6

/-- What the spec gives as the image's defaults, before its records apply (R191, R272, R292, R304 and the register tables). -/
def imageDefaults (s : State) : State :=
  let s1 := setRegFld rTMG_DWRR_CFG 0 16 2048 (setRegFld rSWC_BUF_CFG 0 16 512 s)
  let s2 := setReg rSTR_STAGE_CFG (putFld 0 4 4 ||| putFld 4 4 1) (setRegFld rDMA_DEVBUF_CFG 0 13 256 s1)
  let s3 := setReg rSTR_JNL_CFG (putFld 8 8 10) (forEach (fun n s => setRegFld (rETH_MTU n) 0 14 9000 s) (List.range 16) s2)
  let s4 := forEach (fun lp s => setReg (rLOOP_CFG lp) (putFld 0 2 3 ||| putFld 2 2 1) s) (List.range 4) s3
  { s4 with alp := { s4.alp with etype := 0x88B5, udpPort := 0 } }

/-- The pools of the image defaults (R292): SIZE code, count, placement, use, fallback. -/
def defaultPools : List (Nat × Nat × Nat × Bool × Nat × Option Nat) :=
  [(0, 1, 8192, false, 9, some 1), (1, 2, 4096, false, 9, some 2), (2, 3, 2048, false, 9, some 3), (3, 4, 1024, false, 9, some 4),
   (4, 5, 512, false, 9, some 5), (5, 6, 256, false, 9, some 6), (6, 7, 128, false, 9, some 14)]
  ++ [(8, 1, 65536, true, 6, some 9), (9, 2, 32768, true, 6, some 10), (10, 3, 16384, true, 6, some 11), (11, 4, 16384, true, 6, some 12),
   (12, 5, 8192, true, 6, some 13), (13, 6, 4096, true, 6, some 14), (14, 7, 4096, true, 15, none)]

/-- A pool of the defaults. -/
def defaultPool (e : Nat × Nat × Nat × Bool × Nat × Option Nat) (s : State) : State :=
  let (n, size, count, hbm, use, fb) := e
  setPool n { Pool.none_ with size := size, count := count, hbm := hbm, use := BitVec.ofNat 4 use, fallback := fb.getD 0, noFallback := fb.isNone } s

/-- The default pools; those in HBM do not exist in Refuge mode (R459). -/
def loadDefaultPools (s : State) : State :=
  forEach (fun e s => if s.pcr.refuge && e.2.2.2.1 then s else defaultPool e s) defaultPools s

end Sys2Proof.Machine
end

