-- ==== Sys2Proof/Machine/Start.lean ====
section
/-! DEFINITION. The start sequence: its milestones, the failures of a start, and the DDT (R59, R70, R212, R400–R402, R417, R418, R431,
R440–R442, R457). -/

namespace Sys2Proof.Machine

/-- Every queued log entry is written (R480, R482). -/
def writeLogEntries : Nat → State → State
  | 0, s => s
  | n + 1, s => writeLogEntries n (writeLogEntry s)

/-- PCR_IMG_FAIL as a word. -/
def imgFailWord (s : State) : Nat := s.img.failSection.toNat + 256 * s.img.failReason.toNat + 65536 * s.img.failRecord.toNat

/-- A failed start is recorded (R442, R457): PCR_IMG_FAIL, the log entry, which is durable before the reset, and the count of a start
in boot mode NORMAL. -/
def recordFailedStart (f : ImgFault) (s : State) : State :=
  let s1 := recordImgFault f s
  let s2 := logEvent .image (toLe 4 (imgFailWord s1)) s1
  let s3 := writeLogEntries s2.tim.queue.length s2
  if s.pcr.refuge then s3 else incr cPCR_START_FAILURES s3

/-- A start fails under R442: a FULL reset of cause 14 follows (R457). -/
def failStart (f : ImgFault) (s : State) : State := fullReset 14 (recordFailedStart f s)

/-- The recovery hold of R401: every other block is held, and the start counts as failed without a reset (R457). -/
def enterRecoveryHold (f : ImgFault) (s : State) : State :=
  let s1 := recordFailedStart f s
  { s1 with pcr := { s1.pcr with failed := true, recoveryHold := true } }

/-- The bank that the selector gives a start (R431): a trial that has had its start is reverted; one that has not is marked as used. -/
def startBank (s : State) : Bool × State :=
  let l := lineNow s
  if l.trial && l.trialUsed then (!l.activeB, evImg 2 (writeSelector (!l.activeB) false false l.svnMin s))
  else if l.trial then (l.activeB, writeSelector l.activeB true true l.svnMin s)
  else (l.activeB, s)

/-- The verified image of a bank becomes the running one (R400 step 4, R432). -/
def takeImage (b : Bool) (s : State) : State :=
  let get := bankBytes s b
  let body := leAt (get 20 4) 0 4
  let crt := { s.crt with svnImage := BitVec.ofNat 16 (leAt (get 16 2) 0 2), bodyHash := sha384 (get 0 body),
                          imageVer := BitVec.ofNat 64 (leAt (get 8 8) 0 8) }
  let img := { s.img with runB := b, svnFloor := BitVec.ofNat 16 (leAt (get 18 2) 0 2), subsysVid := BitVec.ofNat 16 (leAt (get 32 2) 0 2),
                          subsysId := BitVec.ofNat 16 (leAt (get 34 2) 0 2) }
  { s with crt := crt, img := img, pcr := { s.pcr with imageVerified := true } }

/-- Step 4 of R400: on the bank that the selector names, then on the other one (R437). When neither passes, the recovery hold. -/
def verifyBanks (s0 : State) : State :=
  let x := startBank s0
  match bankFault x.2 x.1 with
  | none => takeImage x.1 x.2
  | some f =>
    match bankFault x.2 (!x.1) with
    | none =>
      let s1 := evCrt 4 (recordImgFault f x.2)
      takeImage (!x.1) { s1 with crt := { s1.crt with fallback := true } }
    | some _ => enterRecoveryHold f x.2

/-- Whether a start is under way and has not failed. -/
def startRuns (s : State) : Bool := isRunning s && !s.pcr.failed && !s.pcr.fullOp

/-- IMAGE_VERIFIED (R400, R431, R441): at least 20 ms after the start began (R418). -/
def execImageVerified (s : State) : Result :=
  if !startRuns s || s.pcr.imageVerified then .next s
  else .next (verifyBanks (beginStart (reachTime (s.pcr.startAt + ms 20) s)))

/-- A PROVISION section is applied (R439). A record that fails shows in PCR_IMG_FAIL with REASON 7; the start goes on, ZEROISED. -/
def provision (s : State) : State :=
  match applySection 9 applyProvision s with
  | (some f, s1) => recordImgFault f s1
  | (none, s1) => s1

/-- What every start does with the keys of the image (R417, R438, R439): provisioning first, then the key store, then the key records;
a ZEROISED device installs none. -/
def applyKeys (s : State) : Option ImgFault × State :=
  let s1 := if s.crt.seed.isNone then provision s else s
  let s2 := recoverLsSlots s1
  if s2.crt.sec = .zeroised then (none, s2)
  else
    match applySection 6 applyKey s2 with
    | (some f, s3) => (some f, s3)
    | (none, s3) => (none, retireUnnamed s3)

/-- The sections that emergency-path ready needs, in the order of R440. -/
def pathSections : List (Nat × (ImgRecord → State → RecordOut)) :=
  [(5, applyPolicy), (1, applyIdentity), (3, applyFabric), (4, applyLspath), (2, applyPorts)]

/-- The directory of the message library (R196, R440). -/
def loadDirectory (s : State) : State :=
  match imageSection s 8 with
  | none => s
  | some e =>
    let at_ := e.offset
    let dir := (List.range 256).foldl (fun m k => mset (fun _ => List.replicate 64 0) m k (bankBytes s s.img.runB (at_ + 64 * k) 64)) []
    { s with str := { s.str with libAt := some (bankBase s.img.runB + at_), directory := dir } }

/-- Every block that the boot mode runs reports READY (R441, R460). -/
def setReady (s : State) : State :=
  let on := !s.pcr.refuge
  let s1 := { s with swc := { s.swc with ready := on }, flp := { s.flp with ready := on, lsLoaded := on }, tmg := { s.tmg with ready := on } }
  let s2 := { s1 with cph := { s1.cph with ready := true, keysReady := true }, str := { s1.str with ready := true }, eth := { s1.eth with ready := true } }
  let cas := { s2.cas with ready := on && decide (s2.ident.role ≠ .standalone), topoVer := s2.crt.ret.topoVer }
  let s3 : State := { s2 with pool := { s2.pool with ready := true }, cas := cas, mem := { s2.mem with ready := on, passStart := s2.now } }
  let clear := decide (s3.crt.sec = .zeroised) && s3.alp.clearFallback
  { s3 with crt := { s3.crt with lsKeysReady := true, nonApproved := s3.crt.nonApproved || clear },
            alp := { s3.alp with pathReady := true }, pcr := { s3.pcr with pathReady := true } }

/-- A log entry of an earlier reset takes its SEQ and goes to the queue (R451, R482). -/
def queueDeferred (e : Bytes) (s : State) : State :=
  if 256 ≤ s.tim.queue.length then evTim 2 (incr cTIM_LOG_LOST { s with tim := { s.tim with gapNext := true } })
  else
    let b := patch e 4 (toLe 8 s.tim.nextSeq.toNat)
    let b1 := if s.tim.gapNext then patch b 3 [BitVec.ofNat 8 (byteAt b 3 ||| 4)] else b
    { s with tim := { s.tim with queue := s.tim.queue ++ [b1], nextSeq := s.tim.nextSeq + 1, gapNext := false } }

/-- The entries owed to this start. -/
def queueAllDeferred (s : State) : State := forEach queueDeferred s.tim.deferred { s with tim := { s.tim with deferred := [] } }

/-- The recorder starts, and its connections open, where boot mode is NORMAL and the image names a journal region (R173, R187, R193). -/
def startStorage (s : State) : State :=
  if s.pcr.refuge then s
  else
    let s1 := if (getReg s rSTR_JNL_EXTENTS).toNat = 0 then s else startRecorder s
    forEach (fun e s => if e.2.recorder then openConn e.1 e.2 s else s) s1.str.conns s1

/-- The alarm state at emergency-path ready (R42, R59, R70): EMERGENCY with a declaration, its latency running from the declaration itself
(R58), otherwise the holdover that retention holds, whose entry actions are then owed. -/
def startAlarm (s0 : State) : State :=
  let s := refreshView s0
  if declared s then driveEmergency (declaredFrom s) s
  else if s.crt.ret.holdover then
    driveHoldover { s with alp := { s.alp with entryDone := false, entryOwed := true, entryFrom := s.now } }
  else s

/-- The messages that the wake detector kept are checked once the emergency path is ready (R321), each with the device time of its last bit
(R58). -/
def checkWakeMessages (s : State) : State := forEach checkHeld s.crt.ret.wakeMsgs (setRet { s.crt.ret with wakeMsgs := [] } s)

/-- Emergency-path ready is reached (R441). -/
def reachPathReady (s : State) : State :=
  let s1 := fitGroups (restoreSources (setReady (loadDirectory s)))
  let s2 := startStorage (reportKeyop (queueAllDeferred s1))
  withMarkers (fun s => checkWakeMessages (signalOnce rALP_EVENT rALP_EVENT_MASK startAlarm s)) s2

/-- EMERGENCY_PATH_READY (R438–R442): at least 30 ms after the start began. -/
def execEmergencyPathReady (s : State) : Result :=
  if !startRuns s || !s.pcr.imageVerified || s.pcr.pathReady then .next s
  else
    match applyKeys (loadDefaultPools (imageDefaults (reachTime (s.pcr.startAt + ms 30) s))) with
    | (some f, s1) => .next (failStart f s1)
    | (none, s1) =>
      match applySections pathSections s1 with
      | (some f, s2) => .next (failStart f s2)
      | (none, s2) => .next (reachPathReady (if s2.pcr.refuge then leaveDegraded s2 else s2))

/-- SPEED of an Ethernet port in the DDT (R213). -/
def ddtSpeed : GroupMode → Nat
  | .one400 => 3
  | .two200 => 2
  | .four100 => 1
  | .down => 0

/-- An entry of a port without traffic (R213). -/
def ddtUnused : Bytes := [0, 0, 0xFF, 0] ++ List.replicate 12 0

/-- An entry of the port table (R213). The MTU of a loop or Gondola entry is not stated: `mtu` is a free value. -/
def ddtPort (s : State) (mtu n : Nat) : Bytes :=
  if n < 16 then
    let m := (laneGroup s (n / 4)).imageMode
    if !modeUses m n then ddtUnused
    else toLe 1 1 ++ toLe 1 (ddtSpeed m) ++ toLe 1 n ++ toLe 1 (if (getPort s n).alt.isSome then 1 else 0)
      ++ toLe 4 (regFld s (rETH_MTU n) 0 14) ++ List.replicate 8 0
  else if n < 20 then
    let role := loopRole s (n - 16)
    if role = 3 then ddtUnused
    else toLe 1 2 ++ [0, 0xFF] ++ toLe 1 (if role = 0 then 2 else 0) ++ toLe 4 mtu ++ List.replicate 8 0
  else if (mfind s.ident.peers (n - 20)).isNone || s.ident.role = .standalone then ddtUnused
  else toLe 1 3 ++ [0] ++ toLe 1 (n - 4) ++ [0] ++ toLe 4 mtu ++ List.replicate 8 0

/-- FEATURES of the DDT in boot mode NORMAL (R212). -/
def ddtFeatures (s : State) : Nat :=
  let b := fun (k : Nat) (p : Bool) => if p then 2 ^ k else 0
  1 + b 1 (decide ((getReg s rSTR_JNL_EXTENTS).toNat ≠ 0)) + b 2 s.str.libAt.isSome + 8 + 16 + 32 + b 6 ((List.range 16).any (pfcEn s)) + 128 + 256
    + b 9 s.alp.clearFallback + 1024

/-- The DDT header with a CRC field as given (R212). Its tables follow it (log entry). -/
def ddtHeader (s : State) (crc total : Nat) : Bytes :=
  let alone := decide (s.ident.role = .standalone)
  toLe 4 0x54444456 ++ toLe 2 1 ++ toLe 2 128 ++ toLe 4 total ++ toLe 4 crc ++ toLe 8 Config.serial.toNat ++ toLe 2 s.img.subsysVid.toNat
    ++ toLe 2 s.img.subsysId.toNat ++ toLe 1 (roleCode s.ident.role) ++ toLe 1 s.ident.cid ++ toLe 1 s.ident.devices
    ++ toLe 1 (if s.img.runB then 2 else 0) ++ toLe 2 (totalVfs s) ++ toLe 2 (if alone then 17 else busesPer s) ++ toLe 4 65536
    ++ [0xF4, 6, 4, 0] ++ toLe 8 (ddtFeatures s) ++ toLe 8 s.crt.imageVer.toNat ++ toLe 4 0 ++ toLe 2 128 ++ toLe 2 24
    ++ toLe 2 (if alone then 0 else 512) ++ toLe 2 (if alone then 0 else 64) ++ List.replicate 56 0

/-- The DDT is built (R212, R213): the device's own entry of the member table shows it present. -/
def buildDdt (s : State) : State :=
  let f := takeFree s
  let alone := decide (s.ident.role = .standalone)
  let mtu := (Config.freeDWord f.1).toNat % 2 ^ 32
  let tables := (List.range 24).flatMap (ddtPort s mtu) ++ List.replicate (if alone then 0 else 1024) 0
  let total := 128 + tables.length
  let crc := (crc32c (ddtHeader s 0 total ++ tables)).toNat
  let own : DdtMember := { state := 2, hops := 0, buses := busesPer s, serial := Config.serial }
  let members := if alone then [] else minsert s.hep.members s.ident.cid own
  { f.2 with hep := { s.hep with ddt := ddtHeader s crc total ++ tables, members := members } }

/-- Whether the endpoint has still to reach configuration ready after a HOST reset (R452). -/
def hostReturns (s : State) : Bool :=
  isRunning s && s.pcr.cfgReady && !s.hep.cfgReady && !s.cas.fnHeld && (s.hep.perstHigh || s.ident.role = .member)

/-- CONFIGURATION_READY (R9, R215, R216, R388, R441): of a start, at least 150 ms after it began, and not in Refuge mode; of a HOST reset
of a device otherwise running, at least 10 ms after PERST_N was deasserted or the hot reset ended. -/
def execConfigurationReady (s : State) : Result :=
  if hostReturns s then .next (endpointReady (reachTime (s.hep.readyFrom + ms 10) s))
  else if !startRuns s || !s.pcr.pathReady || s.pcr.cfgReady || s.pcr.refuge then .next s
  else
    match applySection 7 applySvccode (reachTime (s.pcr.startAt + ms 150) s) with
    | (some f, s1) => .next (failStart f s1)
    | (none, s1) =>
      let s2 := buildDdt s1
      let s3 := endpointReady (startSupervisor { s2 with pcr := { s2.pcr with cfgReady := true } })
      .next (if linksAllowed s3 then sendTopo false (upLinks s3) s3 else s3)

/-- STORE_READY (R167, R411, R418): every slot is recovered, and the thresholds that the resumed counts have reached are reported. At
least 100 ms after the start began. In Refuge mode only LS slots are used, and the milestone does not come. -/
def execStoreReady (s : State) : Result :=
  if !startRuns s || !s.pcr.pathReady || s.pcr.storeReady || s.pcr.refuge then .next s
  else
    let s1 := recoverStore (reachTime (s.pcr.startAt + ms 100) s)
    let s2 := forEach (fun e s => judgeThresholds e.1 e.2.made s) s1.cph.slots s1
    .next (leaveDegraded { s2 with pcr := { s2.pcr with storeReady := true } })

/-- FULL_OPERATION (R216, R297, R441, R457, R461): at least 400 ms after the start began. Pools enter service mode, fetch begins, the
failed-start count is 0, and a power request that waited is taken. -/
def execFullOperation (s : State) : Result :=
  if !startRuns s || !s.pcr.cfgReady || !s.pcr.storeReady then .next s
  else
    let s1 := reachTime (s.pcr.startAt + ms 400) s
    let s2 := { s1 with pcr := { s1.pcr with fullOp := true, startFails := 0 }, pool := { s1.pool with service := true } }
    .next (takeQueued { s2 with hep := { s2.hep with operational := s2.hep.cfgReady } })

/-- A start fails for a reason found inside the device (R400–R402, R442): a failing check of step 4 on both banks is the recovery hold;
in Refuge mode a failure of step 1 leaves the device without cryptography; every other failure leads to a FULL reset. -/
def startFails (f : ImgFault) (s : State) : State :=
  if 1 ≤ f.reason && f.reason ≤ 5 then enterRecoveryHold f s
  else if s.pcr.refuge && f.sect = 0 && f.reason = 0 && !s.pcr.imageVerified then
    degrade 3 { s with crt := { s.crt with cryptoOff := true } }
  else failStart f s

/-- START_FAILURE (R402, R442). -/
def execStartFailure (section_ reason record : Nat) (s : State) : Result :=
  let s1 := beginStart s
  if !startRuns s || s.pcr.recoveryHold then .next s
  else .next (startFails { sect := section_, reason := reason, record := record } s1)

/-- START_DEADLINE (R457, R458): 30.0 s after reset release the start has not reached full operation, or in Refuge mode emergency-path
ready. -/
def execStartDeadline (s : State) : Result :=
  if !startRuns s || s.pcr.recoveryHold || (s.pcr.refuge && s.pcr.pathReady) then .next s
  else
    let s1 := beginStart (reachTime (s.pcr.startAt + ms 30000) s)
    if s1.pcr.refuge && s1.pcr.pathReady then .next s1
    else .next (fullReset 14 (if s1.pcr.refuge then s1 else incr cPCR_START_FAILURES s1))

end Sys2Proof.Machine
end

