-- ==== Sys2Proof/Machine/RiscV.lean ====
section
/-! DEFINITION. The instructions of a service thread as data: RV64IMAC with Zicsr and Zifencei and the two custom instructions
(R381, R383), read from their words. The encodings are those of the RISC-V specification that R381 names (PRESUMED, log entry). -/

namespace Sys2Proof.Machine

/-- Register-register and register-immediate computations. -/
inductive RvAlu where
  | add | sub | sll | slt | sltu | xor | srl | sra | or | and
  | addw | subw | sllw | srlw | sraw
  | mul | mulh | mulhsu | mulhu | div | divu | rem | remu
  | mulw | divw | divuw | remw | remuw
deriving DecidableEq, Repr

/-- Conditions of a branch. -/
inductive RvCond where
  | eq | ne | lt | ge | ltu | geu
deriving DecidableEq, Repr

/-- Operations of an AMO. -/
inductive RvAmo where
  | swap | add | xor | and | or | min | max | minu | maxu
deriving DecidableEq, Repr

/-- How a CSR instruction changes its register. -/
inductive RvCsr where
  | write | set | clear
deriving DecidableEq, Repr

/-- An instruction. Sizes of accesses are in bytes. -/
inductive Rv where
  | op (f : RvAlu) (rd rs1 rs2 : Nat)
  | opImm (f : RvAlu) (rd rs1 : Nat) (imm : DWord)
  | lui (rd : Nat) (imm : DWord)
  | auipc (rd : Nat) (imm : DWord)
  | jal (rd : Nat) (imm : DWord)
  | jalr (rd rs1 : Nat) (imm : DWord)
  | branch (c : RvCond) (rs1 rs2 : Nat) (imm : DWord)
  | load (n : Nat) (sign : Bool) (rd rs1 : Nat) (imm : DWord)
  | store (n : Nat) (rs1 rs2 : Nat) (imm : DWord)
  | lr (n rd rs1 : Nat)
  | sc (n rd rs1 rs2 : Nat)
  | amo (f : RvAmo) (n rd rs1 rs2 : Nat)
  | csr (f : RvCsr) (imm : Bool) (rd src num : Nat)
  | fence | fenceI | ecall | ebreak | wfi
  | mret | evwait | evpost
deriving DecidableEq, Repr

/-- The low `w` bits of a number, as a sign-extended 64-bit value. -/
def rvImm (w x : Nat) : DWord := BitVec.ofInt 64 (signed w x)

/-- Immediate of an I-type word. -/
def immI (w : Nat) : DWord := rvImm 12 (nbits w 20 12)

/-- Immediate of an S-type word. -/
def immS (w : Nat) : DWord := rvImm 12 (nbits w 7 5 + 32 * nbits w 25 7)

/-- Immediate of a B-type word. -/
def immB (w : Nat) : DWord := rvImm 13 (2 * nbits w 8 4 + 32 * nbits w 25 6 + 2048 * nbits w 7 1 + 4096 * nbits w 31 1)

/-- Immediate of a U-type word. -/
def immU (w : Nat) : DWord := rvImm 32 (4096 * nbits w 12 20)

/-- Immediate of a J-type word. -/
def immJ (w : Nat) : DWord :=
  rvImm 21 (2 * nbits w 21 10 + 2048 * nbits w 20 1 + 4096 * nbits w 12 8 + 1048576 * nbits w 31 1)

/-- Register-register computations of opcodes OP and OP-32 by funct7 and funct3. -/
def aluOf (word32 : Bool) (f7 f3 : Nat) : Option RvAlu :=
  match word32, f7, f3 with
  | false, 0, 0 => some .add | false, 32, 0 => some .sub | false, 0, 1 => some .sll | false, 0, 2 => some .slt
  | false, 0, 3 => some .sltu | false, 0, 4 => some .xor | false, 0, 5 => some .srl | false, 32, 5 => some .sra
  | false, 0, 6 => some .or | false, 0, 7 => some .and
  | false, 1, 0 => some .mul | false, 1, 1 => some .mulh | false, 1, 2 => some .mulhsu | false, 1, 3 => some .mulhu
  | false, 1, 4 => some .div | false, 1, 5 => some .divu | false, 1, 6 => some .rem | false, 1, 7 => some .remu
  | true, 0, 0 => some .addw | true, 32, 0 => some .subw | true, 0, 1 => some .sllw | true, 0, 5 => some .srlw
  | true, 32, 5 => some .sraw | true, 1, 0 => some .mulw | true, 1, 4 => some .divw | true, 1, 5 => some .divuw
  | true, 1, 6 => some .remw | true, 1, 7 => some .remuw
  | _, _, _ => none

/-- OP-IMM: shifts take six bits of amount. -/
def opImmOf (w : Nat) : Option Rv :=
  let rd := nbits w 7 5
  let rs := nbits w 15 5
  let sh := BitVec.ofNat 64 (nbits w 20 6)
  match nbits w 12 3 with
  | 0 => some (.opImm .add rd rs (immI w))
  | 1 => if nbits w 26 6 = 0 then some (.opImm .sll rd rs sh) else none
  | 2 => some (.opImm .slt rd rs (immI w))
  | 3 => some (.opImm .sltu rd rs (immI w))
  | 4 => some (.opImm .xor rd rs (immI w))
  | 5 => if nbits w 26 6 = 0 then some (.opImm .srl rd rs sh) else if nbits w 26 6 = 16 then some (.opImm .sra rd rs sh) else none
  | 6 => some (.opImm .or rd rs (immI w))
  | _ => some (.opImm .and rd rs (immI w))

/-- OP-IMM-32: shifts take five bits of amount. -/
def opImm32Of (w : Nat) : Option Rv :=
  let rd := nbits w 7 5
  let rs := nbits w 15 5
  let sh := BitVec.ofNat 64 (nbits w 20 5)
  match nbits w 12 3 with
  | 0 => some (.opImm .addw rd rs (immI w))
  | 1 => if nbits w 25 7 = 0 then some (.opImm .sllw rd rs sh) else none
  | 5 => if nbits w 25 7 = 0 then some (.opImm .srlw rd rs sh) else if nbits w 25 7 = 32 then some (.opImm .sraw rd rs sh) else none
  | _ => none

/-- BRANCH by funct3. -/
def condOf : Nat → Option RvCond
  | 0 => some .eq | 1 => some .ne | 4 => some .lt | 5 => some .ge | 6 => some .ltu | 7 => some .geu | _ => none

/-- AMO by funct5. -/
def amoOf : Nat → Option RvAmo
  | 0 => some .add | 1 => some .swap | 4 => some .xor | 8 => some .or | 12 => some .and
  | 16 => some .min | 20 => some .max | 24 => some .minu | 28 => some .maxu | _ => none

/-- Opcode AMO: the ordering bits change nothing in a model of one order. -/
def amoWord (w : Nat) : Option Rv :=
  let rd := nbits w 7 5
  let rs1 := nbits w 15 5
  let rs2 := nbits w 20 5
  let f5 := nbits w 27 5
  if nbits w 12 3 ≠ 2 ∧ nbits w 12 3 ≠ 3 then none
  else
    let n := if nbits w 12 3 = 2 then 4 else 8
    if f5 = 2 then (if rs2 = 0 then some (.lr n rd rs1) else none)
    else if f5 = 3 then some (.sc n rd rs1 rs2)
    else (amoOf f5).map (fun f => .amo f n rd rs1 rs2)

/-- Opcode SYSTEM. -/
def systemWord (w : Nat) : Option Rv :=
  let rd := nbits w 7 5
  let src := nbits w 15 5
  let num := nbits w 20 12
  match nbits w 12 3 with
  | 0 =>
    if w = 0x00000073 then some .ecall else if w = 0x00100073 then some .ebreak
    else if w = 0x30200073 then some .mret else if w = 0x10500073 then some .wfi else none
  | 1 => some (.csr .write false rd src num)
  | 2 => some (.csr .set false rd src num)
  | 3 => some (.csr .clear false rd src num)
  | 5 => some (.csr .write true rd src num)
  | 6 => some (.csr .set true rd src num)
  | 7 => some (.csr .clear true rd src num)
  | _ => none

/-- The custom-0 opcode (R383). -/
def customWord (w : Nat) : Option Rv :=
  if nbits w 12 3 = 0 ∧ nbits w 20 12 = 0 then some .evwait
  else if nbits w 12 3 = 1 ∧ nbits w 20 12 = 0 ∧ nbits w 7 5 = 0 then some .evpost
  else none

/-- Opcode LOAD. -/
def loadWord (w : Nat) : Option Rv :=
  let rd := nbits w 7 5
  let rs := nbits w 15 5
  match nbits w 12 3 with
  | 0 => some (.load 1 true rd rs (immI w)) | 1 => some (.load 2 true rd rs (immI w)) | 2 => some (.load 4 true rd rs (immI w))
  | 3 => some (.load 8 true rd rs (immI w)) | 4 => some (.load 1 false rd rs (immI w)) | 5 => some (.load 2 false rd rs (immI w))
  | 6 => some (.load 4 false rd rs (immI w)) | _ => none

/-- A 32-bit word as an instruction; none where it is illegal. -/
def rvWord (w : Nat) : Option Rv :=
  let rd := nbits w 7 5
  let rs1 := nbits w 15 5
  let rs2 := nbits w 20 5
  let f3 := nbits w 12 3
  match nbits w 0 7 with
  | 0x37 => some (.lui rd (immU w))
  | 0x17 => some (.auipc rd (immU w))
  | 0x6F => some (.jal rd (immJ w))
  | 0x67 => if f3 = 0 then some (.jalr rd rs1 (immI w)) else none
  | 0x63 => (condOf f3).map (fun c => .branch c rs1 rs2 (immB w))
  | 0x03 => loadWord w
  | 0x23 => if f3 < 4 then some (.store (2 ^ f3) rs1 rs2 (immS w)) else none
  | 0x13 => opImmOf w
  | 0x1B => opImm32Of w
  | 0x33 => (aluOf false (nbits w 25 7) f3).map (fun f => .op f rd rs1 rs2)
  | 0x3B => (aluOf true (nbits w 25 7) f3).map (fun f => .op f rd rs1 rs2)
  | 0x0F => if f3 = 0 then some .fence else if f3 = 1 then some .fenceI else none
  | 0x2F => amoWord w
  | 0x73 => systemWord w
  | 0x0B => customWord w
  | _ => none

/-- The six-bit immediate of most compressed words. -/
def immC (h : Nat) : DWord := rvImm 6 (nbits h 2 5 + 32 * nbits h 12 1)

/-- Quadrant 0 of the compressed words. -/
def rvC0 (h : Nat) : Option Rv :=
  let rd := 8 + nbits h 2 3
  let rs := 8 + nbits h 7 3
  let u4 := BitVec.ofNat 64 (8 * nbits h 10 3 + 4 * nbits h 6 1 + 64 * nbits h 5 1)
  let u8 := BitVec.ofNat 64 (8 * nbits h 10 3 + 64 * nbits h 5 2)
  let sp := 16 * nbits h 11 2 + 64 * nbits h 7 4 + 4 * nbits h 6 1 + 8 * nbits h 5 1
  match nbits h 13 3 with
  | 0 => if sp = 0 then none else some (.opImm .add rd 2 (BitVec.ofNat 64 sp))
  | 2 => some (.load 4 true rd rs u4)
  | 3 => some (.load 8 true rd rs u8)
  | 6 => some (.store 4 rs rd u4)
  | 7 => some (.store 8 rs rd u8)
  | _ => none

/-- Arithmetic of quadrant 1. -/
def rvC1Alu (h : Nat) : Option Rv :=
  let rd := 8 + nbits h 7 3
  let rs2 := 8 + nbits h 2 3
  let sh := BitVec.ofNat 64 (nbits h 2 5 + 32 * nbits h 12 1)
  match nbits h 10 2 with
  | 0 => some (.opImm .srl rd rd sh)
  | 1 => some (.opImm .sra rd rd sh)
  | 2 => some (.opImm .and rd rd (immC h))
  | _ =>
    match nbits h 12 1, nbits h 5 2 with
    | 0, 0 => some (.op .sub rd rd rs2) | 0, 1 => some (.op .xor rd rd rs2) | 0, 2 => some (.op .or rd rd rs2)
    | 0, 3 => some (.op .and rd rd rs2) | 1, 0 => some (.op .subw rd rd rs2) | 1, 1 => some (.op .addw rd rd rs2)
    | _, _ => none

/-- Immediate of C.J. -/
def immCJ (h : Nat) : DWord :=
  rvImm 12 (2 * nbits h 3 3 + 16 * nbits h 11 1 + 32 * nbits h 2 1 + 64 * nbits h 7 1 + 128 * nbits h 6 1 + 256 * nbits h 9 2
    + 1024 * nbits h 8 1 + 2048 * nbits h 12 1)

/-- Immediate of C.BEQZ and C.BNEZ. -/
def immCB (h : Nat) : DWord :=
  rvImm 9 (2 * nbits h 3 2 + 8 * nbits h 10 2 + 32 * nbits h 2 1 + 64 * nbits h 5 2 + 256 * nbits h 12 1)

/-- Quadrant 1 of the compressed words. -/
def rvC1 (h : Nat) : Option Rv :=
  let rd := nbits h 7 5
  let wide := nbits h 2 5 + 32 * nbits h 12 1
  let sp := rvImm 10 (16 * nbits h 6 1 + 32 * nbits h 2 1 + 64 * nbits h 5 1 + 128 * nbits h 3 2 + 512 * nbits h 12 1)
  match nbits h 13 3 with
  | 0 => some (.opImm .add rd rd (immC h))
  | 1 => if rd = 0 then none else some (.opImm .addw rd rd (immC h))
  | 2 => some (.opImm .add rd 0 (immC h))
  | 3 =>
    if wide = 0 then none
    else if rd = 2 then some (.opImm .add 2 2 sp)
    else some (.lui rd (rvImm 18 (4096 * wide)))
  | 4 => rvC1Alu h
  | 5 => some (.jal 0 (immCJ h))
  | 6 => some (.branch .eq (8 + nbits h 7 3) 0 (immCB h))
  | _ => some (.branch .ne (8 + nbits h 7 3) 0 (immCB h))

/-- Jumps and moves of quadrant 2. -/
def rvC2Move (h : Nat) : Option Rv :=
  let r1 := nbits h 7 5
  let r2 := nbits h 2 5
  if nbits h 12 1 = 0 then
    if r2 ≠ 0 then some (.op .add r1 0 r2) else if r1 = 0 then none else some (.jalr 0 r1 0)
  else if r2 ≠ 0 then some (.op .add r1 r1 r2)
  else if r1 = 0 then some .ebreak else some (.jalr 1 r1 0)

/-- Quadrant 2 of the compressed words. -/
def rvC2 (h : Nat) : Option Rv :=
  let rd := nbits h 7 5
  let rs2 := nbits h 2 5
  let l4 := BitVec.ofNat 64 (4 * nbits h 4 3 + 32 * nbits h 12 1 + 64 * nbits h 2 2)
  let l8 := BitVec.ofNat 64 (8 * nbits h 5 2 + 32 * nbits h 12 1 + 64 * nbits h 2 3)
  match nbits h 13 3 with
  | 0 => some (.opImm .sll rd rd (BitVec.ofNat 64 (nbits h 2 5 + 32 * nbits h 12 1)))
  | 2 => if rd = 0 then none else some (.load 4 true rd 2 l4)
  | 3 => if rd = 0 then none else some (.load 8 true rd 2 l8)
  | 4 => rvC2Move h
  | 6 => some (.store 4 2 rs2 (BitVec.ofNat 64 (4 * nbits h 9 4 + 64 * nbits h 7 2)))
  | 7 => some (.store 8 2 rs2 (BitVec.ofNat 64 (8 * nbits h 10 3 + 64 * nbits h 7 3)))
  | _ => none

/-- A 16-bit word as an instruction; none where it is illegal. -/
def rvHalf (h : Nat) : Option Rv :=
  match nbits h 0 2 with
  | 0 => rvC0 h
  | 1 => rvC1 h
  | _ => rvC2 h

/-- An instruction of `len` bytes. -/
def rvDecode (len w : Nat) : Option Rv := if len = 2 then rvHalf w else rvWord w

/-- Signed division: by 0 it gives -1; the overflow gives the dividend. -/
def rvDiv {w : Nat} (a b : BitVec w) : BitVec w := if b = 0 then BitVec.allOnes w else BitVec.ofInt w (a.toInt.tdiv b.toInt)

/-- Signed remainder: by 0 it gives the dividend; the overflow gives 0. -/
def rvRem {w : Nat} (a b : BitVec w) : BitVec w := if b = 0 then a else BitVec.ofInt w (a.toInt.tmod b.toInt)

/-- Unsigned division: by 0 it gives all ones. -/
def rvDivu {w : Nat} (a b : BitVec w) : BitVec w := if b = 0 then BitVec.allOnes w else BitVec.ofNat w (a.toNat / b.toNat)

/-- Unsigned remainder: by 0 it gives the dividend. -/
def rvRemu {w : Nat} (a b : BitVec w) : BitVec w := if b = 0 then a else BitVec.ofNat w (a.toNat % b.toNat)

/-- The high half of a 128-bit product. -/
def highHalf (x : Int) : DWord := BitVec.ofInt 64 (x / 2 ^ 64)

/-- The result of a computation. -/
def rvAlu (f : RvAlu) (a b : DWord) : DWord :=
  let aw := a.setWidth 32
  let bw := b.setWidth 32
  match f with
  | .add => a + b
  | .sub => a - b
  | .sll => a <<< (b.toNat % 64)
  | .slt => if a.toInt < b.toInt then 1 else 0
  | .sltu => if a.toNat < b.toNat then 1 else 0
  | .xor => a ^^^ b
  | .srl => a >>> (b.toNat % 64)
  | .sra => a.sshiftRight (b.toNat % 64)
  | .or => a ||| b
  | .and => a &&& b
  | .addw => (aw + bw).signExtend 64
  | .subw => (aw - bw).signExtend 64
  | .sllw => (aw <<< (b.toNat % 32)).signExtend 64
  | .srlw => (aw >>> (b.toNat % 32)).signExtend 64
  | .sraw => (aw.sshiftRight (b.toNat % 32)).signExtend 64
  | .mul => a * b
  | .mulh => highHalf (a.toInt * b.toInt)
  | .mulhsu => highHalf (a.toInt * b.toNat)
  | .mulhu => highHalf (a.toNat * b.toNat)
  | .div => rvDiv a b
  | .divu => rvDivu a b
  | .rem => rvRem a b
  | .remu => rvRemu a b
  | .mulw => (aw * bw).signExtend 64
  | .divw => (rvDiv aw bw).signExtend 64
  | .divuw => (rvDivu aw bw).signExtend 64
  | .remw => (rvRem aw bw).signExtend 64
  | .remuw => (rvRemu aw bw).signExtend 64

/-- Whether a branch is taken. -/
def rvTaken (c : RvCond) (a b : DWord) : Bool :=
  match c with
  | .eq => decide (a = b)
  | .ne => decide (a ≠ b)
  | .lt => decide (a.toInt < b.toInt)
  | .ge => decide (b.toInt ≤ a.toInt)
  | .ltu => decide (a.toNat < b.toNat)
  | .geu => decide (b.toNat ≤ a.toNat)

/-- What an AMO stores, from the value in memory and the register; both are sign-extended words for a 4-byte AMO. -/
def rvAmoValue (f : RvAmo) (m r : DWord) : DWord :=
  match f with
  | .swap => r
  | .add => m + r
  | .xor => m ^^^ r
  | .and => m &&& r
  | .or => m ||| r
  | .min => if r.toInt < m.toInt then r else m
  | .max => if m.toInt < r.toInt then r else m
  | .minu => if r.toNat < m.toNat then r else m
  | .maxu => if m.toNat < r.toNat then r else m

/-- The value of `n` loaded bytes as a register holds it. -/
def rvExtend (n : Nat) (sign : Bool) (x : Nat) : DWord := if sign then rvImm (8 * n) x else BitVec.ofNat 64 x

end Sys2Proof.Machine
end

