-- ==== Sys2Proof/Machine/ThreadIsa.lean ====
section
/-! DEFINITION. What the instructions of a service thread do (R381, R382), and the traps they take (R389). -/

namespace Sys2Proof.Machine

/-- Base of the service view of the device registers (R499). -/
def serviceAperture : Nat := 0x4000000000

/-- The outcome of an instruction: the state after it, or the cause and tval of the trap it takes. -/
abbrev RvOut := Except (DWord × DWord) State

/-- A trap with a cause number. -/
def rvTrap {α : Type} (cause : Nat) (tval : DWord) : Except (DWord × DWord) α := .error (BitVec.ofNat 64 cause, tval)

/-- mtval of a trap for which the RISC-V specification allows 0 in place of the value. -/
def openTval (cause : Nat) (v : DWord) : DWord := if Config.tvalGiven cause then v else 0

/-- Whether an access lies inside the thread's data region, which lies inside service memory or the scratch memory (R382). -/
def inDataRegion (s : State) (t : Thread) (a n : Nat) : Bool :=
  decide (t.regionBase.toNat ≤ a) && decide (a + n ≤ t.regionLimit.toNat + 1) && inSvcMemory s a n

/-- Whether an access lies inside the code region. -/
def inCodeRegion (s : State) (a n : Nat) : Bool := decide (s.svc.codeBase ≤ a) && decide (a + n ≤ s.svc.codeEnd)

/-- Whether an access lies inside the register view: the 64 MiB of BAR0 (R211, R499). -/
def inRegisterView (a n : Nat) : Bool := decide (serviceAperture ≤ a) && decide (a + n ≤ serviceAperture + 0x4000000)

/-- A read of the register view (R382, R502). -/
def readRegisters (g a n : Nat) (s : State) : Except (DWord × DWord) (Nat × State) :=
  let o := a - serviceAperture
  if a % n ≠ 0 then rvTrap 4 (BitVec.ofNat 64 a)
  else if n = 4 then
    let r := readReg (.service g) o s
    .ok (r.1.toNat, r.2)
  else if n = 8 then
    let r := readReg64 (.service g) o s
    .ok (r.1.toNat, r.2)
  else rvTrap 5 (BitVec.ofNat 64 a)

/-- A load of `n` bytes by a thread (R382). -/
def threadLoad (g a n : Nat) (s : State) : Except (DWord × DWord) (Nat × State) :=
  let t := getThread s g
  if inDataRegion s t a n || inCodeRegion s a n then .ok (leNat (svcLoad s a n), s)
  else if inRegisterView a n then readRegisters g a n s
  else rvTrap 5 (BitVec.ofNat 64 a)

/-- A write of the register view. -/
def writeRegisters (g a n v : Nat) (s : State) : RvOut :=
  let o := a - serviceAperture
  if a % n ≠ 0 then rvTrap 6 (BitVec.ofNat 64 a)
  else if n = 4 then .ok (writeReg (.service g) o (BitVec.ofNat 32 v) s)
  else if n = 8 then .ok (writeReg64 (.service g) o (BitVec.ofNat 64 v) s)
  else rvTrap 7 (BitVec.ofNat 64 a)

/-- A store of `n` bytes by a thread (R382): the code region as such is read and execute only. -/
def threadStore (g a n v : Nat) (s : State) : RvOut :=
  let t := getThread s g
  if inDataRegion s t a n then .ok (svcStore (some g) a (toLe n v) s)
  else if inRegisterView a n then writeRegisters g a n v s
  else rvTrap 7 (BitVec.ofNat 64 a)

/-- The thread changed as an instruction retires: nothing where the access itself has taken it out of RUN. -/
def retireWith (g : Nat) (f : Thread → Thread) (s : State) : State :=
  let t := getThread s g
  if t.state = .run then setThread g (f t.retired) s else s

/-- The thread with a result in rd and its PC behind the instruction. -/
def advance (len rd : Nat) (v : DWord) (t : Thread) : Thread := { t.setX rd v with pc := t.pc + BitVec.ofNat 64 len }

/-- The instruction writes rd and nothing else. -/
def writeRd (g len rd : Nat) (v : DWord) (s : State) : RvOut := .ok (retireWith g (advance len rd v) s)

/-- misa: RV64 with I, M, A, C and U (R381). -/
def misaValue : DWord := 0x8000000000101105

/-- The machine CSRs that hold what was written to them, with the bits that a write reaches (log entry). -/
def csrMask (n : Nat) : Option DWord :=
  match n with
  | 0x304 => some 0x800
  | 0x305 => some (~~~ 3#64)
  | 0x306 => some 7
  | 0x340 => some (BitVec.allOnes 64)
  | 0x341 => some (~~~ 1#64)
  | 0x342 => some (BitVec.allOnes 64)
  | 0x343 => some (BitVec.allOnes 64)
  | 0xB02 => some (BitVec.allOnes 64)
  | 0x7C1 => some (BitVec.allOnes 64)
  | 0x7C2 => some (BitVec.allOnes 64)
  | _ => none

/-- Whether U mode may read a counter: its bit of mcounteren. -/
def counterOpen (t : Thread) (n : Nat) : Bool := !t.user || (t.csrAt 0x306).getLsbD (n - 0xC00)

/-- A CSR as an instruction reads it: none where the CSR is not implemented (R381). The cycle count is a free value. -/
def csrRead (g : Nat) (t : Thread) (n : Nat) (s : State) : Option (DWord × State) :=
  let cycle := let k := takeFree s; some (Config.freeDWord k.1, k.2)
  match n with
  | 0xF14 => some (BitVec.ofNat 64 g, s)
  | 0xF11 => some (Config.coreIdent n, s)
  | 0xF12 => some (Config.coreIdent n, s)
  | 0xF13 => some (Config.coreIdent n, s)
  | 0x300 => some (t.mstatus, s)
  | 0x301 => some (misaValue, s)
  | 0x344 => some (if t.eventEnabled then 0x800 else 0, s)
  | 0x7C0 => some (t.csrAt csrSvcev, s)
  | 0x7C3 => some (if t.busy then 1 else 0, s)
  | 0xB00 => cycle
  | 0xC00 => if counterOpen t n then cycle else none
  | 0xC01 => if counterOpen t n then some (BitVec.ofNat 64 s.now, s) else none
  | 0xC02 => if counterOpen t n then some (t.csrAt csrMinstret, s) else none
  | _ => if (csrMask n).isSome then some (t.csrAt n, s) else none

/-- mstatus after a write: MIE, MPIE, MPP (0 or 3), MPRV and TW are writable. -/
def mstatusWritten (old v : DWord) : DWord :=
  let m : DWord := 0x220088
  let mpp := if (v >>> 11) &&& 3#64 = 0 || (v >>> 11) &&& 3#64 = 3 then v &&& 0x1800 else old &&& 0x1800
  (v &&& m) ||| mpp

/-- The thread with a CSR written. -/
def csrWrite (n : Nat) (v : DWord) (t : Thread) : Thread :=
  match n with
  | 0x300 => t.setCsr csrMstatus (mstatusWritten (t.csrAt csrMstatus) v)
  | 0x7C0 => t.setCsr csrSvcev (t.csrAt csrSvcev &&& ~~~ v)
  | _ => match csrMask n with
    | some m => t.setCsr n (v &&& m)
    | none => t

/-- Whether the mode may reach a CSR, and write it where the instruction writes. -/
def csrAllowed (t : Thread) (n : Nat) (write : Bool) : Bool := (!t.user || nbits n 8 2 = 0) && !(write && nbits n 10 2 = 3)

/-- A CSR instruction (Zicsr). -/
def doCsr (g len : Nat) (f : RvCsr) (imm : Bool) (rd src n w : Nat) (s : State) : RvOut :=
  let t := getThread s g
  let v := if imm then BitVec.ofNat 64 src else t.xreg src
  let write := decide (f = .write) || decide (src ≠ 0)
  if !csrAllowed t n write then rvTrap 2 (openTval 2 (BitVec.ofNat 64 w))
  else match csrRead g t n s with
    | none => rvTrap 2 (openTval 2 (BitVec.ofNat 64 w))
    | some (old, s1) =>
      let new := match f with
        | .write => v
        | .set => old ||| v
        | .clear => old &&& ~~~ v
      let upd := fun (t : Thread) => if write then csrWrite n new t else t
      .ok (retireWith g (fun t => upd (advance len rd old t)) s1)

/-- A load. -/
def doLoad (g len n : Nat) (sign : Bool) (rd rs : Nat) (imm : DWord) (s : State) : RvOut :=
  match threadLoad g ((getThread s g).xreg rs + imm).toNat n s with
  | .error e => .error e
  | .ok (x, s1) => writeRd g len rd (rvExtend n sign x) s1

/-- A store. -/
def doStore (g len n rs1 rs2 : Nat) (imm : DWord) (s : State) : RvOut :=
  let t := getThread s g
  match threadStore g (t.xreg rs1 + imm).toNat n ((t.xreg rs2).toNat % 2 ^ (8 * n)) s with
  | .error e => .error e
  | .ok s1 => writeRd g len 0 0 s1

/-- The check of an atomic access: aligned, in the data region (R382); a load-reserve may read the code region. -/
def atomicFault (s : State) (t : Thread) (load : Bool) (a n : Nat) : Option Nat :=
  if a % n ≠ 0 then some (if load then 4 else 6)
  else if inDataRegion s t a n || (load && inCodeRegion s a n) then none
  else some (if load then 5 else 7)

/-- LR: the reservation is taken (R382). -/
def doLr (g len n rd rs : Nat) (s : State) : RvOut :=
  let t := getThread s g
  let a := (t.xreg rs).toNat
  match atomicFault s t true a n with
  | some c => rvTrap c (BitVec.ofNat 64 a)
  | none =>
    let v := rvExtend n true (leNat (svcLoad s a n))
    .ok (retireWith g (fun t => { advance len rd v t with reserved := some (a, n) }) s)

/-- SC: stores where the reservation is on these bytes, and answers 0; otherwise 1. The reservation ends in either case. -/
def doSc (g len n rd rs1 rs2 : Nat) (s : State) : RvOut :=
  let t := getThread s g
  let a := (t.xreg rs1).toNat
  match atomicFault s t false a n with
  | some c => rvTrap c (BitVec.ofNat 64 a)
  | none =>
    let held := decide (t.reserved = some (a, n))
    let s1 := if held then svcStore (some g) a (toLe n (t.xreg rs2).toNat) s else s
    .ok (retireWith g (fun t => { advance len rd (if held then 0 else 1) t with reserved := none }) s1)

/-- An AMO. -/
def doAmo (g len : Nat) (f : RvAmo) (n rd rs1 rs2 : Nat) (s : State) : RvOut :=
  let t := getThread s g
  let a := (t.xreg rs1).toNat
  match atomicFault s t false a n with
  | some c => rvTrap c (BitVec.ofNat 64 a)
  | none =>
    let old := rvExtend n true (leNat (svcLoad s a n))
    let r := rvExtend n true (t.xreg rs2).toNat
    writeRd g len rd old (svcStore (some g) a (toLe n (rvAmoValue f old r).toNat) s)

/-- The thread with its PC at a target and a link in rd. -/
def jump (rd : Nat) (link target : DWord) (t : Thread) : Thread := { t.setX rd link with pc := target }

/-- The effect of an instruction of `len` bytes with bits `w` at the PC of thread `g`. MRET, EVWAIT and EVPOST have rows of their own:
here they only check what may be executed. -/
def rvExec (g len w : Nat) (i : Rv) (s : State) : RvOut :=
  let t := getThread s g
  let x := t.xreg
  let link := t.pc + BitVec.ofNat 64 len
  match i with
  | .op f rd r1 r2 => writeRd g len rd (rvAlu f (x r1) (x r2)) s
  | .opImm f rd r1 imm => writeRd g len rd (rvAlu f (x r1) imm) s
  | .lui rd imm => writeRd g len rd imm s
  | .auipc rd imm => writeRd g len rd (t.pc + imm) s
  | .jal rd imm => .ok (retireWith g (jump rd link (t.pc + imm)) s)
  | .jalr rd r1 imm => .ok (retireWith g (jump rd link ((x r1 + imm) &&& ~~~ 1#64)) s)
  | .branch c r1 r2 imm => .ok (retireWith g (jump 0 0 (if rvTaken c (x r1) (x r2) then t.pc + imm else link)) s)
  | .load n sign rd r1 imm => doLoad g len n sign rd r1 imm s
  | .store n r1 r2 imm => doStore g len n r1 r2 imm s
  | .lr n rd r1 => doLr g len n rd r1 s
  | .sc n rd r1 r2 => doSc g len n rd r1 r2 s
  | .amo f n rd r1 r2 => doAmo g len f n rd r1 r2 s
  | .csr f imm rd src n => doCsr g len f imm rd src n w s
  | .fence => writeRd g len 0 0 s
  | .fenceI => .ok (retireWith g (fun t => { advance len 0 0 t with stale := [] }) s)
  | .ecall => rvTrap (if t.user then 8 else 11) 0
  | .ebreak => rvTrap 3 (openTval 3 t.pc)
  | .wfi => writeRd g len 0 0 s
  | .mret => if t.user then rvTrap 2 (openTval 2 (BitVec.ofNat 64 w)) else .ok s
  | .evwait => .ok s
  | .evpost => .ok s

/-- Whether a thread issues instructions: it is in RUN, its core has power and no HALT has been accepted (R379, R392). -/
def threadIssues (s : State) (g : Nat) : Bool := decide ((getThread s g).state = .run) && !(getThread s g).halting && threadPowered s g

/-- The next instruction of thread `g`, executed: its effect, or the trap that it takes. -/
def rvStep (g : Nat) (s : State) : RvOut :=
  let t := getThread s g
  let pc := t.pc.toNat
  if t.pc.getLsbD 0 then rvTrap 0 t.pc
  else match fetchAt s t pc with
    | none => rvTrap 1 (if inCodeRegion s pc 2 then t.pc + 2 else t.pc)
    | some (len, w) =>
      match rvDecode len w with
      | none => rvTrap 2 (openTval 2 (BitVec.ofNat 64 w))
      | some i => rvExec g len w i s

/-- THREAD_INSTRUCTION (R381, R389): the next instruction of thread `g`; one that traps takes its trap. -/
def execThreadInstruction (g : Nat) (s : State) : Result :=
  if !threadIssues s g || (getThread s g).interruptDue then .next s
  else match rvStep g s with
    | .ok s1 => .next s1
    | .error e => .next (takeTrap g e.1 e.2 s)

/-- THREAD_TRAP (R387, R389, R390): the interrupt that is due, or the trap of the next instruction. -/
def execThreadTrap (g : Nat) (s : State) : Result :=
  if !threadIssues s g then .next s
  else if (getThread s g).interruptDue then .next (takeTrap g externalInterrupt 0 s)
  else match rvStep g s with
    | .ok _ => .next s
    | .error e => .next (takeTrap g e.1 e.2 s)

end Sys2Proof.Machine
end

