-- ==== Sys2Proof/Machine/Dispatch.lean ====
section
/-! DEFINITION. The effect of a command on everything but the queue: one arm per command, each a call of its own meaning. -/

namespace Sys2Proof.Machine

def exec (i : Instr) (s : State) : Host.Outcome State Fault Refusal :=
  match i with
  | .registerWrite p off v => Sys2Proof.Machine.execRegisterWrite p off v s
  | .counterLowRead p off => Sys2Proof.Machine.execCounterLowRead p off s
  | .eventMaskWrite p off v => Sys2Proof.Machine.execEventMaskWrite p off v s
  | .inputCombinationAccept a b since => Sys2Proof.Machine.execInputCombinationAccept a b since s
  | .emsgDeclare path msg rx => Sys2Proof.Machine.execEmsgDeclare path msg rx s
  | .emsgClear path msg rx => Sys2Proof.Machine.execEmsgClear path msg rx s
  | .emsgDrillStart path msg rx => Sys2Proof.Machine.execEmsgDrillStart path msg rx s
  | .emsgDrillEnd path msg rx => Sys2Proof.Machine.execEmsgDrillEnd path msg rx s
  | .holdoverExpiry => Sys2Proof.Machine.execHoldoverExpiry s
  | .drillCtlStart p => Sys2Proof.Machine.execDrillCtlStart p s
  | .drillCtlStop p => Sys2Proof.Machine.execDrillCtlStop p s
  | .drillTimeout => Sys2Proof.Machine.execDrillTimeout s
  | .precedenceLevelArrive sub => Sys2Proof.Machine.execPrecedenceLevelArrive sub s
  | .entryDone => Sys2Proof.Machine.execEntryDone s
  | .parameterSweep lost => Sys2Proof.Machine.execParameterSweep lost s
  | .ethFrameReceive port f => Sys2Proof.Machine.execEthFrameReceive port f s
  | .pfcFrameRx port enables times => Sys2Proof.Machine.execPfcFrameRx port enables times s
  | .pfcPauseExpiry port => Sys2Proof.Machine.execPfcPauseExpiry port s
  | .pfcXoffRepeat port => Sys2Proof.Machine.execPfcXoffRepeat port s
  | .ingressLookup fp ecc => Sys2Proof.Machine.execIngressLookup fp ecc s
  | .cacheMissReturn fp n ecc => Sys2Proof.Machine.execCacheMissReturn fp n ecc s
  | .switchAdmit inputs => Sys2Proof.Machine.execSwitchAdmit inputs s
  | .spillReadbackSelect inp out cls => Sys2Proof.Machine.execSpillReadbackSelect inp out cls s
  | .spillReadReturn inp out cls ecc => Sys2Proof.Machine.execSpillReadReturn inp out cls ecc s
  | .slalomCellTime tags => Sys2Proof.Machine.execSlalomCellTime tags s
  | .lsStagingHead o tags => Sys2Proof.Machine.execLsStagingHead o tags s
  | .outputFrameBoundary o bad => Sys2Proof.Machine.execOutputFrameBoundary o bad s
  | .shaperConform o cls inst bad => Sys2Proof.Machine.execShaperConform o cls inst bad s
  | .egressPass q ecc => Sys2Proof.Machine.execEgressPass q ecc s
  | .tephraEntryWrite => Sys2Proof.Machine.execTephraEntryWrite s
  | .tephraCfgWrite p v => Sys2Proof.Machine.execTephraCfgWrite p v s
  | .cipherDispatch src => Sys2Proof.Machine.execCipherDispatch src s
  | .lsPassDispatch => Sys2Proof.Machine.execLsPassDispatch s
  | .passResume engine => Sys2Proof.Machine.execPassResume engine s
  | .cipherPassComplete engine => Sys2Proof.Machine.execCipherPassComplete engine s
  | .resultRelease slot => Sys2Proof.Machine.execResultRelease slot s
  | .preemptAbandon engine => Sys2Proof.Machine.execPreemptAbandon engine s
  | .keyLoad slot ecc => Sys2Proof.Machine.execKeyLoad slot ecc s
  | .ckptCommit slot => Sys2Proof.Machine.execCkptCommit slot s
  | .engineKatDone engine pass => Sys2Proof.Machine.execEngineKatDone engine pass s
  | .workingCopyRestore slot => Sys2Proof.Machine.execWorkingCopyRestore slot s
  | .txholdLimit port => Sys2Proof.Machine.execTxholdLimit port s
  | .recalDue group => Sys2Proof.Machine.execRecalDue group s
  | .recalStart group => Sys2Proof.Machine.execRecalStart group s
  | .recalVerified group => Sys2Proof.Machine.execRecalVerified group s
  | .recalTimeout group => Sys2Proof.Machine.execRecalTimeout group s
  | .recalDeferExpiry group => Sys2Proof.Machine.execRecalDeferExpiry group s
  | .synthLock group => Sys2Proof.Machine.execSynthLock group s
  | .synthLockTimeout group => Sys2Proof.Machine.execSynthLockTimeout group s
  | .synthRelockAttempt group => Sys2Proof.Machine.execSynthRelockAttempt group s
  | .ethLinkChange port up => Sys2Proof.Machine.execEthLinkChange port up s
  | .stationEntryWrite p hi => Sys2Proof.Machine.execStationEntryWrite p hi s
  | .stnLoRead p => Sys2Proof.Machine.execStnLoRead p s
  | .tsInfoPop p port => Sys2Proof.Machine.execTsInfoPop p port s
  | .wakePatternRx f => Sys2Proof.Machine.execWakePatternRx f s
  | .flpIndRead p => Sys2Proof.Machine.execFlpIndRead p s
  | .flpIndWrite p => Sys2Proof.Machine.execFlpIndWrite p s
  | .memberBlocksReturn => Sys2Proof.Machine.execMemberBlocksReturn s
  | .flpInsert p => Sys2Proof.Machine.execFlpInsert p s
  | .flpDelete p => Sys2Proof.Machine.execFlpDelete p s
  | .profileQuiesce p profile => Sys2Proof.Machine.execProfileQuiesce p profile s
  | .profileRun p profile => Sys2Proof.Machine.execProfileRun p profile s
  | .profileStopped profile => Sys2Proof.Machine.execProfileStopped profile s
  | .agingScanBucket => Sys2Proof.Machine.execAgingScanBucket s
  | .ageFifoPop p => Sys2Proof.Machine.execAgeFifoPop p s
  | .tmgIndRead p => Sys2Proof.Machine.execTmgIndRead p s
  | .tmgIndWrite p => Sys2Proof.Machine.execTmgIndWrite p s
  | .cphIndRead p => Sys2Proof.Machine.execCphIndRead p s
  | .nearFifoPop p => Sys2Proof.Machine.execNearFifoPop p s
  | .storCmdExecute qp r mapEcc => Sys2Proof.Machine.execStorCmdExecute qp r mapEcc s
  | .tcpSegmentRx => Sys2Proof.Machine.execTcpSegmentRx s
  | .rtoExpiry conn => Sys2Proof.Machine.execRtoExpiry conn s
  | .delayedAckExpiry conn => Sys2Proof.Machine.execDelayedAckExpiry conn s
  | .keepaliveProbe conn => Sys2Proof.Machine.execKeepaliveProbe conn s
  | .icrespRx conn => Sys2Proof.Machine.execIcrespRx conn s
  | .pduR2tRx conn => Sys2Proof.Machine.execPduR2tRx conn s
  | .c2hdataRx conn => Sys2Proof.Machine.execC2hdataRx conn s
  | .capsuleRespRx conn => Sys2Proof.Machine.execCapsuleRespRx conn s
  | .c2htermreqRx conn => Sys2Proof.Machine.execC2htermreqRx conn s
  | .storCmdTimeout cmd => Sys2Proof.Machine.execStorCmdTimeout cmd s
  | .connectOpenTimeout conn => Sys2Proof.Machine.execConnectOpenTimeout conn s
  | .connectionClosed conn => Sys2Proof.Machine.execConnectionClosed conn s
  | .journalRecordForm stream => Sys2Proof.Machine.execJournalRecordForm stream s
  | .journalFlush => Sys2Proof.Machine.execJournalFlush s
  | .journalWriteDone => Sys2Proof.Machine.execJournalWriteDone s
  | .anchorCommit => Sys2Proof.Machine.execAnchorCommit s
  | .autoPlayStart pc => Sys2Proof.Machine.execAutoPlayStart pc s
  | .playBlockOutput pc => Sys2Proof.Machine.execPlayBlockOutput pc s
  | .playRepeatEnd pc => Sys2Proof.Machine.execPlayRepeatEnd pc s
  | .playFadeEnd pc => Sys2Proof.Machine.execPlayFadeEnd pc s
  | .strIndRead p => Sys2Proof.Machine.execStrIndRead p s
  | .strIndWrite p => Sys2Proof.Machine.execStrIndWrite p s
  | .configRequest t type1 write reg be data tag => Sys2Proof.Machine.execConfigRequest t type1 write reg be data tag s
  | .memoryRequest r => Sys2Proof.Machine.execMemoryRequest r s
  | .vendorMessageRx fn type1 => Sys2Proof.Machine.execVendorMessageRx fn type1 s
  | .bmeClear fn => Sys2Proof.Machine.execBmeClear fn s
  | .bmeSet fn => Sys2Proof.Machine.execBmeSet fn s
  | .mseWrite fn on => Sys2Proof.Machine.execMseWrite fn on s
  | .d3hotEntry fn => Sys2Proof.Machine.execD3hotEntry fn s
  | .d0Return fn => Sys2Proof.Machine.execD0Return fn s
  | .vfFlr vf => Sys2Proof.Machine.execVfFlr vf s
  | .pfFlr => Sys2Proof.Machine.execPfFlr s
  | .flrComplete fn => Sys2Proof.Machine.execFlrComplete fn s
  | .flrTagQuarantine fn => Sys2Proof.Machine.execFlrTagQuarantine fn s
  | .vfEnableSet => Sys2Proof.Machine.execVfEnableSet s
  | .vfEnableClear => Sys2Proof.Machine.execVfEnableClear s
  | .numvfsWrite n => Sys2Proof.Machine.execNumvfsWrite n s
  | .slotControlWrite k v => Sys2Proof.Machine.execSlotControlWrite k v s
  | .readCompletionRx fn tag r => Sys2Proof.Machine.execReadCompletionRx fn tag r s
  | .completionTimeout tag => Sys2Proof.Machine.execCompletionTimeout tag s
  | .msixMaskWrite fn vec masked => Sys2Proof.Machine.execMsixMaskWrite fn vec masked s
  | .linkTrainingDone speed width flit => Sys2Proof.Machine.execLinkTrainingDone speed width flit s
  | .pcieLinkDown => Sys2Proof.Machine.execPcieLinkDown s
  | .perstAssert => Sys2Proof.Machine.execPerstAssert s
  | .perstDeassert => Sys2Proof.Machine.execPerstDeassert s
  | .hotReset => Sys2Proof.Machine.execHotReset s
  | .vfmIndRead p ecc => Sys2Proof.Machine.execVfmIndRead p ecc s
  | .vfmIndWrite p => Sys2Proof.Machine.execVfmIndWrite p s
  | .fnCtlQuiesce p inst => Sys2Proof.Machine.execFnCtlQuiesce p inst s
  | .fnCtlRun p inst => Sys2Proof.Machine.execFnCtlRun p inst s
  | .functionStopped inst => Sys2Proof.Machine.execFunctionStopped inst s
  | .quiesceTimeout inst => Sys2Proof.Machine.execQuiesceTimeout inst s
  | .dtuMissFill engine inst dva len write ecc => Sys2Proof.Machine.execDtuMissFill engine inst dva len write ecc s
  | .dtuUnmapComplete inst => Sys2Proof.Machine.execDtuUnmapComplete inst s
  | .sqTailWrite fn qp v => Sys2Proof.Machine.execSqTailWrite fn qp v s
  | .cqHeadWrite fn qp v => Sys2Proof.Machine.execCqHeadWrite fn qp v s
  | .cqArmWrite fn qp v => Sys2Proof.Machine.execCqArmWrite fn qp v s
  | .geyserWrite fn qp desc => Sys2Proof.Machine.execGeyserWrite fn qp desc s
  | .descriptorFetch qp r ctx => Sys2Proof.Machine.execDescriptorFetch qp r ctx s
  | .txFrame qp r => Sys2Proof.Machine.execTxFrame qp r s
  | .rxFrameDeliver hport => Sys2Proof.Machine.execRxFrameDeliver hport s
  | .descNop qp => Sys2Proof.Machine.execDescNop qp s
  | .moderationTimerExpiry qp => Sys2Proof.Machine.execModerationTimerExpiry qp s
  | .qctlResetMode0 p qp => Sys2Proof.Machine.execQctlResetMode0 p qp s
  | .qctlResetMode1 p qp => Sys2Proof.Machine.execQctlResetMode1 p qp s
  | .queueResetDrained qp ring => Sys2Proof.Machine.execQueueResetDrained qp ring s
  | .adminCfgWrite p svcRing v => Sys2Proof.Machine.execAdminCfgWrite p svcRing v s
  | .adminQueueConfig svcRing => Sys2Proof.Machine.execAdminQueueConfig svcRing s
  | .adminQueueReset svcRing => Sys2Proof.Machine.execAdminQueueReset svcRing s
  | .adminVfConfig svcRing r => Sys2Proof.Machine.execAdminVfConfig svcRing r s
  | .adminVfStateQuiesce svcRing => Sys2Proof.Machine.execAdminVfStateQuiesce svcRing s
  | .adminVfStateRun svcRing => Sys2Proof.Machine.execAdminVfStateRun svcRing s
  | .adminDtuMap svcRing => Sys2Proof.Machine.execAdminDtuMap svcRing s
  | .adminDtuUnmap svcRing => Sys2Proof.Machine.execAdminDtuUnmap svcRing s
  | .adminTableWrite svcRing r => Sys2Proof.Machine.execAdminTableWrite svcRing r s
  | .adminTableRead svcRing => Sys2Proof.Machine.execAdminTableRead svcRing s
  | .adminKeyInstall svcRing r => Sys2Proof.Machine.execAdminKeyInstall svcRing r s
  | .adminKeyRetire svcRing r => Sys2Proof.Machine.execAdminKeyRetire svcRing r s
  | .keyCommitDone => Sys2Proof.Machine.execKeyCommitDone s
  | .adminStorConnect svcRing r => Sys2Proof.Machine.execAdminStorConnect svcRing r s
  | .adminStorDisconnect svcRing => Sys2Proof.Machine.execAdminStorDisconnect svcRing s
  | .adminStorRaw svcRing r data => Sys2Proof.Machine.execAdminStorRaw svcRing r data s
  | .adminJnlRead svcRing mapEcc => Sys2Proof.Machine.execAdminJnlRead svcRing mapEcc s
  | .adminPlay svcRing => Sys2Proof.Machine.execAdminPlay svcRing s
  | .adminPlayStop svcRing => Sys2Proof.Machine.execAdminPlayStop svcRing s
  | .lsQueueRestore qp => Sys2Proof.Machine.execLsQueueRestore qp s
  | .channelStart p ch => Sys2Proof.Machine.execChannelStart p ch s
  | .channelResume p ch => Sys2Proof.Machine.execChannelResume p ch s
  | .channelAbort p ch => Sys2Proof.Machine.execChannelAbort p ch s
  | .channelAbortDone ch => Sys2Proof.Machine.execChannelAbortDone ch s
  | .channelPauseSet p ch => Sys2Proof.Machine.execChannelPauseSet p ch s
  | .channelPaused ch => Sys2Proof.Machine.execChannelPaused ch s
  | .channelPauseClear p ch => Sys2Proof.Machine.execChannelPauseClear p ch s
  | .insnNop ch => Sys2Proof.Machine.execInsnNop ch s
  | .insnMove ch => Sys2Proof.Machine.execInsnMove ch s
  | .insnFill ch => Sys2Proof.Machine.execInsnFill ch s
  | .dmaBurstComplete ch r => Sys2Proof.Machine.execDmaBurstComplete ch r s
  | .insnLoadi ch => Sys2Proof.Machine.execInsnLoadi ch s
  | .insnAdd ch => Sys2Proof.Machine.execInsnAdd ch s
  | .insnLoad ch r => Sys2Proof.Machine.execInsnLoad ch r s
  | .insnStore ch => Sys2Proof.Machine.execInsnStore ch s
  | .insnLoop ch => Sys2Proof.Machine.execInsnLoop ch s
  | .insnBranch ch => Sys2Proof.Machine.execInsnBranch ch s
  | .insnWait ch => Sys2Proof.Machine.execInsnWait ch s
  | .waitTimeExpiry ch => Sys2Proof.Machine.execWaitTimeExpiry ch s
  | .insnSignal ch => Sys2Proof.Machine.execInsnSignal ch s
  | .insnMode ch => Sys2Proof.Machine.execInsnMode ch s
  | .insnFence ch => Sys2Proof.Machine.execInsnFence ch s
  | .fenceDone ch r => Sys2Proof.Machine.execFenceDone ch r s
  | .insnHalt ch => Sys2Proof.Machine.execInsnHalt ch s
  | .haltDone ch => Sys2Proof.Machine.execHaltDone ch s
  | .dmaTimerExpiry n => Sys2Proof.Machine.execDmaTimerExpiry n s
  | .reqSetWrite p line => Sys2Proof.Machine.execReqSetWrite p line s
  | .pmemWordWrite p hi => Sys2Proof.Machine.execPmemWordWrite p hi s
  | .pmemHiRead p => Sys2Proof.Machine.execPmemHiRead p s
  | .poolRequest r => Sys2Proof.Machine.execPoolRequest r s
  | .poolWaitExpiry id => Sys2Proof.Machine.execPoolWaitExpiry id s
  | .bufferFree pool buffer => Sys2Proof.Machine.execBufferFree pool buffer s
  | .poolRebuild p pool => Sys2Proof.Machine.execPoolRebuild p pool s
  | .rebuildDone pool => Sys2Proof.Machine.execRebuildDone pool s
  | .poolIndRead p => Sys2Proof.Machine.execPoolIndRead p s
  | .poolIndWrite p => Sys2Proof.Machine.execPoolIndWrite p s
  | .loopCycleStart lp => Sys2Proof.Machine.execLoopCycleStart lp s
  | .sweepRx lp west frame => Sys2Proof.Machine.execSweepRx lp west frame s
  | .sweepReturn lp west frame => Sys2Proof.Machine.execSweepReturn lp west frame s
  | .tokenRx lp west => Sys2Proof.Machine.execTokenRx lp west s
  | .loopFrameRx lp west frame => Sys2Proof.Machine.execLoopFrameRx lp west frame s
  | .mgmtPlay lp msg => Sys2Proof.Machine.execMgmtPlay lp msg s
  | .mgmtPlayStop lp msg => Sys2Proof.Machine.execMgmtPlayStop lp msg s
  | .mgmtReset lp msg => Sys2Proof.Machine.execMgmtReset lp msg s
  | .breakRx lp west sender => Sys2Proof.Machine.execBreakRx lp west sender s
  | .wakeRx lp west sender reason => Sys2Proof.Machine.execWakeRx lp west sender reason s
  | .pdReqRx lp west seq => Sys2Proof.Machine.execPdReqRx lp west seq s
  | .pdRespRx lp west seq turnaround => Sys2Proof.Machine.execPdRespRx lp west seq turnaround s
  | .pdMeasure lp west => Sys2Proof.Machine.execPdMeasure lp west s
  | .loopLockLoss lp west => Sys2Proof.Machine.execLoopLockLoss lp west s
  | .loopUnwrap lp west => Sys2Proof.Machine.execLoopUnwrap lp west s
  | .masterListenTimeout lp => Sys2Proof.Machine.execMasterListenTimeout lp s
  | .loopWakeSend p lp v => Sys2Proof.Machine.execLoopWakeSend p lp v s
  | .loopIndRead p lp => Sys2Proof.Machine.execLoopIndRead p lp s
  | .loopIndWrite p lp => Sys2Proof.Machine.execLoopIndWrite p lp s
  | .gondolaMarkerRx g beat => Sys2Proof.Machine.execGondolaMarkerRx g beat s
  | .markerLockLoss g => Sys2Proof.Machine.execMarkerLockLoss g s
  | .fabricFrameRx g frame => Sys2Proof.Machine.execFabricFrameRx g frame s
  | .tlpFrameRx g frame => Sys2Proof.Machine.execTlpFrameRx g frame s
  | .topoRx g frame => Sys2Proof.Machine.execTopoRx g frame s
  | .slotFrameRx g frame => Sys2Proof.Machine.execSlotFrameRx g frame s
  | .replayTimerExpiry g ch => Sys2Proof.Machine.execReplayTimerExpiry g ch s
  | .retrainTimeout g => Sys2Proof.Machine.execRetrainTimeout g s
  | .retrainRelock g => Sys2Proof.Machine.execRetrainRelock g s
  | .peerDetect g => Sys2Proof.Machine.execPeerDetect g s
  | .trainingLock g => Sys2Proof.Machine.execTrainingLock g s
  | .trainingTimeout g => Sys2Proof.Machine.execTrainingTimeout g s
  | .verifyTimeout g => Sys2Proof.Machine.execVerifyTimeout g s
  | .verifyRetry g => Sys2Proof.Machine.execVerifyRetry g s
  | .topoPeriodicSend => Sys2Proof.Machine.execTopoPeriodicSend s
  | .mapHoldExpiry k => Sys2Proof.Machine.execMapHoldExpiry k s
  | .tlpHoldExpiry dst => Sys2Proof.Machine.execTlpHoldExpiry dst s
  | .casRemoveReq p => Sys2Proof.Machine.execCasRemoveReq p s
  | .casMemberReset p member => Sys2Proof.Machine.execCasMemberReset p member s
  | .threadInstruction g => Sys2Proof.Machine.execThreadInstruction g s
  | .threadEvwait g => Sys2Proof.Machine.execThreadEvwait g s
  | .evwaitDeadline g => Sys2Proof.Machine.execEvwaitDeadline g s
  | .threadEvpost g => Sys2Proof.Machine.execThreadEvpost g s
  | .threadTrap g => Sys2Proof.Machine.execThreadTrap g s
  | .threadMret g => Sys2Proof.Machine.execThreadMret g s
  | .svcTimerEvent g => Sys2Proof.Machine.execSvcTimerEvent g s
  | .threadRelease by_ target => Sys2Proof.Machine.execThreadRelease by_ target s
  | .threadHalt by_ target => Sys2Proof.Machine.execThreadHalt by_ target s
  | .threadHeld g => Sys2Proof.Machine.execThreadHeld g s
  | .threadReset by_ target => Sys2Proof.Machine.execThreadReset by_ target s
  | .threadResume by_ target => Sys2Proof.Machine.execThreadResume by_ target s
  | .setupRegisterWrite by_ target off v => Sys2Proof.Machine.execSetupRegisterWrite by_ target off v s
  | .faultFifoPop p => Sys2Proof.Machine.execFaultFifoPop p s
  | .wdogKick p => Sys2Proof.Machine.execWdogKick p s
  | .serviceWdogExpiry => Sys2Proof.Machine.execServiceWdogExpiry s
  | .craterWatchdogExpiry => Sys2Proof.Machine.execCraterWatchdogExpiry s
  | .lockstepMismatch => Sys2Proof.Machine.execLockstepMismatch s
  | .doubleTrap => Sys2Proof.Machine.execDoubleTrap s
  | .craterResume => Sys2Proof.Machine.execCraterResume s
  | .secureState ch => Sys2Proof.Machine.execSecureState ch s
  | .secureSlotGen ch => Sys2Proof.Machine.execSecureSlotGen ch s
  | .secureAttest ch nonce => Sys2Proof.Machine.execSecureAttest ch nonce s
  | .secureKeyopAck ch => Sys2Proof.Machine.execSecureKeyopAck ch s
  | .tamperAccept => Sys2Proof.Machine.execTamperAccept s
  | .zeroiseComplete => Sys2Proof.Machine.execZeroiseComplete s
  | .mbxWordCommit p ch hi => Sys2Proof.Machine.execMbxWordCommit p ch hi s
  | .mbxRelease p ch => Sys2Proof.Machine.execMbxRelease p ch s
  | .mbxDbSet p ch v => Sys2Proof.Machine.execMbxDbSet p ch v s
  | .mbxDbMaskWrite p ch v => Sys2Proof.Machine.execMbxDbMaskWrite p ch v s
  | .emptyEnWrite p ch => Sys2Proof.Machine.execEmptyEnWrite p ch s
  | .craterRequestRead => Sys2Proof.Machine.execCraterRequestRead s
  | .mctpWrite word => Sys2Proof.Machine.execMctpWrite word s
  | .mctpRead => Sys2Proof.Machine.execMctpRead s
  | .mctpRelease => Sys2Proof.Machine.execMctpRelease s
  | .recBegin bank len => Sys2Proof.Machine.execRecBegin bank len s
  | .recData offset bytes => Sys2Proof.Machine.execRecData offset bytes s
  | .recFinish => Sys2Proof.Machine.execRecFinish s
  | .recActivate => Sys2Proof.Machine.execRecActivate s
  | .recStatus => Sys2Proof.Machine.execRecStatus s
  | .mctpSignedReset msg => Sys2Proof.Machine.execMctpSignedReset msg s
  | .mctpPowerState target => Sys2Proof.Machine.execMctpPowerState target s
  | .smbErrsrcRead => Sys2Proof.Machine.execSmbErrsrcRead s
  | .smbArbitrationLost => Sys2Proof.Machine.execSmbArbitrationLost s
  | .smbSclTimeout => Sys2Proof.Machine.execSmbSclTimeout s
  | .imgWrite p => Sys2Proof.Machine.execImgWrite p s
  | .imgStagedChecked => Sys2Proof.Machine.execImgStagedChecked s
  | .imgPageWrite => Sys2Proof.Machine.execImgPageWrite s
  | .imgVerifyDone => Sys2Proof.Machine.execImgVerifyDone s
  | .imgActivate p => Sys2Proof.Machine.execImgActivate p s
  | .imgDeactivate p => Sys2Proof.Machine.execImgDeactivate p s
  | .imgVerify p => Sys2Proof.Machine.execImgVerify p s
  | .imgConfirm p => Sys2Proof.Machine.execImgConfirm p s
  | .imgAbort p => Sys2Proof.Machine.execImgAbort p s
  | .imageVerified => Sys2Proof.Machine.execImageVerified s
  | .emergencyPathReady => Sys2Proof.Machine.execEmergencyPathReady s
  | .configurationReady => Sys2Proof.Machine.execConfigurationReady s
  | .storeReady => Sys2Proof.Machine.execStoreReady s
  | .fullOperation => Sys2Proof.Machine.execFullOperation s
  | .startFailure section_ reason record => Sys2Proof.Machine.execStartFailure section_ reason record s
  | .startDeadline => Sys2Proof.Machine.execStartDeadline s
  | .vin12Good => Sys2Proof.Machine.execVin12Good s
  | .vin12Lost => Sys2Proof.Machine.execVin12Lost s
  | .vaux33Good => Sys2Proof.Machine.execVaux33Good s
  | .vaux33Lost => Sys2Proof.Machine.execVaux33Lost s
  | .resetRelease => Sys2Proof.Machine.execResetRelease s
  | .swresetFull p key => Sys2Proof.Machine.execSwresetFull p key s
  | .swresetService p key => Sys2Proof.Machine.execSwresetService p key s
  | .pwrCtlP0 p => Sys2Proof.Machine.execPwrCtlP0 p s
  | .pwrCtlP1 p => Sys2Proof.Machine.execPwrCtlP1 p s
  | .pwrCtlP2 p => Sys2Proof.Machine.execPwrCtlP2 p s
  | .pwrCtlP3 p => Sys2Proof.Machine.execPwrCtlP3 p s
  | .powerTransitionDone => Sys2Proof.Machine.execPowerTransitionDone s
  | .p3Wake source => Sys2Proof.Machine.execP3Wake source s
  | .thermalSample celsius => Sys2Proof.Machine.execThermalSample celsius s
  | .thermalHoldEnd => Sys2Proof.Machine.execThermalHoldEnd s
  | .thermalTripRelease => Sys2Proof.Machine.execThermalTripRelease s
  | .islandClockFault island => Sys2Proof.Machine.execIslandClockFault island s
  | .scrubSegmentDue => Sys2Proof.Machine.execScrubSegmentDue s
  | .scrubLineRead addr ecc cancelled => Sys2Proof.Machine.execScrubLineRead addr ecc cancelled s
  | .nvmLineWrite part line failures => Sys2Proof.Machine.execNvmLineWrite part line failures s
  | .owedMoveTick => Sys2Proof.Machine.execOwedMoveTick s
  | .timCfgWrite p v => Sys2Proof.Machine.execTimCfgWrite p v s
  | .ptpRateWrite p v => Sys2Proof.Machine.execPtpRateWrite p v s
  | .ptpStepWrite p hi => Sys2Proof.Machine.execPtpStepWrite p hi s
  | .slewEnd => Sys2Proof.Machine.execSlewEnd s
  | .ptpNsRead p => Sys2Proof.Machine.execPtpNsRead p s
  | .freewheelTimeout => Sys2Proof.Machine.execFreewheelTimeout s
  | .eventLogWrite => Sys2Proof.Machine.execEventLogWrite s
  | .logEntryLoad p index => Sys2Proof.Machine.execLogEntryLoad p index s
  | .telemetrySample r => Sys2Proof.Machine.execTelemetrySample r s
  | .telemetrySnapshot => Sys2Proof.Machine.execTelemetrySnapshot s
  | .swcIndWrite p => Sys2Proof.Machine.execSwcIndWrite p s
  | .swcIndRead p => Sys2Proof.Machine.execSwcIndRead p s
  | .deviceTimeSecond => Sys2Proof.Machine.execDeviceTimeSecond s
  | .blockLockRegained lp west => Sys2Proof.Machine.execBlockLockRegained lp west s
  | .wakeSignallingEnd lp => Sys2Proof.Machine.execWakeSignallingEnd lp s
  | .tamperTripCondition source on => Sys2Proof.Machine.execTamperTripCondition source on s

end Sys2Proof.Machine
end

