-- ==== Sys2Proof/Footprint.lean ====
section
/-! DEFINITION. The frame of each command: the registers it may write, the counters it may advance and the parts of the state it may
change. All else is unchanged by it. -/

namespace Sys2Proof.Machine

/-- The offsets of a register that comes once for each number. -/
def atIndex (f : Nat → Nat) (o : Nat) : Prop := ∃ n, o = f n

/-- The copies of a register that each view holds (R500). -/
def inViews (r o : Nat) : Prop := ∃ p, o = viewKey p r

/-- Consecutive words, in each view. -/
def inViewWords (r o : Nat) : Prop := ∃ p k, o = viewKey p (r + 4 * k)

/-- Consecutive words. -/
def inWords (r o : Nat) : Prop := ∃ k, o = r + 4 * k

/-- The parts of the state beside the registers, the counters and the queue of commands. -/
inductive Part where
  | now
  | latch
  | freeUsed
  | out
  | ident
  | alp
  | hep
  | vfm
  | wqm
  | dma
  | pool
  | eth
  | flp
  | tmg
  | swc
  | cph
  | str
  | loops
  | cas
  | svc
  | crt
  | mbx
  | pcr
  | img
  | mem
  | tim
  | sinks
  | svcMemory
  | devbuf
  | banks
deriving DecidableEq, Repr

/-- A part is the same in two states. Byte memories are compared by what each address reads. -/
def Part.same (p : Part) (s t : State) : Prop :=
  match p with
  | .now => t.now = s.now
  | .latch => t.latch = s.latch
  | .freeUsed => t.freeUsed = s.freeUsed
  | .out => t.out = s.out
  | .ident => t.ident = s.ident
  | .alp => t.alp = s.alp
  | .hep => t.hep = s.hep
  | .vfm => t.vfm = s.vfm
  | .wqm => t.wqm = s.wqm
  | .dma => t.dma = s.dma
  | .pool => t.pool = s.pool
  | .eth => t.eth = s.eth
  | .flp => t.flp = s.flp
  | .tmg => t.tmg = s.tmg
  | .swc => t.swc = s.swc
  | .cph => t.cph = s.cph
  | .str => t.str = s.str
  | .loops => t.loops = s.loops
  | .cas => t.cas = s.cas
  | .svc => { t.svc with scratch := s.svc.scratch } = s.svc
  | .crt => t.crt = s.crt
  | .mbx => t.mbx = s.mbx
  | .pcr => t.pcr = s.pcr
  | .img => t.img = s.img
  | .mem => { t.mem with svc := s.mem.svc, devbuf := s.mem.devbuf, banks := s.mem.banks } = s.mem
  | .tim => t.tim = s.tim
  | .sinks => t.sinks = s.sinks
  | .svcMemory => (∀ a, mget zeroByte t.mem.svc a = mget zeroByte s.mem.svc a)
      ∧ ∀ a, mget zeroByte t.svc.scratch a = mget zeroByte s.svc.scratch a
  | .devbuf => ∀ a, mget zeroByte t.mem.devbuf a = mget zeroByte s.mem.devbuf a
  | .banks => ∀ a, mget zeroByte t.mem.banks a = mget zeroByte s.mem.banks a

/-- The parts of the state that a command may change. -/
def partsOf (c : Instr) : List Part :=
  match c with
  | .registerWrite .. | .wakePatternRx .. | .memoryRequest .. | .mgmtPlay .. | .mgmtPlayStop .. | .mgmtReset ..
  | .wakeRx .. | .tlpFrameRx .. | .slotFrameRx .. | .threadInstruction .. | .threadTrap .. | .craterResume
  | .tamperAccept | .zeroiseComplete | .recActivate | .mctpSignedReset .. | .emergencyPathReady
  | .configurationReady | .startFailure .. | .startDeadline | .vin12Good | .vin12Lost | .vaux33Lost
  | .swresetFull .. | .powerTransitionDone | .p3Wake .. | .thermalSample .. | .islandClockFault .. =>
    [.now, .latch, .freeUsed, .out, .ident, .alp, .hep, .vfm, .wqm, .dma, .pool, .eth, .flp, .tmg, .swc, .cph, .str,
    .loops, .cas, .svc, .crt, .mbx, .pcr, .img, .mem, .tim, .sinks, .svcMemory, .devbuf]
  | .insnNop .. | .insnMove .. | .insnFill .. | .insnLoadi .. | .insnAdd .. | .insnLoop .. | .insnBranch ..
  | .insnWait .. | .insnSignal .. | .insnMode .. | .insnFence .. | .fenceDone .. | .insnHalt .. | .haltDone .. =>
    [.out, .hep, .dma, .cas, .svc]
  | .secureState .. | .secureSlotGen .. | .mbxWordCommit .. | .mbxRelease .. | .mbxDbSet .. | .mbxDbMaskWrite ..
  | .emptyEnWrite .. | .craterRequestRead | .mctpWrite .. | .mctpRelease => [.out, .hep, .cas, .svc, .mbx]
  | .inputCombinationAccept .. | .emsgDeclare .. | .emsgClear .. | .emsgDrillStart .. | .emsgDrillEnd ..
  | .retrainTimeout .. | .trainingTimeout .. | .mapHoldExpiry .. => [.now, .out, .alp, .hep, .cas, .crt, .pcr, .tim]
  | .txholdLimit .. | .recalStart .. | .recalVerified .. | .recalTimeout .. | .recalDeferExpiry .. | .synthLock ..
  | .synthLockTimeout .. | .synthRelockAttempt .. => [.now, .out, .hep, .eth, .swc, .cas]
  | .threadEvwait .. | .threadEvpost .. | .threadMret .. | .threadRelease .. | .threadHalt .. | .threadHeld ..
  | .setupRegisterWrite .. | .wdogKick .. => [.svc]
  | .eventMaskWrite .. | .vendorMessageRx .. | .bmeClear .. | .bmeSet .. | .d3hotEntry .. | .d0Return ..
  | .msixMaskWrite .. => [.out, .hep, .cas]
  | .channelStart .. | .channelResume .. | .channelAbort .. | .channelAbortDone .. | .channelPauseSet ..
  | .channelPaused .. | .channelPauseClear .. => [.dma]
  | .functionStopped .. | .dtuUnmapComplete .. | .adminVfStateQuiesce .. | .adminVfStateRun .. | .adminDtuMap ..
  | .adminDtuUnmap .. => [.out, .hep, .vfm, .wqm, .cas, .svc, .svcMemory]
  | .adminVfConfig .. | .adminTableWrite .. | .adminKeyInstall .. | .adminKeyRetire .. | .adminStorConnect ..
  | .adminStorRaw .. => [.freeUsed, .out, .hep, .vfm, .wqm, .flp, .tmg, .swc, .str, .cas, .svc, .crt, .svcMemory]
  | .flpIndRead .. | .flpIndWrite .. | .flpInsert .. | .flpDelete .. | .agingScanBucket => [.out, .hep, .flp, .cas]
  | .icrespRx .. | .pduR2tRx .. | .c2hdataRx .. | .capsuleRespRx .. | .c2htermreqRx .. =>
    [.out, .hep, .vfm, .wqm, .flp, .cph, .str, .cas, .svc, .svcMemory]
  | .flrTagQuarantine .. | .linkTrainingDone .. | .replayTimerExpiry .. | .retrainRelock .. | .verifyTimeout .. =>
    [.now, .out, .hep, .cas]
  | .vfEnableSet | .descriptorFetch .. | .adminStorDisconnect .. | .adminPlay .. | .adminPlayStop .. =>
    [.out, .hep, .wqm, .str, .cas, .svc, .svcMemory]
  | .imgWrite .. | .imgActivate .. | .imgDeactivate .. | .imgVerify .. | .imgAbort .. => [.img]
  | .spillReadbackSelect .. | .tephraCfgWrite .. | .swcIndWrite .. | .swcIndRead .. => [.swc]
  | .memberBlocksReturn | .profileQuiesce .. | .profileRun .. | .profileStopped .. => [.flp]
  | .rtoExpiry .. | .keepaliveProbe .. | .connectOpenTimeout .. | .journalFlush =>
    [.now, .out, .hep, .vfm, .wqm, .flp, .cph, .str, .cas, .svc, .svcMemory]
  | .configRequest .. | .pcieLinkDown | .perstAssert | .hotReset =>
    [.latch, .out, .alp, .hep, .vfm, .wqm, .dma, .str, .cas, .svc, .crt, .mbx, .pcr, .tim, .svcMemory]
  | .cqHeadWrite .. | .descNop .. | .adminQueueConfig .. | .adminQueueReset .. => [.out, .hep, .wqm, .cas, .svc, .svcMemory]
  | .qctlResetMode0 .. | .qctlResetMode1 .. | .adminCfgWrite .. | .lsQueueRestore .. => [.wqm]
  | .tokenRx .. | .breakRx .. | .loopLockLoss .. | .loopWakeSend .. => [.out, .loops]
  | .pdRespRx .. | .loopIndRead .. | .loopIndWrite .. | .blockLockRegained .. => [.loops]
  | .mctpRead | .recStatus | .smbErrsrcRead | .smbArbitrationLost => [.out, .mbx]
  | .pwrCtlP0 .. | .pwrCtlP1 .. | .pwrCtlP2 .. | .pwrCtlP3 .. => [.out, .hep, .cas, .pcr]
  | .journalWriteDone | .strIndRead .. | .strIndWrite .. => [.str]
  | .mseWrite .. | .numvfsWrite .. | .perstDeassert => [.hep]
  | .sqTailWrite .. | .cqArmWrite .. | .geyserWrite .. => [.out, .hep, .wqm, .cas]
  | .poolRebuild .. | .poolIndRead .. | .poolIndWrite .. => [.pool]
  | .gondolaMarkerRx .. | .markerLockLoss .. | .topoRx .. => [.out, .alp, .hep, .cas, .crt, .pcr, .tim]
  | .craterWatchdogExpiry | .lockstepMismatch | .doubleTrap => [.latch, .out, .hep, .cas, .crt, .mbx, .pcr, .tim]
  | .vaux33Good | .resetRelease | .thermalTripRelease => [.now, .out, .hep, .cas, .crt, .pcr, .tim]
  | .ptpRateWrite .. | .ptpStepWrite .. | .eventLogWrite => [.out, .hep, .cas, .tim]
  | .holdoverExpiry | .drillTimeout => [.now, .out, .alp, .hep, .cas, .crt, .tim]
  | .pfcFrameRx .. | .stationEntryWrite .. => [.eth]
  | .pfcPauseExpiry .. | .recalDue .. => [.now, .eth]
  | .ingressLookup .. | .cacheMissReturn .. => [.freeUsed, .out, .hep, .flp, .tmg, .swc, .cph, .cas, .tim]
  | .switchAdmit .. | .lsStagingHead .. => [.out, .hep, .flp, .swc, .cas]
  | .cipherDispatch .. | .lsPassDispatch => [.out, .hep, .cph, .cas]
  | .passResume .. | .workingCopyRestore .. => [.cph]
  | .cipherPassComplete .. | .preemptAbandon .. => [.now, .out, .hep, .cph, .cas]
  | .ckptCommit .. | .keyCommitDone => [.out, .hep, .wqm, .cph, .cas, .svc, .crt, .svcMemory]
  | .stnLoRead .. | .pmemHiRead .. => [.out]
  | .tmgIndRead .. | .tmgIndWrite .. => [.tmg]
  | .cphIndRead .. | .logEntryLoad .. => []
  | .storCmdExecute .. | .adminJnlRead .. => [.freeUsed, .out, .hep, .vfm, .wqm, .flp, .cph, .str, .cas, .svc, .tim, .svcMemory]
  | .flrComplete .. | .quiesceTimeout .. => [.now, .out, .hep, .vfm, .wqm, .cas, .svc, .svcMemory]
  | .fnCtlQuiesce .. | .fnCtlRun .. => [.vfm]
  | .dmaBurstComplete .. | .insnStore .. => [.out, .hep, .vfm, .dma, .cas, .svc, .svcMemory, .devbuf]
  | .poolRequest .. | .bufferFree .. => [.freeUsed, .out, .hep, .pool, .cas, .tim]
  | .poolWaitExpiry .. | .rebuildDone .. => [.now, .freeUsed, .out, .hep, .pool, .cas, .tim]
  | .pdMeasure .. | .wakeSignallingEnd .. => [.now, .out, .loops]
  | .trainingLock .. | .verifyRetry .. => [.now, .out, .cas, .crt]
  | .casRemoveReq .. | .casMemberReset .. => [.out, .cas]
  | .evwaitDeadline .. | .svcTimerEvent .. => [.now, .svc]
  | .imgStagedChecked | .imgVerifyDone => [.now, .out, .hep, .cas, .img]
  | .scrubSegmentDue | .owedMoveTick => [.now, .mem]
  | .timCfgWrite .. | .telemetrySample .. => [.tim]
  | .counterLowRead .. => [.latch, .out, .eth, .flp, .cph, .svc]
  | .drillCtlStart .. => [.out, .alp, .hep, .cas]
  | .drillCtlStop .. => [.out, .alp, .hep, .cas, .crt, .tim]
  | .precedenceLevelArrive .. =>
    [.out, .alp, .hep, .wqm, .eth, .flp, .swc, .cph, .str, .loops, .cas, .svc, .img, .mem, .svcMemory]
  | .entryDone => [.out, .alp, .hep, .str, .cas, .tim]
  | .parameterSweep .. => [.freeUsed, .out, .hep, .vfm, .wqm, .tmg, .str, .cas, .svc, .tim, .svcMemory]
  | .ethFrameReceive .. => [.now, .eth, .flp, .swc]
  | .pfcXoffRepeat .. => [.now, .out, .eth]
  | .spillReadReturn .. => [.now, .freeUsed, .out, .hep, .swc, .cas, .tim]
  | .slalomCellTime .. => [.out, .hep, .eth, .flp, .swc, .cas]
  | .outputFrameBoundary .. => [.out, .hep, .eth, .tmg, .swc, .cph, .loops, .cas, .sinks]
  | .shaperConform .. => [.now, .out, .hep, .tmg, .cas]
  | .egressPass .. => [.freeUsed, .out, .hep, .eth, .flp, .tmg, .swc, .cph, .cas, .tim]
  | .tephraEntryWrite => [.out, .hep, .swc, .cas]
  | .resultRelease .. => [.out, .hep, .flp, .swc, .cph, .cas]
  | .keyLoad .. => [.freeUsed, .out, .hep, .cph, .cas, .tim]
  | .engineKatDone .. => [.out, .hep, .cph, .cas, .crt, .tim]
  | .ethLinkChange .. => [.out, .hep, .eth, .swc, .cas]
  | .tsInfoPop .. => [.latch, .out, .eth]
  | .ageFifoPop .. => [.out, .flp]
  | .nearFifoPop .. => [.out, .cph]
  | .tcpSegmentRx => [.out, .hep, .vfm, .wqm, .flp, .cph, .str, .cas, .svc, .sinks, .svcMemory]
  | .delayedAckExpiry .. => [.now, .flp, .str]
  | .storCmdTimeout .. => [.now, .out, .hep, .vfm, .wqm, .str, .cas, .svc, .svcMemory]
  | .connectionClosed .. => [.out, .hep, .wqm, .flp, .str, .cas, .svc, .svcMemory]
  | .journalRecordForm .. => [.out, .hep, .cph, .str, .loops, .cas, .sinks]
  | .anchorCommit => [.now, .out, .hep, .cph, .str, .cas]
  | .autoPlayStart .. => [.now, .str]
  | .playBlockOutput .. => [.out, .hep, .wqm, .flp, .str, .loops, .cas, .svc, .svcMemory]
  | .playRepeatEnd .. => [.out, .hep, .flp, .str, .cas]
  | .playFadeEnd .. => [.now, .out, .hep, .flp, .str, .cas]
  | .vfFlr .. => [.latch, .out, .hep, .vfm, .wqm, .dma, .str, .cas, .svc, .crt, .pcr, .svcMemory]
  | .pfFlr => [.latch, .out, .hep, .vfm, .wqm, .dma, .str, .cas, .svc, .crt, .mbx, .pcr, .svcMemory]
  | .vfEnableClear => [.latch, .out, .hep, .vfm, .wqm, .dma, .str, .cas, .svc, .crt, .svcMemory]
  | .slotControlWrite .. => [.latch, .out, .hep, .vfm, .wqm, .dma, .str, .cas, .svc, .crt, .mbx, .svcMemory]
  | .readCompletionRx .. =>
    [.freeUsed, .out, .hep, .vfm, .wqm, .dma, .flp, .tmg, .swc, .cph, .str, .cas, .svc, .crt, .mbx, .svcMemory, .devbuf]
  | .completionTimeout .. =>
    [.now, .freeUsed, .out, .hep, .vfm, .wqm, .dma, .flp, .tmg, .swc, .cph, .str, .cas, .svc, .crt, .mbx, .svcMemory,
    .devbuf]
  | .vfmIndRead .. => [.freeUsed, .out, .hep, .vfm, .wqm, .cas, .svc, .tim, .svcMemory]
  | .vfmIndWrite .. => [.out, .hep, .vfm, .wqm, .cas]
  | .dtuMissFill .. => [.freeUsed, .out, .hep, .vfm, .cas, .tim]
  | .txFrame .. => [.out, .hep, .wqm, .dma, .flp, .cas, .svc, .svcMemory]
  | .rxFrameDeliver .. => [.out, .hep, .wqm, .cas, .svc, .sinks, .svcMemory]
  | .moderationTimerExpiry .. => [.now, .out, .hep, .wqm, .cas]
  | .queueResetDrained .. => [.now, .freeUsed, .out, .hep, .wqm, .str, .cas, .svc, .svcMemory]
  | .adminTableRead .. => [.out, .hep, .wqm, .flp, .tmg, .swc, .str, .cas, .svc, .svcMemory]
  | .insnLoad .. => [.out, .hep, .vfm, .dma, .cas, .svc]
  | .waitTimeExpiry .. => [.now, .dma]
  | .dmaTimerExpiry .. => [.now, .out, .hep, .dma, .cas]
  | .reqSetWrite .. => [.out, .hep, .dma, .cas]
  | .pmemWordWrite .. => [.freeUsed, .dma]
  | .loopCycleStart .. => [.now, .freeUsed, .out, .hep, .dma, .cph, .loops, .cas]
  | .sweepRx .. => [.freeUsed, .out, .hep, .dma, .cph, .loops, .cas, .tim]
  | .sweepReturn .. => [.out, .hep, .loops, .cas]
  | .loopFrameRx .. => [.out, .flp, .loops]
  | .pdReqRx .. => [.freeUsed, .out]
  | .loopUnwrap .. => [.now, .loops]
  | .masterListenTimeout .. => [.now, .out, .hep, .loops, .cas, .crt]
  | .fabricFrameRx .. => [.out, .swc, .cas]
  | .peerDetect .. => [.cas]
  | .topoPeriodicSend => [.out, .cas, .crt]
  | .tlpHoldExpiry .. => [.now, .out, .cas]
  | .threadReset .. => [.dma, .svc]
  | .threadResume .. => [.svc, .svcMemory]
  | .faultFifoPop .. => [.out, .svc]
  | .serviceWdogExpiry => [.now, .latch, .out, .hep, .vfm, .wqm, .dma, .str, .cas, .svc, .crt, .mbx, .pcr, .tim, .svcMemory]
  | .secureAttest .. => [.out, .hep, .vfm, .cas, .svc, .crt, .mbx]
  | .secureKeyopAck .. => [.out, .hep, .cas, .svc, .crt, .mbx]
  | .recBegin .. => [.out, .mbx, .img]
  | .recData .. => [.out, .mbx, .img, .banks]
  | .recFinish => [.out, .hep, .cas, .mbx, .img]
  | .mctpPowerState .. => [.out, .hep, .cas, .mbx, .pcr]
  | .smbSclTimeout => [.mbx]
  | .imgPageWrite => [.now, .out, .hep, .cas, .img, .banks]
  | .imgConfirm .. => [.out, .hep, .cas, .img]
  | .imageVerified => [.now, .out, .hep, .cas, .crt, .pcr, .img, .tim]
  | .storeReady => [.now, .out, .hep, .cph, .cas, .crt, .pcr, .tim]
  | .fullOperation => [.now, .out, .hep, .pool, .cas, .pcr]
  | .swresetService .. => [.latch, .out, .hep, .vfm, .wqm, .dma, .str, .cas, .svc, .crt, .mbx, .pcr, .tim, .svcMemory]
  | .thermalHoldEnd => [.now, .out, .hep, .dma, .eth, .flp, .swc, .cph, .cas, .svc, .pcr, .tim]
  | .scrubLineRead .. => [.out, .hep, .cas, .mem, .tim]
  | .nvmLineWrite .. => [.out, .hep, .cas, .mem]
  | .slewEnd => [.now, .tim]
  | .ptpNsRead .. => [.latch, .out]
  | .freewheelTimeout => [.now, .out, .hep, .cas, .tim]
  | .telemetrySnapshot => [.now, .out, .hep, .cas, .svc, .tim, .svcMemory]
  | .deviceTimeSecond => [.now, .out, .hep, .dma, .cas, .tim]
  | .tamperTripCondition .. => [.crt]

/-- The registers that a command may write: its destinations and the event registers it raises (R14). A reset and a write
command that names its register may write any. -/
def regsOf (c : Instr) (o : Nat) : Prop :=
  match c with
  | .ethFrameReceive .. | .pfcFrameRx .. | .pfcPauseExpiry .. | .pfcXoffRepeat .. | .spillReadbackSelect ..
  | .passResume .. | .workingCopyRestore .. | .recalDue .. | .tsInfoPop .. | .memberBlocksReturn
  | .profileStopped .. | .ageFifoPop .. | .nearFifoPop .. | .delayedAckExpiry .. | .journalWriteDone
  | .autoPlayStart .. | .vendorMessageRx .. | .bmeClear .. | .bmeSet .. | .mseWrite .. | .d3hotEntry .. | .d0Return ..
  | .numvfsWrite .. | .msixMaskWrite .. | .perstDeassert | .cqArmWrite .. | .moderationTimerExpiry ..
  | .lsQueueRestore .. | .channelStart .. | .channelPauseSet .. | .channelPaused .. | .channelPauseClear ..
  | .waitTimeExpiry .. | .tokenRx .. | .loopFrameRx .. | .breakRx .. | .pdReqRx .. | .pdRespRx .. | .pdMeasure ..
  | .loopLockLoss .. | .loopUnwrap .. | .fabricFrameRx .. | .peerDetect .. | .trainingLock .. | .verifyRetry ..
  | .topoPeriodicSend | .tlpHoldExpiry .. | .casRemoveReq .. | .casMemberReset .. | .threadEvwait ..
  | .evwaitDeadline .. | .threadEvpost .. | .threadMret .. | .svcTimerEvent .. | .threadHeld .. | .faultFifoPop ..
  | .wdogKick .. | .secureState .. | .secureSlotGen .. | .secureKeyopAck .. | .mbxWordCommit .. | .mbxRelease ..
  | .mbxDbSet .. | .mbxDbMaskWrite .. | .emptyEnWrite .. | .craterRequestRead | .mctpWrite .. | .mctpRead
  | .mctpRelease | .recBegin .. | .recData .. | .recStatus | .smbErrsrcRead | .smbArbitrationLost
  | .smbSclTimeout | .scrubSegmentDue | .owedMoveTick | .slewEnd | .ptpNsRead .. | .telemetrySample ..
  | .blockLockRegained .. | .wakeSignallingEnd .. | .tamperTripCondition .. => False
  | .registerWrite .. | .eventMaskWrite .. | .wakePatternRx .. | .configRequest .. | .memoryRequest ..
  | .slotControlWrite .. | .pcieLinkDown | .perstAssert | .hotReset | .mgmtPlay .. | .mgmtPlayStop ..
  | .mgmtReset .. | .wakeRx .. | .tlpFrameRx .. | .slotFrameRx .. | .threadInstruction .. | .threadTrap ..
  | .craterResume | .tamperAccept | .zeroiseComplete | .recActivate | .mctpSignedReset ..
  | .emergencyPathReady | .configurationReady | .startFailure .. | .startDeadline | .vin12Good
  | .vin12Lost | .vaux33Lost | .swresetFull .. | .powerTransitionDone | .p3Wake .. | .thermalSample ..
  | .islandClockFault .. => True
  | .ckptCommit .. | .connectionClosed .. | .vfEnableSet | .functionStopped .. | .dtuUnmapComplete ..
  | .cqHeadWrite .. | .descriptorFetch .. | .txFrame .. | .rxFrameDeliver .. | .descNop .. | .adminQueueConfig ..
  | .adminQueueReset .. | .adminVfStateQuiesce .. | .adminVfStateRun .. | .adminDtuMap .. | .adminDtuUnmap ..
  | .keyCommitDone | .adminStorDisconnect .. | .adminPlay .. | .adminPlayStop .. => o = rWQM_ADMIN_CFG ∨ o = rWQM_EVENT
  | .insnNop .. | .insnMove .. | .insnFill .. | .insnLoadi .. | .insnAdd .. | .insnLoop .. | .insnBranch ..
  | .insnWait .. | .insnMode .. | .insnFence .. | .fenceDone .. | .insnHalt .. => inWords (rDMA_FAULTED 0) o ∨ o = rDMA_EVENT
  | .txholdLimit .. | .recalStart .. | .recalVerified .. | .recalTimeout .. | .recalDeferExpiry .. | .synthLock ..
  | .synthLockTimeout .. | .synthRelockAttempt .. | .ethLinkChange .. => o = rETH_EVENT ∨ o = rSWC_EVENT
  | .tcpSegmentRx | .rtoExpiry .. | .keepaliveProbe .. | .icrespRx .. | .pduR2tRx .. | .c2hdataRx ..
  | .capsuleRespRx .. | .c2htermreqRx .. | .connectOpenTimeout .. =>
    o = rCPH_EVENT ∨ o = rSTR_EVENT ∨ o = rVFM_DTU_FAULT ∨ o = rVFM_DTU_FAULT_ADDR ∨ o = rVFM_EVENT ∨ o = rWQM_ADMIN_CFG ∨
    o = rWQM_EVENT ∨ o = rVFM_DTU_FAULT_ADDR + 4
  | .adminVfConfig .. | .adminTableWrite .. | .adminKeyInstall .. | .adminKeyRetire .. | .adminStorConnect ..
  | .adminStorRaw .. =>
    o = rFLP_EVENT ∨ o = rVFM_DTU_FAULT ∨ o = rVFM_DTU_FAULT_ADDR ∨ o = rVFM_EVENT ∨ o = rWQM_ADMIN_CFG ∨ o = rWQM_EVENT ∨
    o = rVFM_DTU_FAULT_ADDR + 4
  | .gondolaMarkerRx .. | .markerLockLoss .. | .topoRx .. | .retrainTimeout .. | .trainingTimeout .. =>
    o = rALP_EVENT ∨ o = rCAS_EVENT ∨ o = rHEP_EVENT ∨ o = rPCR_EVENT ∨ o = rTIM_EVENT
  | .threadRelease .. | .threadHalt .. | .threadReset .. | .threadResume .. | .setupRegisterWrite .. =>
    inViews rSVC_THREAD_CTL o
  | .imgWrite .. | .imgActivate .. | .imgDeactivate .. | .imgVerify .. | .imgAbort .. => o = rPCR_IMG_CTL
  | .emsgDeclare .. | .emsgClear .. | .emsgDrillStart .. | .emsgDrillEnd .. =>
    o = rALP_EVENT ∨ o = rALP_LAST_REJECT ∨ o = rPCR_EVENT ∨ o = rTIM_EVENT
  | .cipherDispatch .. | .lsPassDispatch | .cipherPassComplete .. | .preemptAbandon .. => o = rCPH_EVENT
  | .flpIndRead .. | .flpIndWrite .. | .flpInsert .. | .flpDelete .. =>
    o = rFLP_EVENT ∨ inViews rFLP_IND_CTL o ∨ inViews rFLP_IND_RESULT o ∨ inViewWords (rFLP_IND_DATA 0) o
  | .poolRequest .. | .poolWaitExpiry .. | .bufferFree .. | .rebuildDone .. =>
    o = rMEM_ERR ∨ o = rMEM_ERR_ADDR ∨ o = rMEM_EVENT ∨ o = rPOOL_EVENT ∨ o = rTIM_EVENT ∨ o = rMEM_ERR_ADDR + 4
  | .pwrCtlP0 .. | .pwrCtlP1 .. | .pwrCtlP2 .. | .pwrCtlP3 .. => o = rPCR_EVENT ∨ o = rPCR_PWR_CTL
  | .holdoverExpiry | .drillCtlStop .. | .drillTimeout => o = rALP_EVENT ∨ o = rTIM_EVENT
  | .vfFlr .. | .pfFlr | .vfEnableClear =>
    inWords (rDMA_FAULTED 0) o ∨ o = rWQM_ADMIN_CFG ∨ o = rWQM_EVENT ∨ o = rWQM_SVCQ_CFG
  | .channelResume .. | .channelAbort .. | .channelAbortDone .. => inWords (rDMA_FAULTED 0) o
  | .dmaBurstComplete .. | .insnLoad .. | .insnStore .. =>
    inWords (rDMA_FAULTED 0) o ∨ o = rDMA_EVENT ∨ o = rVFM_DTU_FAULT ∨ o = rVFM_DTU_FAULT_ADDR ∨ o = rVFM_EVENT ∨ o =
    rVFM_DTU_FAULT_ADDR + 4
  | .dmaTimerExpiry .. | .reqSetWrite .. | .deviceTimeSecond => o = rDMA_EVENT
  | .replayTimerExpiry .. | .retrainRelock .. | .verifyTimeout .. => o = rCAS_EVENT
  | .craterWatchdogExpiry | .lockstepMismatch | .doubleTrap => o = rCRT_EVENT ∨ o = rTIM_EVENT
  | .imgStagedChecked | .imgVerifyDone | .imgConfirm .. => o = rPCR_IMG_CTL ∨ o = rPCR_IMG_EVENT
  | .vaux33Good | .resetRelease | .thermalTripRelease => o = rCRT_EVENT ∨ o = rPCR_EVENT ∨ o = rTIM_EVENT
  | .inputCombinationAccept .. | .mapHoldExpiry .. => o = rALP_EVENT ∨ o = rPCR_EVENT ∨ o = rTIM_EVENT
  | .ingressLookup .. | .cacheMissReturn .. =>
    o = rCPH_EVENT ∨ o = rFLP_EVENT ∨ o = rMEM_ERR ∨ o = rMEM_ERR_ADDR ∨ o = rMEM_EVENT ∨ o = rTIM_EVENT ∨ o = rTMG_EVENT
    ∨ o = rMEM_ERR_ADDR + 4
  | .slalomCellTime .. | .lsStagingHead .. => o = rFLP_EVENT ∨ o = rSWC_EVENT
  | .keyLoad .. | .scrubLineRead .. =>
    o = rMEM_ERR ∨ o = rMEM_ERR_ADDR ∨ o = rMEM_EVENT ∨ o = rTIM_EVENT ∨ o = rMEM_ERR_ADDR + 4
  | .engineKatDone .. | .storeReady => o = rCPH_EVENT ∨ o = rCRT_EVENT ∨ o = rTIM_EVENT
  | .profileQuiesce .. | .profileRun .. => o = rFLP_PROF_CTL ∨ inViews rFLP_IND_CTL o
  | .tmgIndRead .. | .tmgIndWrite .. => inViews rTMG_IND_CTL o ∨ inViewWords (rTMG_IND_DATA 0) o
  | .storCmdExecute .. | .adminJnlRead .. =>
    o = rCPH_EVENT ∨ o = rMEM_ERR ∨ o = rMEM_ERR_ADDR ∨ o = rMEM_EVENT ∨ o = rSTR_EVENT ∨ o = rTIM_EVENT ∨ o =
    rVFM_DTU_FAULT ∨ o = rVFM_DTU_FAULT_ADDR ∨ o = rVFM_EVENT ∨ o = rWQM_ADMIN_CFG ∨ o = rWQM_EVENT ∨ o = rMEM_ERR_ADDR +
    4 ∨ o = rVFM_DTU_FAULT_ADDR + 4
  | .journalRecordForm .. | .anchorCommit => o = rCPH_EVENT ∨ o = rSTR_EVENT
  | .playRepeatEnd .. | .playFadeEnd .. => o = rSTR_EVENT
  | .strIndRead .. | .strIndWrite .. => inViews rSTR_IND_CTL o ∨ inViewWords (rSTR_IND_DATA 0) o
  | .flrTagQuarantine .. | .linkTrainingDone .. => o = rHEP_EVENT
  | .fnCtlQuiesce .. | .fnCtlRun .. => o = rVFM_FN_CTL
  | .sqTailWrite .. | .geyserWrite .. => o = rWQM_EVENT
  | .qctlResetMode0 .. | .qctlResetMode1 .. => o = rWQM_QCTL
  | .poolIndRead .. | .poolIndWrite .. => inViews rPOOL_IND_CTL o ∨ inViewWords (rPOOL_IND_DATA 0) o
  | .loopIndRead .. | .loopIndWrite .. => (∃ n, inViews (rLOOP_IND_CTL n) o) ∨ (∃ n, inViewWords (rLOOP_IND_DATA0 n) o)
  | .recFinish | .imgPageWrite => o = rPCR_IMG_EVENT
  | .mctpPowerState .. | .fullOperation => o = rPCR_EVENT
  | .freewheelTimeout | .eventLogWrite => o = rTIM_EVENT
  | .swcIndWrite .. | .swcIndRead .. => inViews rSWC_IND_CTL o ∨ inViewWords rSWC_IND_DATA_LO o
  | .counterLowRead .. => inViews rDMA_PMEM_ADDR o ∨ inViews rETH_STN_HI o ∨ inViews rETH_STN_LO o
  | .drillCtlStart .. => o = rALP_EVENT
  | .precedenceLevelArrive .. =>
    o = rCPH_EVENT ∨ o = rETH_EVENT ∨ o = rSTR_EVENT ∨ o = rSWC_EVENT ∨ o = rWQM_ADMIN_CFG ∨ o = rWQM_EVENT
  | .entryDone => o = rALP_ENTRY_LAT ∨ o = rALP_ENTRY_TIME ∨ o = rALP_EVENT ∨ o = rTIM_EVENT ∨ o = rALP_ENTRY_TIME + 4
  | .parameterSweep .. =>
    o = rMEM_ERR ∨ o = rMEM_ERR_ADDR ∨ o = rMEM_EVENT ∨ o = rTIM_EVENT ∨ o = rVFM_EVENT ∨ o = rWQM_ADMIN_CFG ∨ o =
    rWQM_EVENT ∨ o = rMEM_ERR_ADDR + 4
  | .switchAdmit .. => o = rSWC_EVENT
  | .spillReadReturn .. =>
    o = rMEM_ERR ∨ o = rMEM_ERR_ADDR ∨ o = rMEM_EVENT ∨ o = rSWC_EVENT ∨ o = rTIM_EVENT ∨ o = rMEM_ERR_ADDR + 4
  | .outputFrameBoundary .. => o = rETH_EVENT ∨ o = rSWC_EVENT ∨ o = rTMG_EVENT
  | .shaperConform .. => o = rTMG_EVENT
  | .egressPass .. =>
    o = rCPH_EVENT ∨ o = rFLP_EVENT ∨ o = rMEM_ERR ∨ o = rMEM_ERR_ADDR ∨ o = rMEM_EVENT ∨ o = rSWC_EVENT ∨ o = rTIM_EVENT
    ∨ o = rTMG_EVENT ∨ o = rMEM_ERR_ADDR + 4
  | .tephraEntryWrite => o = rSWC_EVENT ∨ o = rSWC_TEPHRA_PROD
  | .tephraCfgWrite .. => o = rSWC_TEPHRA_CFG ∨ o = rSWC_TEPHRA_PROD
  | .resultRelease .. => o = rCPH_EVENT ∨ o = rSWC_EVENT
  | .stationEntryWrite .. => inViews rETH_STN_HI o ∨ inViews rETH_STN_SEL o
  | .stnLoRead .. => inViews rETH_STN_HI o ∨ inViews rETH_STN_LO o
  | .agingScanBucket => o = rFLP_EVENT
  | .cphIndRead .. => inViews rCPH_IND_CTL o ∨ inViewWords (rCPH_IND_DATA 0) o
  | .storCmdTimeout .. =>
    o = rSTR_EVENT ∨ o = rVFM_DTU_FAULT ∨ o = rVFM_DTU_FAULT_ADDR ∨ o = rVFM_EVENT ∨ o = rWQM_ADMIN_CFG ∨ o = rWQM_EVENT ∨
    o = rVFM_DTU_FAULT_ADDR + 4
  | .journalFlush =>
    o = rCPH_EVENT ∨ o = rVFM_DTU_FAULT ∨ o = rVFM_DTU_FAULT_ADDR ∨ o = rVFM_EVENT ∨ o = rWQM_ADMIN_CFG ∨ o = rWQM_EVENT ∨
    o = rVFM_DTU_FAULT_ADDR + 4
  | .playBlockOutput .. => o = rSTR_EVENT ∨ o = rWQM_ADMIN_CFG ∨ o = rWQM_EVENT
  | .flrComplete .. => o = rHEP_EVENT ∨ o = rHEP_LAST_FLR ∨ o = rWQM_ADMIN_CFG ∨ o = rWQM_EVENT
  | .readCompletionRx .. =>
    inWords (rDMA_FAULTED 0) o ∨ o = rCPH_EVENT ∨ o = rDMA_EVENT ∨ o = rFLP_EVENT ∨ o = rVFM_DTU_FAULT ∨ o =
    rVFM_DTU_FAULT_ADDR ∨ o = rVFM_EVENT ∨ o = rWQM_ADMIN_CFG ∨ o = rWQM_EVENT ∨ o = rVFM_DTU_FAULT_ADDR + 4
  | .completionTimeout .. =>
    inWords (rDMA_FAULTED 0) o ∨ o = rCPH_EVENT ∨ o = rDMA_EVENT ∨ o = rFLP_EVENT ∨ o = rHEP_EVENT ∨ o = rVFM_DTU_FAULT ∨
    o = rVFM_DTU_FAULT_ADDR ∨ o = rVFM_EVENT ∨ o = rWQM_ADMIN_CFG ∨ o = rWQM_EVENT ∨ o = rVFM_DTU_FAULT_ADDR + 4
  | .vfmIndRead .. =>
    o = rMEM_ERR ∨ o = rMEM_ERR_ADDR ∨ o = rMEM_EVENT ∨ o = rTIM_EVENT ∨ o = rVFM_EVENT ∨ o = rWQM_ADMIN_CFG ∨ o =
    rWQM_EVENT ∨ o = rMEM_ERR_ADDR + 4 ∨ inViews rVFM_IND_CTL o ∨ inViewWords (rVFM_IND_DATA 0) o
  | .vfmIndWrite .. => inViews rVFM_IND_CTL o ∨ inViewWords (rVFM_IND_DATA 0) o
  | .quiesceTimeout .. => o = rVFM_EVENT ∨ o = rWQM_ADMIN_CFG ∨ o = rWQM_EVENT
  | .dtuMissFill .. =>
    o = rMEM_ERR ∨ o = rMEM_ERR_ADDR ∨ o = rMEM_EVENT ∨ o = rTIM_EVENT ∨ o = rVFM_DTU_FAULT ∨ o = rVFM_DTU_FAULT_ADDR ∨ o
    = rVFM_EVENT ∨ o = rMEM_ERR_ADDR + 4 ∨ o = rVFM_DTU_FAULT_ADDR + 4
  | .queueResetDrained .. => o = rHEP_EVENT ∨ o = rWQM_ADMIN_CFG ∨ o = rWQM_EVENT
  | .adminCfgWrite .. => o = rWQM_ADMIN_CFG ∨ o = rWQM_SVCQ_CFG
  | .adminTableRead .. => o = rFLP_EVENT ∨ o = rWQM_ADMIN_CFG ∨ o = rWQM_EVENT
  | .insnSignal .. => inWords (rDMA_FAULTED 0) o ∨ inWords (rDMA_SIGNALLED 0) o ∨ o = rDMA_EVENT
  | .haltDone .. => inWords (rDMA_DONE 0) o ∨ inWords (rDMA_FAULTED 0) o ∨ o = rDMA_EVENT
  | .pmemWordWrite .. => inViews rDMA_PMEM_ADDR o ∨ inViews rDMA_PMEM_HI o
  | .pmemHiRead .. => inViews rDMA_PMEM_ADDR o
  | .poolRebuild .. => o = rPOOL_CTL
  | .loopCycleStart .. =>
    o = rCPH_EVENT ∨ o = rDMA_EVENT ∨ atIndex rLOOP_BREAK o ∨ atIndex rLOOP_CYCLE o ∨ atIndex rLOOP_EVENT o
  | .sweepRx .. =>
    o = rCPH_EVENT ∨ o = rDMA_EVENT ∨ atIndex rLOOP_CYCLE o ∨ atIndex rLOOP_EPOCH o ∨ atIndex rLOOP_EVENT o ∨ atIndex
    rLOOP_MASTER o ∨ o = rTIM_EVENT ∨ atIndex (fun n => rLOOP_MASTER n + 4) o
  | .sweepReturn .. => atIndex rLOOP_EVENT o ∨ atIndex rLOOP_RING_E o ∨ atIndex rLOOP_RING_W o
  | .masterListenTimeout .. =>
    atIndex rLOOP_EPOCH o ∨ atIndex rLOOP_EVENT o ∨ atIndex rLOOP_MASTER o ∨ atIndex (fun n => rLOOP_MASTER n + 4) o
  | .loopWakeSend .. => atIndex rLOOP_WAKE o
  | .serviceWdogExpiry =>
    inWords (rDMA_FAULTED 0) o ∨ o = rSVC_EVENT ∨ o = rTIM_EVENT ∨ o = rWQM_ADMIN_CFG ∨ o = rWQM_EVENT ∨ o = rWQM_SVCQ_CFG
  | .secureAttest .. => o = rVFM_DTU_FAULT ∨ o = rVFM_DTU_FAULT_ADDR ∨ o = rVFM_EVENT ∨ o = rVFM_DTU_FAULT_ADDR + 4
  | .imageVerified => o = rCRT_EVENT ∨ o = rPCR_EVENT ∨ o = rPCR_IMG_EVENT ∨ o = rTIM_EVENT
  | .swresetService .. => inWords (rDMA_FAULTED 0) o ∨ o = rTIM_EVENT ∨ o = rWQM_ADMIN_CFG ∨ o = rWQM_EVENT ∨ o = rWQM_SVCQ_CFG
  | .thermalHoldEnd => o = rETH_EVENT ∨ o = rSWC_EVENT ∨ o = rTIM_EVENT
  | .nvmLineWrite .. => o = rMEM_EVENT
  | .timCfgWrite .. => o = rTIM_CFG
  | .ptpRateWrite .. => o = rTIM_EVENT ∨ o = rTIM_PTP_RATE
  | .ptpStepWrite .. => o = rTIM_EVENT ∨ o = rTIM_PTP_STEP_HI
  | .logEntryLoad .. => inViews rTIM_LOG_SEL o ∨ inViews rTIM_LOG_VALID o ∨ inViewWords (rTIM_LOG_DATA 0) o
  | .telemetrySnapshot => o = rTIM_EVENT ∨ o = rTIM_TELEM_PROD

/-- The counters that a command may advance. A reset may clear any. -/
def ctrsOf (c : Instr) (o : Nat) : Prop :=
  match c with
  | .counterLowRead .. | .spillReadbackSelect .. | .tephraCfgWrite .. | .passResume .. | .workingCopyRestore ..
  | .stationEntryWrite .. | .stnLoRead .. | .tsInfoPop .. | .memberBlocksReturn | .profileQuiesce ..
  | .profileRun .. | .profileStopped .. | .ageFifoPop .. | .tmgIndRead .. | .tmgIndWrite .. | .cphIndRead ..
  | .nearFifoPop .. | .strIndRead .. | .strIndWrite .. | .mseWrite .. | .numvfsWrite .. | .perstDeassert
  | .fnCtlQuiesce .. | .fnCtlRun .. | .qctlResetMode0 .. | .qctlResetMode1 .. | .adminCfgWrite .. | .lsQueueRestore ..
  | .channelStart .. | .channelAbort .. | .channelAbortDone .. | .channelPauseSet .. | .channelPauseClear ..
  | .pmemWordWrite .. | .pmemHiRead .. | .poolRebuild .. | .poolIndRead .. | .poolIndWrite .. | .pdReqRx ..
  | .pdRespRx .. | .loopWakeSend .. | .loopIndRead .. | .loopIndWrite .. | .peerDetect .. | .threadEvwait ..
  | .threadEvpost .. | .threadMret .. | .threadRelease .. | .threadHalt .. | .threadHeld .. | .threadReset ..
  | .setupRegisterWrite .. | .faultFifoPop .. | .wdogKick .. | .mctpRead | .recBegin .. | .recData ..
  | .recStatus | .smbErrsrcRead | .smbArbitrationLost | .smbSclTimeout | .imgWrite .. | .imgActivate ..
  | .imgDeactivate .. | .imgVerify .. | .imgAbort .. | .timCfgWrite .. | .ptpNsRead .. | .logEntryLoad ..
  | .telemetrySample .. | .swcIndWrite .. | .swcIndRead .. | .blockLockRegained .. | .tamperTripCondition .. => False
  | .registerWrite .. | .wakePatternRx .. | .memoryRequest .. | .mgmtPlay .. | .mgmtPlayStop .. | .mgmtReset ..
  | .wakeRx .. | .tlpFrameRx .. | .slotFrameRx .. | .threadInstruction .. | .threadTrap .. | .craterResume
  | .tamperAccept | .zeroiseComplete | .recActivate | .mctpSignedReset .. | .emergencyPathReady
  | .configurationReady | .startFailure .. | .startDeadline | .vin12Good | .vin12Lost | .vaux33Lost
  | .swresetFull .. | .powerTransitionDone | .p3Wake .. | .thermalSample .. | .islandClockFault .. => True
  | .eventMaskWrite .. | .drillCtlStart .. | .flpIndRead .. | .flpIndWrite .. | .flpInsert .. | .flpDelete ..
  | .playRepeatEnd .. | .vendorMessageRx .. | .msixMaskWrite .. | .sqTailWrite .. | .haltDone .. | .mbxRelease ..
  | .mbxDbSet .. | .mbxDbMaskWrite .. | .emptyEnWrite .. | .mctpRelease | .recFinish | .mctpPowerState ..
  | .imgConfirm .. | .pwrCtlP0 .. | .pwrCtlP1 .. | .pwrCtlP2 .. | .pwrCtlP3 .. | .ptpRateWrite .. =>
    atIndex cCAS_G_BYTES_TX o ∨ atIndex cCAS_G_FRAMES_TX o ∨ o = cCAS_LOST_DEST_DROP ∨ o = cCAS_TLP_LOST ∨ o =
    cHEP_BME_HELD
  | .connectionClosed .. | .vfFlr .. | .pfFlr | .vfEnableClear | .slotControlWrite .. | .functionStopped ..
  | .dtuUnmapComplete .. | .cqHeadWrite .. | .descNop .. | .adminQueueConfig .. | .adminQueueReset ..
  | .adminVfStateQuiesce .. | .adminVfStateRun .. | .adminDtuMap .. | .adminDtuUnmap .. | .adminTableRead ..
  | .adminStorDisconnect .. | .adminPlay .. | .adminPlayStop .. =>
    atIndex cCAS_G_BYTES_TX o ∨ atIndex cCAS_G_FRAMES_TX o ∨ o = cCAS_LOST_DEST_DROP ∨ o = cCAS_TLP_LOST ∨ o =
    cHEP_BME_HELD ∨ o = cWQM_CPL_WRITTEN ∨ o = cWQM_FLUSHED ∨ o = cWQM_INTR_SENT ∨ o = cWQM_SHED
  | .pfcPauseExpiry .. | .recalDue .. | .delayedAckExpiry .. | .autoPlayStart .. | .waitTimeExpiry .. | .pdMeasure ..
  | .loopUnwrap .. | .evwaitDeadline .. | .svcTimerEvent .. | .scrubSegmentDue | .slewEnd | .wakeSignallingEnd .. =>
    atIndex cCAS_G_WINDOW_STALL_NS o ∨ o = cCPH_CKPT_STALL_NS ∨ atIndex cETH_TXHOLD_NS o ∨ o = cPCR_P2_NS ∨ o =
    cPCR_THERM_HOLD_NS ∨ atIndex cTMG_SHAPER_WAIT_NS o ∨ o = cWQM_CQ_FULL_NS ∨ (∃ n k, o = instCtr n k)
  | .insnNop .. | .insnMove .. | .insnFill .. | .insnLoadi .. | .insnAdd .. | .insnLoop .. | .insnBranch ..
  | .insnWait .. | .insnMode .. | .insnFence .. | .insnHalt .. =>
    atIndex cCAS_G_BYTES_TX o ∨ atIndex cCAS_G_FRAMES_TX o ∨ o = cCAS_LOST_DEST_DROP ∨ o = cCAS_TLP_LOST ∨ o = cDMA_FAULTS
    ∨ o = cHEP_BME_HELD
  | .shaperConform .. | .playFadeEnd .. | .flrTagQuarantine .. | .linkTrainingDone .. | .verifyTimeout ..
  | .imgStagedChecked | .imgPageWrite | .imgVerifyDone | .fullOperation | .freewheelTimeout =>
    atIndex cCAS_G_BYTES_TX o ∨ atIndex cCAS_G_FRAMES_TX o ∨ atIndex cCAS_G_WINDOW_STALL_NS o ∨ o = cCAS_LOST_DEST_DROP ∨
    o = cCAS_TLP_LOST ∨ o = cCPH_CKPT_STALL_NS ∨ atIndex cETH_TXHOLD_NS o ∨ o = cHEP_BME_HELD ∨ o = cPCR_P2_NS ∨ o =
    cPCR_THERM_HOLD_NS ∨ atIndex cTMG_SHAPER_WAIT_NS o ∨ o = cWQM_CQ_FULL_NS ∨ (∃ n k, o = instCtr n k)
  | .recalStart .. | .recalVerified .. | .recalTimeout .. | .recalDeferExpiry .. | .synthLock .. | .synthLockTimeout ..
  | .synthRelockAttempt .. =>
    atIndex cCAS_G_BYTES_TX o ∨ atIndex cCAS_G_FRAMES_TX o ∨ atIndex cCAS_G_WINDOW_STALL_NS o ∨ o = cCAS_LOST_DEST_DROP ∨
    o = cCAS_TLP_LOST ∨ o = cCPH_CKPT_STALL_NS ∨ atIndex cETH_LS_REDIRECT o ∨ atIndex cETH_PFC_TX o ∨ atIndex
    cETH_TXHOLD_NS o ∨ o = cHEP_BME_HELD ∨ o = cPCR_P2_NS ∨ o = cPCR_THERM_HOLD_NS ∨ atIndex cSWC_DROP_OTHER o ∨ atIndex
    cSWC_LS_DROP o ∨ atIndex cSWC_LS_OVERCAP o ∨ atIndex cTMG_SHAPER_WAIT_NS o ∨ o = cWQM_CQ_FULL_NS ∨ (∃ n k, o = instCtr
    n k)
  | .adminVfConfig .. | .adminTableWrite .. | .adminKeyInstall .. | .adminKeyRetire .. | .adminStorConnect ..
  | .adminStorRaw .. =>
    atIndex cCAS_G_BYTES_TX o ∨ atIndex cCAS_G_FRAMES_TX o ∨ o = cCAS_LOST_DEST_DROP ∨ o = cCAS_TLP_LOST ∨ o =
    cHEP_BME_HELD ∨ o = cHEP_POISONED_RX ∨ o = cVFM_DTU_FAULTS ∨ o = cVFM_DTU_MISS ∨ o = cWQM_CPL_WRITTEN ∨ o =
    cWQM_FLUSHED ∨ o = cWQM_INTR_SENT ∨ o = cWQM_SHED ∨ (∃ n k, o = instCtr n k)
  | .icrespRx .. | .pduR2tRx .. | .c2hdataRx .. | .capsuleRespRx .. | .c2htermreqRx .. =>
    atIndex cCAS_G_BYTES_TX o ∨ atIndex cCAS_G_FRAMES_TX o ∨ o = cCAS_LOST_DEST_DROP ∨ o = cCAS_TLP_LOST ∨ o =
    cCPH_AUTH_FAIL ∨ o = cCPH_DEC_BYTES ∨ o = cCPH_DEC_PASSES ∨ o = cCPH_ENC_BYTES ∨ o = cCPH_ENC_PASSES ∨ o =
    cCPH_KEY_ABSENT_DROP ∨ o = cCPH_KEY_LIMIT_DROP ∨ o = cCPH_KEY_MISS ∨ o = cCPH_LEN_DROP ∨ o = cCPH_LS_PASSES ∨ o =
    cCPH_LS_QUEUE_DROP ∨ o = cCPH_ZEROISED_DROP ∨ o = cHEP_BME_HELD ∨ o = cSTR_BYTES_READ ∨ o = cSTR_BYTES_WRITTEN ∨ o =
    cSTR_CMDS_DONE ∨ o = cSTR_CMDS_ERR ∨ o = cSTR_DIGEST_ERR ∨ o = cVFM_DTU_FAULTS ∨ o = cVFM_DTU_MISS ∨ o =
    cWQM_CPL_WRITTEN ∨ o = cWQM_FLUSHED ∨ o = cWQM_INTR_SENT ∨ o = cWQM_SHED ∨ (∃ n k, o = instCtr n k)
  | .bmeClear .. | .bmeSet .. | .d3hotEntry .. | .d0Return .. | .vfmIndWrite .. =>
    atIndex cCAS_G_BYTES_TX o ∨ atIndex cCAS_G_FRAMES_TX o ∨ o = cCAS_LOST_DEST_DROP ∨ o = cCAS_TLP_LOST
  | .inputCombinationAccept .. | .holdoverExpiry | .drillTimeout | .mapHoldExpiry .. =>
    atIndex cCAS_G_BYTES_TX o ∨ atIndex cCAS_G_FRAMES_TX o ∨ atIndex cCAS_G_WINDOW_STALL_NS o ∨ o = cCAS_LOST_DEST_DROP ∨
    o = cCAS_TLP_LOST ∨ o = cCPH_CKPT_STALL_NS ∨ atIndex cETH_TXHOLD_NS o ∨ o = cHEP_BME_HELD ∨ o = cPCR_P2_NS ∨ o =
    cPCR_THERM_HOLD_NS ∨ o = cTIM_LOG_LOST ∨ atIndex cTMG_SHAPER_WAIT_NS o ∨ o = cWQM_CQ_FULL_NS ∨ (∃ n k, o = instCtr n
    k)
  | .emsgDeclare .. | .emsgClear .. | .emsgDrillStart .. | .emsgDrillEnd .. =>
    o = cALP_MSG_ACCEPT ∨ o = cALP_MSG_REJECT ∨ atIndex cCAS_G_BYTES_RX o ∨ atIndex cCAS_G_BYTES_TX o ∨ atIndex
    cCAS_G_FRAMES_RX o ∨ atIndex cCAS_G_FRAMES_TX o ∨ atIndex cCAS_G_WINDOW_STALL_NS o ∨ o = cCAS_LOST_DEST_DROP ∨ o =
    cCAS_TLP_LOST ∨ o = cCPH_CKPT_STALL_NS ∨ atIndex cETH_TXHOLD_NS o ∨ o = cHEP_BME_HELD ∨ o = cPCR_MSG_HELD_DROP ∨ o =
    cPCR_P2_NS ∨ o = cPCR_THERM_HOLD_NS ∨ o = cTIM_LOG_LOST ∨ atIndex cTMG_SHAPER_WAIT_NS o ∨ o = cWQM_CQ_FULL_NS ∨ (∃ n
    k, o = instCtr n k)
  | .configRequest .. | .pcieLinkDown | .perstAssert | .hotReset =>
    atIndex cCAS_G_BYTES_TX o ∨ atIndex cCAS_G_FRAMES_TX o ∨ o = cCAS_LINK_LOSS_DROP ∨ o = cCAS_LOST_DEST_DROP ∨ o =
    cCAS_MEMBER_LOSSES ∨ o = cCAS_TLP_LOST ∨ o = cHEP_BME_HELD ∨ o = cHEP_MEMBER_LOSSES ∨ o = cHEP_UR_SENT ∨ o =
    cPCR_HOST_RESETS ∨ o = cTIM_LOG_LOST ∨ o = cWQM_CPL_WRITTEN ∨ o = cWQM_FLUSHED ∨ o = cWQM_INTR_SENT ∨ o = cWQM_SHED
  | .keepaliveProbe .. | .connectOpenTimeout .. | .journalFlush =>
    atIndex cCAS_G_BYTES_TX o ∨ atIndex cCAS_G_FRAMES_TX o ∨ atIndex cCAS_G_WINDOW_STALL_NS o ∨ o = cCAS_LOST_DEST_DROP ∨
    o = cCAS_TLP_LOST ∨ o = cCPH_AUTH_FAIL ∨ o = cCPH_CKPT_STALL_NS ∨ o = cCPH_DEC_BYTES ∨ o = cCPH_DEC_PASSES ∨ o =
    cCPH_ENC_BYTES ∨ o = cCPH_ENC_PASSES ∨ o = cCPH_KEY_ABSENT_DROP ∨ o = cCPH_KEY_LIMIT_DROP ∨ o = cCPH_KEY_MISS ∨ o =
    cCPH_LEN_DROP ∨ o = cCPH_LS_PASSES ∨ o = cCPH_LS_QUEUE_DROP ∨ o = cCPH_ZEROISED_DROP ∨ atIndex cETH_TXHOLD_NS o ∨ o =
    cHEP_BME_HELD ∨ o = cPCR_P2_NS ∨ o = cPCR_THERM_HOLD_NS ∨ o = cSTR_BYTES_READ ∨ o = cSTR_BYTES_WRITTEN ∨ o =
    cSTR_CMDS_DONE ∨ o = cSTR_CMDS_ERR ∨ atIndex cTMG_SHAPER_WAIT_NS o ∨ o = cVFM_DTU_FAULTS ∨ o = cVFM_DTU_MISS ∨ o =
    cWQM_CPL_WRITTEN ∨ o = cWQM_CQ_FULL_NS ∨ o = cWQM_FLUSHED ∨ o = cWQM_INTR_SENT ∨ o = cWQM_SHED ∨ (∃ n k, o = instCtr n
    k)
  | .craterWatchdogExpiry | .lockstepMismatch | .doubleTrap =>
    atIndex cCAS_G_BYTES_TX o ∨ atIndex cCAS_G_FRAMES_TX o ∨ o = cCAS_LOST_DEST_DROP ∨ o = cCAS_TLP_LOST ∨ o =
    cCRT_RESTARTS ∨ o = cHEP_BME_HELD ∨ o = cTIM_LOG_LOST
  | .secureState .. | .secureSlotGen .. | .secureKeyopAck .. =>
    atIndex cCAS_G_BYTES_TX o ∨ atIndex cCAS_G_FRAMES_TX o ∨ o = cCAS_LOST_DEST_DROP ∨ o = cCAS_TLP_LOST ∨ o =
    cCRT_MBS_REJECT ∨ o = cHEP_BME_HELD ∨ o = cMBX_MSGS
  | .drillCtlStop .. | .engineKatDone .. =>
    atIndex cCAS_G_BYTES_TX o ∨ atIndex cCAS_G_FRAMES_TX o ∨ o = cCAS_LOST_DEST_DROP ∨ o = cCAS_TLP_LOST ∨ o =
    cHEP_BME_HELD ∨ o = cTIM_LOG_LOST
  | .cipherDispatch .. | .lsPassDispatch =>
    atIndex cCAS_G_BYTES_TX o ∨ atIndex cCAS_G_FRAMES_TX o ∨ o = cCAS_LOST_DEST_DROP ∨ o = cCAS_TLP_LOST ∨ o =
    cCPH_DEC_BYTES ∨ o = cCPH_DEC_PASSES ∨ o = cCPH_ENC_BYTES ∨ o = cCPH_ENC_PASSES ∨ o = cCPH_KEY_ABSENT_DROP ∨ o =
    cCPH_KEY_LIMIT_DROP ∨ o = cCPH_KEY_MISS ∨ o = cCPH_LEN_DROP ∨ o = cCPH_LS_QUEUE_DROP ∨ o = cCPH_REPLAY_DROP ∨ o =
    cCPH_SUSPENDS ∨ o = cCPH_ZEROISED_DROP ∨ o = cHEP_BME_HELD
  | .channelResume .. | .channelPaused .. => o = cDMA_PAUSES
  | .dmaTimerExpiry .. | .deviceTimeSecond =>
    atIndex cCAS_G_BYTES_TX o ∨ atIndex cCAS_G_FRAMES_TX o ∨ atIndex cCAS_G_WINDOW_STALL_NS o ∨ o = cCAS_LOST_DEST_DROP ∨
    o = cCAS_TLP_LOST ∨ o = cCPH_CKPT_STALL_NS ∨ o = cDMA_REQ_OVF ∨ atIndex cETH_TXHOLD_NS o ∨ o = cHEP_BME_HELD ∨ o =
    cPCR_P2_NS ∨ o = cPCR_THERM_HOLD_NS ∨ atIndex cTMG_SHAPER_WAIT_NS o ∨ o = cWQM_CQ_FULL_NS ∨ (∃ n k, o = instCtr n k)
  | .breakRx .. | .loopLockLoss .. => atIndex cLOOP_WRAPS o
  | .replayTimerExpiry .. | .retrainRelock .. =>
    atIndex cCAS_G_BYTES_TX o ∨ atIndex cCAS_G_FRAMES_TX o ∨ atIndex cCAS_G_REPLAYS o ∨ atIndex cCAS_G_RETRAINS o ∨
    atIndex cCAS_G_WINDOW_STALL_NS o ∨ o = cCAS_LOST_DEST_DROP ∨ o = cCAS_TLP_LOST ∨ o = cCPH_CKPT_STALL_NS ∨ atIndex
    cETH_TXHOLD_NS o ∨ o = cHEP_BME_HELD ∨ o = cPCR_P2_NS ∨ o = cPCR_THERM_HOLD_NS ∨ atIndex cTMG_SHAPER_WAIT_NS o ∨ o =
    cWQM_CQ_FULL_NS ∨ (∃ n k, o = instCtr n k)
  | .retrainTimeout .. | .trainingTimeout .. =>
    atIndex cCAS_G_BYTES_TX o ∨ atIndex cCAS_G_FRAMES_TX o ∨ atIndex cCAS_G_WINDOW_STALL_NS o ∨ o = cCAS_LINK_LOSS_DROP ∨
    o = cCAS_LOST_DEST_DROP ∨ o = cCAS_MEMBER_LOSSES ∨ o = cCAS_TLP_LOST ∨ o = cCPH_CKPT_STALL_NS ∨ atIndex cETH_TXHOLD_NS
    o ∨ o = cHEP_BME_HELD ∨ o = cHEP_MEMBER_LOSSES ∨ o = cHEP_UR_SENT ∨ o = cPCR_P2_NS ∨ o = cPCR_THERM_HOLD_NS ∨ o =
    cTIM_LOG_LOST ∨ atIndex cTMG_SHAPER_WAIT_NS o ∨ o = cWQM_CQ_FULL_NS ∨ (∃ n k, o = instCtr n k)
  | .trainingLock .. | .verifyRetry .. =>
    atIndex cCAS_G_BYTES_TX o ∨ atIndex cCAS_G_FRAMES_TX o ∨ atIndex cCAS_G_WINDOW_STALL_NS o ∨ o = cCPH_CKPT_STALL_NS ∨
    atIndex cETH_TXHOLD_NS o ∨ o = cPCR_P2_NS ∨ o = cPCR_THERM_HOLD_NS ∨ atIndex cTMG_SHAPER_WAIT_NS o ∨ o =
    cWQM_CQ_FULL_NS ∨ (∃ n k, o = instCtr n k)
  | .casRemoveReq .. | .casMemberReset .. => atIndex cCAS_G_BYTES_TX o ∨ atIndex cCAS_G_FRAMES_TX o ∨ o = cCAS_LOST_DEST_DROP
  | .mbxWordCommit .. | .mctpWrite .. =>
    atIndex cCAS_G_BYTES_TX o ∨ atIndex cCAS_G_FRAMES_TX o ∨ o = cCAS_LOST_DEST_DROP ∨ o = cCAS_TLP_LOST ∨ o =
    cHEP_BME_HELD ∨ o = cMBX_MSGS ∨ o = cMBX_OVERRUN
  | .resetRelease | .thermalTripRelease =>
    atIndex cCAS_G_BYTES_TX o ∨ atIndex cCAS_G_FRAMES_TX o ∨ atIndex cCAS_G_WINDOW_STALL_NS o ∨ o = cCAS_LOST_DEST_DROP ∨
    o = cCAS_TLP_LOST ∨ o = cCPH_CKPT_STALL_NS ∨ atIndex cETH_TXHOLD_NS o ∨ o = cHEP_BME_HELD ∨ o = cPCR_P2_NS ∨ o =
    cPCR_REFUGE_STARTS ∨ o = cPCR_THERM_HOLD_NS ∨ o = cTIM_LOG_LOST ∨ atIndex cTMG_SHAPER_WAIT_NS o ∨ o = cWQM_CQ_FULL_NS
    ∨ (∃ n k, o = instCtr n k)
  | .precedenceLevelArrive .. =>
    atIndex cCAS_G_BYTES_TX o ∨ atIndex cCAS_G_FRAMES_TX o ∨ o = cCAS_LOST_DEST_DROP ∨ o = cCAS_TLP_LOST ∨ o =
    cCPH_DEC_BYTES ∨ o = cCPH_DEC_PASSES ∨ o = cCPH_ENC_BYTES ∨ o = cCPH_ENC_PASSES ∨ o = cCPH_KEY_ABSENT_DROP ∨ o =
    cCPH_KEY_LIMIT_DROP ∨ o = cCPH_KEY_MISS ∨ o = cCPH_LEN_DROP ∨ o = cCPH_LS_PASSES ∨ o = cCPH_LS_QUEUE_DROP ∨ o =
    cCPH_ZEROISED_DROP ∨ atIndex cETH_LS_REDIRECT o ∨ atIndex cETH_PFC_TX o ∨ atIndex cETH_TXHOLD_DROP o ∨ o =
    cHEP_BME_HELD ∨ o = cSTR_CMDS_DONE ∨ o = cSTR_CMDS_ERR ∨ o = cSTR_REC_GAP ∨ o = cSTR_REC_LOST ∨ o = cSTR_REC_RECORDS ∨
    o = cSTR_SHED_CMDS ∨ atIndex cSWC_DROP_OTHER o ∨ atIndex cSWC_LS_DROP o ∨ atIndex cSWC_LS_OVERCAP o ∨ o =
    cWQM_CPL_WRITTEN ∨ o = cWQM_FLUSHED ∨ o = cWQM_INTR_SENT ∨ o = cWQM_SHED
  | .entryDone =>
    o = cALP_ENTRY_COUNT ∨ atIndex cCAS_G_BYTES_TX o ∨ atIndex cCAS_G_FRAMES_TX o ∨ o = cCAS_LOST_DEST_DROP ∨ o =
    cCAS_TLP_LOST ∨ o = cHEP_BME_HELD ∨ o = cTIM_LOG_LOST
  | .parameterSweep .. =>
    atIndex cCAS_G_BYTES_TX o ∨ atIndex cCAS_G_FRAMES_TX o ∨ o = cCAS_LOST_DEST_DROP ∨ o = cCAS_TLP_LOST ∨ o =
    cHEP_BME_HELD ∨ o = cMEM_HBM_CORR ∨ o = cMEM_HBM_UNCORR ∨ o = cSTR_CMDS_DONE ∨ o = cSTR_CMDS_ERR ∨ o = cSTR_SHED_CMDS
    ∨ o = cTIM_LOG_LOST ∨ o = cWQM_CPL_WRITTEN ∨ o = cWQM_FLUSHED ∨ o = cWQM_INTR_SENT ∨ o = cWQM_SHED
  | .ethFrameReceive .. =>
    atIndex cETH_FEC_CORR o ∨ atIndex cETH_FEC_UNCORR o ∨ atIndex cETH_PAUSE_RX o ∨ atIndex cETH_PFC_RX o ∨ atIndex
    cETH_RX_BYTES o ∨ atIndex cETH_RX_FCS_ERR o ∨ atIndex cETH_RX_FRAMES o ∨ atIndex cETH_RX_OVERSIZE o ∨ atIndex
    cETH_RX_UNDERSIZE o ∨ atIndex cETH_STN_DROP o ∨ atIndex cETH_STN_HITS o
  | .pfcFrameRx .. => atIndex cETH_PFC_RX o
  | .pfcXoffRepeat .. =>
    atIndex cCAS_G_WINDOW_STALL_NS o ∨ o = cCPH_CKPT_STALL_NS ∨ atIndex cETH_PFC_TX o ∨ atIndex cETH_TXHOLD_NS o ∨ o =
    cPCR_P2_NS ∨ o = cPCR_THERM_HOLD_NS ∨ atIndex cTMG_SHAPER_WAIT_NS o ∨ o = cWQM_CQ_FULL_NS ∨ (∃ n k, o = instCtr n k)
  | .ingressLookup .. =>
    atIndex cCAS_G_BYTES_TX o ∨ atIndex cCAS_G_FRAMES_TX o ∨ o = cCAS_LOST_DEST_DROP ∨ o = cCAS_TLP_LOST ∨ o =
    cCPH_LS_QUEUE_DROP ∨ atIndex cFLP_CACHE_HIT o ∨ atIndex cFLP_CACHE_MISS o ∨ atIndex cFLP_DROP_ACTION o ∨ atIndex
    cFLP_DROP_STOP o ∨ atIndex cFLP_FLOW_ECC o ∨ atIndex cFLP_FRAMES o ∨ atIndex cFLP_MC_EMPTY o ∨ atIndex cFLP_PARSE_ERR
    o ∨ atIndex cFLP_PARSE_TRUNC o ∨ atIndex cFLP_RECIRC o ∨ atIndex cFLP_TABLE_MISS o ∨ atIndex cFLP_TO_SVC o ∨ o =
    cHEP_BME_HELD ∨ o = cMEM_HBM_CORR ∨ o = cMEM_HBM_UNCORR ∨ o = cTIM_LOG_LOST ∨ o = cTMG_POL_DROP
  | .cacheMissReturn .. =>
    atIndex cCAS_G_BYTES_TX o ∨ atIndex cCAS_G_FRAMES_TX o ∨ o = cCAS_LOST_DEST_DROP ∨ o = cCAS_TLP_LOST ∨ o =
    cCPH_LS_QUEUE_DROP ∨ atIndex cFLP_DROP_ACTION o ∨ atIndex cFLP_FLOW_ECC o ∨ atIndex cFLP_FRAMES o ∨ atIndex
    cFLP_MC_EMPTY o ∨ atIndex cFLP_TABLE_MISS o ∨ atIndex cFLP_TO_SVC o ∨ o = cHEP_BME_HELD ∨ o = cMEM_HBM_CORR ∨ o =
    cMEM_HBM_UNCORR ∨ o = cTIM_LOG_LOST ∨ o = cTMG_POL_DROP
  | .switchAdmit .. =>
    atIndex cCAS_G_BYTES_TX o ∨ atIndex cCAS_G_FRAMES_TX o ∨ o = cCAS_LOST_DEST_DROP ∨ o = cCAS_TLP_LOST ∨ o =
    cHEP_BME_HELD ∨ atIndex cSWC_CELLS_IN o ∨ atIndex cSWC_DROP_LOST_DEST o ∨ atIndex cSWC_DROP_OTHER o ∨ atIndex
    cSWC_DROP_TAIL o ∨ atIndex cSWC_FRAMES_IN o ∨ atIndex cSWC_LS_DROP o ∨ atIndex cSWC_SPILL_CELLS o ∨ o =
    cSWC_TEPHRA_DROP
  | .spillReadReturn .. =>
    atIndex cCAS_G_BYTES_TX o ∨ atIndex cCAS_G_FRAMES_TX o ∨ atIndex cCAS_G_WINDOW_STALL_NS o ∨ o = cCAS_LOST_DEST_DROP ∨
    o = cCAS_TLP_LOST ∨ o = cCPH_CKPT_STALL_NS ∨ atIndex cETH_TXHOLD_NS o ∨ o = cHEP_BME_HELD ∨ o = cMEM_HBM_CORR ∨ o =
    cMEM_HBM_UNCORR ∨ o = cPCR_P2_NS ∨ o = cPCR_THERM_HOLD_NS ∨ atIndex cSWC_DROP_SPILL_ECC o ∨ o = cTIM_LOG_LOST ∨
    atIndex cTMG_SHAPER_WAIT_NS o ∨ o = cWQM_CQ_FULL_NS ∨ (∃ n k, o = instCtr n k)
  | .slalomCellTime .. =>
    atIndex cCAS_G_BYTES_TX o ∨ atIndex cCAS_G_FRAMES_TX o ∨ o = cCAS_LOST_DEST_DROP ∨ o = cCAS_TLP_LOST ∨ atIndex
    cETH_PFC_TX o ∨ atIndex cFLP_MC_EMPTY o ∨ o = cHEP_BME_HELD ∨ atIndex cSWC_CELLS_OUT o ∨ atIndex cSWC_DROP_LOST_DEST o
    ∨ atIndex cSWC_DROP_OTHER o ∨ atIndex cSWC_LS_DROP o ∨ o = cSWC_TAG_CORR
  | .lsStagingHead .. =>
    atIndex cCAS_G_BYTES_TX o ∨ atIndex cCAS_G_FRAMES_TX o ∨ o = cCAS_LOST_DEST_DROP ∨ o = cCAS_TLP_LOST ∨ atIndex
    cFLP_MC_EMPTY o ∨ o = cHEP_BME_HELD ∨ atIndex cSWC_DROP_OTHER o ∨ atIndex cSWC_LS_DROP o ∨ atIndex cSWC_LS_FRAMES o ∨
    atIndex cSWC_LS_OVERCAP o ∨ o = cSWC_TAG_CORR
  | .outputFrameBoundary .. =>
    atIndex cCAS_G_BYTES_TX o ∨ atIndex cCAS_G_FRAMES_TX o ∨ o = cCAS_LINK_LOSS_DROP ∨ o = cCAS_LOST_DEST_DROP ∨ o =
    cCAS_TLP_LOST ∨ atIndex cETH_LS_REDIRECT o ∨ atIndex cETH_PFC_TX o ∨ atIndex cETH_PTP_1STEP_SKIP o ∨ atIndex
    cETH_TS_OVF o ∨ atIndex cETH_TXHOLD_DROP o ∨ atIndex cETH_TX_BYTES o ∨ atIndex cETH_TX_FRAMES o ∨ o = cHEP_BME_HELD ∨
    atIndex cLOOP_OVERSIZE o ∨ atIndex cLOOP_UNKNOWN_DST o ∨ atIndex cSWC_DROP_OTHER o ∨ atIndex cSWC_LS_DROP o ∨ atIndex
    cSWC_LS_OVERCAP o ∨ atIndex cTMG_BYTES_OUT o ∨ atIndex cTMG_FRAMES_OUT o
  | .egressPass .. =>
    atIndex cCAS_G_BYTES_TX o ∨ atIndex cCAS_G_FRAMES_TX o ∨ o = cCAS_LOST_DEST_DROP ∨ o = cCAS_TLP_LOST ∨ o =
    cCPH_LS_QUEUE_DROP ∨ atIndex cETH_PFC_TX o ∨ atIndex cFLP_CACHE_HIT o ∨ atIndex cFLP_CACHE_MISS o ∨ atIndex
    cFLP_DROP_ACTION o ∨ atIndex cFLP_DROP_STOP o ∨ atIndex cFLP_FLOW_ECC o ∨ atIndex cFLP_FRAMES o ∨ atIndex
    cFLP_MC_EMPTY o ∨ atIndex cFLP_PARSE_ERR o ∨ atIndex cFLP_PARSE_TRUNC o ∨ atIndex cFLP_RECIRC o ∨ atIndex
    cFLP_TABLE_MISS o ∨ atIndex cFLP_TO_SVC o ∨ o = cHEP_BME_HELD ∨ o = cMEM_HBM_CORR ∨ o = cMEM_HBM_UNCORR ∨ atIndex
    cSWC_DROP_OTHER o ∨ atIndex cSWC_LS_DROP o ∨ o = cTIM_LOG_LOST ∨ o = cTMG_POL_DROP
  | .tephraEntryWrite =>
    atIndex cCAS_G_BYTES_TX o ∨ atIndex cCAS_G_FRAMES_TX o ∨ o = cCAS_LOST_DEST_DROP ∨ o = cCAS_TLP_LOST ∨ o =
    cHEP_BME_HELD ∨ o = cSWC_TEPHRA_DROP
  | .cipherPassComplete .. =>
    atIndex cCAS_G_BYTES_TX o ∨ atIndex cCAS_G_FRAMES_TX o ∨ atIndex cCAS_G_WINDOW_STALL_NS o ∨ o = cCAS_LOST_DEST_DROP ∨
    o = cCAS_TLP_LOST ∨ o = cCPH_AUTH_FAIL ∨ o = cCPH_CKPT_STALL_NS ∨ o = cCPH_LS_PASSES ∨ atIndex cETH_TXHOLD_NS o ∨ o =
    cHEP_BME_HELD ∨ o = cPCR_P2_NS ∨ o = cPCR_THERM_HOLD_NS ∨ atIndex cTMG_SHAPER_WAIT_NS o ∨ o = cWQM_CQ_FULL_NS ∨ (∃ n
    k, o = instCtr n k)
  | .resultRelease .. =>
    atIndex cCAS_G_BYTES_TX o ∨ atIndex cCAS_G_FRAMES_TX o ∨ o = cCAS_LOST_DEST_DROP ∨ o = cCAS_TLP_LOST ∨ o =
    cCPH_REPLAY_DROP ∨ o = cHEP_BME_HELD ∨ atIndex cSWC_DROP_OTHER o ∨ atIndex cSWC_LS_DROP o
  | .preemptAbandon .. =>
    atIndex cCAS_G_BYTES_TX o ∨ atIndex cCAS_G_FRAMES_TX o ∨ atIndex cCAS_G_WINDOW_STALL_NS o ∨ o = cCAS_LOST_DEST_DROP ∨
    o = cCAS_TLP_LOST ∨ o = cCPH_CKPT_STALL_NS ∨ o = cCPH_PREEMPT_DROP ∨ atIndex cETH_TXHOLD_NS o ∨ o = cHEP_BME_HELD ∨ o
    = cPCR_P2_NS ∨ o = cPCR_THERM_HOLD_NS ∨ atIndex cTMG_SHAPER_WAIT_NS o ∨ o = cWQM_CQ_FULL_NS ∨ (∃ n k, o = instCtr n k)
  | .keyLoad .. =>
    atIndex cCAS_G_BYTES_TX o ∨ atIndex cCAS_G_FRAMES_TX o ∨ o = cCAS_LOST_DEST_DROP ∨ o = cCAS_TLP_LOST ∨ o =
    cCPH_KEY_ABSENT_DROP ∨ o = cHEP_BME_HELD ∨ o = cMEM_HBM_CORR ∨ o = cMEM_HBM_UNCORR ∨ o = cTIM_LOG_LOST
  | .ckptCommit .. =>
    atIndex cCAS_G_BYTES_TX o ∨ atIndex cCAS_G_FRAMES_TX o ∨ o = cCAS_LOST_DEST_DROP ∨ o = cCAS_TLP_LOST ∨ o =
    cCRT_CKPT_COMMITS ∨ o = cHEP_BME_HELD ∨ o = cWQM_CPL_WRITTEN ∨ o = cWQM_FLUSHED ∨ o = cWQM_INTR_SENT ∨ o = cWQM_SHED
  | .txholdLimit .. =>
    atIndex cCAS_G_BYTES_TX o ∨ atIndex cCAS_G_FRAMES_TX o ∨ atIndex cCAS_G_WINDOW_STALL_NS o ∨ o = cCAS_LOST_DEST_DROP ∨
    o = cCAS_TLP_LOST ∨ o = cCPH_CKPT_STALL_NS ∨ atIndex cETH_LS_REDIRECT o ∨ atIndex cETH_TXHOLD_NS o ∨ o = cHEP_BME_HELD
    ∨ o = cPCR_P2_NS ∨ o = cPCR_THERM_HOLD_NS ∨ atIndex cSWC_DROP_OTHER o ∨ atIndex cSWC_LS_DROP o ∨ atIndex
    cSWC_LS_OVERCAP o ∨ atIndex cTMG_SHAPER_WAIT_NS o ∨ o = cWQM_CQ_FULL_NS ∨ (∃ n k, o = instCtr n k)
  | .ethLinkChange .. =>
    atIndex cCAS_G_BYTES_TX o ∨ atIndex cCAS_G_FRAMES_TX o ∨ o = cCAS_LOST_DEST_DROP ∨ o = cCAS_TLP_LOST ∨ atIndex
    cETH_LS_REDIRECT o ∨ atIndex cETH_PFC_TX o ∨ o = cHEP_BME_HELD ∨ atIndex cSWC_DROP_OTHER o ∨ atIndex cSWC_LS_DROP o ∨
    atIndex cSWC_LS_OVERCAP o
  | .agingScanBucket =>
    atIndex cCAS_G_BYTES_TX o ∨ atIndex cCAS_G_FRAMES_TX o ∨ o = cCAS_LOST_DEST_DROP ∨ o = cCAS_TLP_LOST ∨ o = cFLP_AGED ∨
    o = cFLP_AGE_LOST ∨ o = cHEP_BME_HELD
  | .storCmdExecute .. =>
    atIndex cCAS_G_BYTES_TX o ∨ atIndex cCAS_G_FRAMES_TX o ∨ o = cCAS_LOST_DEST_DROP ∨ o = cCAS_TLP_LOST ∨ o =
    cCPH_AUTH_FAIL ∨ o = cCPH_DEC_BYTES ∨ o = cCPH_DEC_PASSES ∨ o = cCPH_ENC_BYTES ∨ o = cCPH_ENC_PASSES ∨ o =
    cCPH_KEY_ABSENT_DROP ∨ o = cCPH_KEY_LIMIT_DROP ∨ o = cCPH_KEY_MISS ∨ o = cCPH_LEN_DROP ∨ o = cCPH_LS_PASSES ∨ o =
    cCPH_LS_QUEUE_DROP ∨ o = cCPH_ZEROISED_DROP ∨ o = cHEP_BME_HELD ∨ o = cHEP_POISONED_RX ∨ o = cMEM_HBM_CORR ∨ o =
    cMEM_HBM_UNCORR ∨ o = cSTR_BYTES_READ ∨ o = cSTR_BYTES_WRITTEN ∨ o = cSTR_CMDS_DONE ∨ o = cSTR_CMDS_ERR ∨ o =
    cSTR_SHED_CMDS ∨ o = cTIM_LOG_LOST ∨ o = cVFM_DTU_FAULTS ∨ o = cVFM_DTU_MISS ∨ o = cWQM_CPL_WRITTEN ∨ o = cWQM_FLUSHED
    ∨ o = cWQM_INTR_SENT ∨ o = cWQM_SHED ∨ (∃ n k, o = instCtr n k)
  | .tcpSegmentRx =>
    atIndex cCAS_G_BYTES_TX o ∨ atIndex cCAS_G_FRAMES_TX o ∨ o = cCAS_LOST_DEST_DROP ∨ o = cCAS_TLP_LOST ∨ o =
    cCPH_AUTH_FAIL ∨ o = cCPH_DEC_BYTES ∨ o = cCPH_DEC_PASSES ∨ o = cCPH_ENC_BYTES ∨ o = cCPH_ENC_PASSES ∨ o =
    cCPH_KEY_ABSENT_DROP ∨ o = cCPH_KEY_LIMIT_DROP ∨ o = cCPH_KEY_MISS ∨ o = cCPH_LEN_DROP ∨ o = cCPH_LS_PASSES ∨ o =
    cCPH_LS_QUEUE_DROP ∨ o = cCPH_ZEROISED_DROP ∨ o = cHEP_BME_HELD ∨ o = cSTR_BYTES_READ ∨ o = cSTR_BYTES_WRITTEN ∨ o =
    cSTR_CMDS_DONE ∨ o = cSTR_CMDS_ERR ∨ o = cSTR_PROTO_DROP ∨ o = cSTR_RETRANS_SEG ∨ o = cVFM_DTU_FAULTS ∨ o =
    cVFM_DTU_MISS ∨ o = cWQM_CPL_WRITTEN ∨ o = cWQM_FLUSHED ∨ o = cWQM_INTR_SENT ∨ o = cWQM_SHED ∨ (∃ n k, o = instCtr n
    k)
  | .rtoExpiry .. =>
    atIndex cCAS_G_BYTES_TX o ∨ atIndex cCAS_G_FRAMES_TX o ∨ atIndex cCAS_G_WINDOW_STALL_NS o ∨ o = cCAS_LOST_DEST_DROP ∨
    o = cCAS_TLP_LOST ∨ o = cCPH_AUTH_FAIL ∨ o = cCPH_CKPT_STALL_NS ∨ o = cCPH_DEC_BYTES ∨ o = cCPH_DEC_PASSES ∨ o =
    cCPH_ENC_BYTES ∨ o = cCPH_ENC_PASSES ∨ o = cCPH_KEY_ABSENT_DROP ∨ o = cCPH_KEY_LIMIT_DROP ∨ o = cCPH_KEY_MISS ∨ o =
    cCPH_LEN_DROP ∨ o = cCPH_LS_PASSES ∨ o = cCPH_LS_QUEUE_DROP ∨ o = cCPH_ZEROISED_DROP ∨ atIndex cETH_TXHOLD_NS o ∨ o =
    cHEP_BME_HELD ∨ o = cPCR_P2_NS ∨ o = cPCR_THERM_HOLD_NS ∨ o = cSTR_BYTES_READ ∨ o = cSTR_BYTES_WRITTEN ∨ o =
    cSTR_CMDS_DONE ∨ o = cSTR_CMDS_ERR ∨ o = cSTR_RETRANS_SEG ∨ atIndex cTMG_SHAPER_WAIT_NS o ∨ o = cVFM_DTU_FAULTS ∨ o =
    cVFM_DTU_MISS ∨ o = cWQM_CPL_WRITTEN ∨ o = cWQM_CQ_FULL_NS ∨ o = cWQM_FLUSHED ∨ o = cWQM_INTR_SENT ∨ o = cWQM_SHED ∨
    (∃ n k, o = instCtr n k)
  | .storCmdTimeout .. =>
    atIndex cCAS_G_BYTES_TX o ∨ atIndex cCAS_G_FRAMES_TX o ∨ atIndex cCAS_G_WINDOW_STALL_NS o ∨ o = cCAS_LOST_DEST_DROP ∨
    o = cCAS_TLP_LOST ∨ o = cCPH_CKPT_STALL_NS ∨ atIndex cETH_TXHOLD_NS o ∨ o = cHEP_BME_HELD ∨ o = cPCR_P2_NS ∨ o =
    cPCR_THERM_HOLD_NS ∨ o = cSTR_BYTES_READ ∨ o = cSTR_BYTES_WRITTEN ∨ o = cSTR_CMDS_DONE ∨ o = cSTR_CMDS_ERR ∨ o =
    cSTR_TIMEOUTS ∨ atIndex cTMG_SHAPER_WAIT_NS o ∨ o = cVFM_DTU_FAULTS ∨ o = cVFM_DTU_MISS ∨ o = cWQM_CPL_WRITTEN ∨ o =
    cWQM_CQ_FULL_NS ∨ o = cWQM_FLUSHED ∨ o = cWQM_INTR_SENT ∨ o = cWQM_SHED ∨ (∃ n k, o = instCtr n k)
  | .journalRecordForm .. =>
    atIndex cCAS_G_BYTES_TX o ∨ atIndex cCAS_G_FRAMES_TX o ∨ o = cCAS_LOST_DEST_DROP ∨ o = cCAS_TLP_LOST ∨ o =
    cCPH_DEC_BYTES ∨ o = cCPH_DEC_PASSES ∨ o = cCPH_ENC_BYTES ∨ o = cCPH_ENC_PASSES ∨ o = cCPH_KEY_ABSENT_DROP ∨ o =
    cCPH_KEY_LIMIT_DROP ∨ o = cCPH_KEY_MISS ∨ o = cCPH_LEN_DROP ∨ o = cCPH_LS_PASSES ∨ o = cCPH_LS_QUEUE_DROP ∨ o =
    cCPH_ZEROISED_DROP ∨ o = cHEP_BME_HELD ∨ o = cSTR_REC_GAP ∨ o = cSTR_REC_LOST ∨ o = cSTR_REC_RECORDS
  | .journalWriteDone => o = cSTR_REC_BYTES
  | .anchorCommit =>
    atIndex cCAS_G_BYTES_TX o ∨ atIndex cCAS_G_FRAMES_TX o ∨ atIndex cCAS_G_WINDOW_STALL_NS o ∨ o = cCAS_LOST_DEST_DROP ∨
    o = cCAS_TLP_LOST ∨ o = cCPH_CKPT_STALL_NS ∨ o = cCPH_DEC_BYTES ∨ o = cCPH_DEC_PASSES ∨ o = cCPH_ENC_BYTES ∨ o =
    cCPH_ENC_PASSES ∨ o = cCPH_KEY_ABSENT_DROP ∨ o = cCPH_KEY_LIMIT_DROP ∨ o = cCPH_KEY_MISS ∨ o = cCPH_LEN_DROP ∨ o =
    cCPH_LS_PASSES ∨ o = cCPH_LS_QUEUE_DROP ∨ o = cCPH_ZEROISED_DROP ∨ atIndex cETH_TXHOLD_NS o ∨ o = cHEP_BME_HELD ∨ o =
    cPCR_P2_NS ∨ o = cPCR_THERM_HOLD_NS ∨ o = cSTR_REC_GAP ∨ o = cSTR_REC_LOST ∨ o = cSTR_REC_RECORDS ∨ atIndex
    cTMG_SHAPER_WAIT_NS o ∨ o = cWQM_CQ_FULL_NS ∨ (∃ n k, o = instCtr n k)
  | .playBlockOutput .. =>
    atIndex cCAS_G_BYTES_TX o ∨ atIndex cCAS_G_FRAMES_TX o ∨ o = cCAS_LOST_DEST_DROP ∨ o = cCAS_TLP_LOST ∨ o =
    cHEP_BME_HELD ∨ o = cSTR_LIB_CRC_ERR ∨ o = cSTR_PLAY_SAMPLES ∨ o = cWQM_CPL_WRITTEN ∨ o = cWQM_FLUSHED ∨ o =
    cWQM_INTR_SENT ∨ o = cWQM_SHED
  | .flrComplete .. =>
    atIndex cCAS_G_BYTES_TX o ∨ atIndex cCAS_G_FRAMES_TX o ∨ atIndex cCAS_G_WINDOW_STALL_NS o ∨ o = cCAS_LOST_DEST_DROP ∨
    o = cCAS_TLP_LOST ∨ o = cCPH_CKPT_STALL_NS ∨ atIndex cETH_TXHOLD_NS o ∨ o = cHEP_BME_HELD ∨ o = cHEP_FLR_COUNT ∨ o =
    cPCR_P2_NS ∨ o = cPCR_THERM_HOLD_NS ∨ atIndex cTMG_SHAPER_WAIT_NS o ∨ o = cWQM_CPL_WRITTEN ∨ o = cWQM_CQ_FULL_NS ∨ o =
    cWQM_FLUSHED ∨ o = cWQM_INTR_SENT ∨ o = cWQM_SHED ∨ (∃ n k, o = instCtr n k)
  | .vfEnableSet =>
    atIndex cCAS_G_BYTES_TX o ∨ atIndex cCAS_G_FRAMES_TX o ∨ o = cCAS_LOST_DEST_DROP ∨ o = cCAS_TLP_LOST ∨ o =
    cHEP_BME_HELD ∨ o = cHEP_UR_SENT ∨ o = cWQM_CPL_WRITTEN ∨ o = cWQM_FLUSHED ∨ o = cWQM_INTR_SENT ∨ o = cWQM_SHED
  | .readCompletionRx .. =>
    atIndex cCAS_G_BYTES_TX o ∨ atIndex cCAS_G_FRAMES_TX o ∨ o = cCAS_LOST_DEST_DROP ∨ o = cCAS_TLP_LOST ∨ o =
    cCPH_AUTH_FAIL ∨ o = cCPH_DEC_BYTES ∨ o = cCPH_DEC_PASSES ∨ o = cCPH_ENC_BYTES ∨ o = cCPH_ENC_PASSES ∨ o =
    cCPH_KEY_ABSENT_DROP ∨ o = cCPH_KEY_LIMIT_DROP ∨ o = cCPH_KEY_MISS ∨ o = cCPH_LEN_DROP ∨ o = cCPH_LS_PASSES ∨ o =
    cCPH_LS_QUEUE_DROP ∨ o = cCPH_ZEROISED_DROP ∨ o = cCRT_ATTESTS ∨ o = cDMA_BURSTS ∨ o = cDMA_BYTES_READ ∨ o =
    cDMA_BYTES_WRITTEN ∨ o = cDMA_FAULTS ∨ o = cHEP_BME_HELD ∨ o = cHEP_LATE_CPL ∨ o = cHEP_POISONED_RX ∨ o = cMBX_MSGS ∨
    o = cSTR_BYTES_READ ∨ o = cSTR_BYTES_WRITTEN ∨ o = cSTR_CMDS_DONE ∨ o = cSTR_CMDS_ERR ∨ o = cSTR_SHED_CMDS ∨ o =
    cVFM_DTU_FAULTS ∨ o = cVFM_DTU_MISS ∨ o = cWQM_CPL_WRITTEN ∨ o = cWQM_DESC_FETCHED ∨ o = cWQM_FLUSHED ∨ o =
    cWQM_INTR_SENT ∨ o = cWQM_SHED ∨ (∃ n k, o = instCtr n k)
  | .completionTimeout .. =>
    atIndex cCAS_G_BYTES_TX o ∨ atIndex cCAS_G_FRAMES_TX o ∨ atIndex cCAS_G_WINDOW_STALL_NS o ∨ o = cCAS_LOST_DEST_DROP ∨
    o = cCAS_TLP_LOST ∨ o = cCPH_AUTH_FAIL ∨ o = cCPH_CKPT_STALL_NS ∨ o = cCPH_DEC_BYTES ∨ o = cCPH_DEC_PASSES ∨ o =
    cCPH_ENC_BYTES ∨ o = cCPH_ENC_PASSES ∨ o = cCPH_KEY_ABSENT_DROP ∨ o = cCPH_KEY_LIMIT_DROP ∨ o = cCPH_KEY_MISS ∨ o =
    cCPH_LEN_DROP ∨ o = cCPH_LS_PASSES ∨ o = cCPH_LS_QUEUE_DROP ∨ o = cCPH_ZEROISED_DROP ∨ o = cCRT_ATTESTS ∨ o =
    cDMA_BURSTS ∨ o = cDMA_BYTES_READ ∨ o = cDMA_BYTES_WRITTEN ∨ o = cDMA_FAULTS ∨ atIndex cETH_TXHOLD_NS o ∨ o =
    cHEP_BME_HELD ∨ o = cHEP_CPL_TIMEOUT ∨ o = cHEP_POISONED_RX ∨ o = cMBX_MSGS ∨ o = cPCR_P2_NS ∨ o = cPCR_THERM_HOLD_NS
    ∨ o = cSTR_BYTES_READ ∨ o = cSTR_BYTES_WRITTEN ∨ o = cSTR_CMDS_DONE ∨ o = cSTR_CMDS_ERR ∨ o = cSTR_SHED_CMDS ∨ atIndex
    cTMG_SHAPER_WAIT_NS o ∨ o = cVFM_DTU_FAULTS ∨ o = cVFM_DTU_MISS ∨ o = cWQM_CPL_WRITTEN ∨ o = cWQM_CQ_FULL_NS ∨ o =
    cWQM_DESC_FETCHED ∨ o = cWQM_FLUSHED ∨ o = cWQM_INTR_SENT ∨ o = cWQM_SHED ∨ (∃ n k, o = instCtr n k)
  | .vfmIndRead .. =>
    atIndex cCAS_G_BYTES_TX o ∨ atIndex cCAS_G_FRAMES_TX o ∨ o = cCAS_LOST_DEST_DROP ∨ o = cCAS_TLP_LOST ∨ o =
    cHEP_BME_HELD ∨ o = cMEM_HBM_CORR ∨ o = cMEM_HBM_UNCORR ∨ o = cTIM_LOG_LOST ∨ o = cWQM_CPL_WRITTEN ∨ o = cWQM_FLUSHED
    ∨ o = cWQM_INTR_SENT ∨ o = cWQM_SHED
  | .quiesceTimeout .. =>
    atIndex cCAS_G_BYTES_TX o ∨ atIndex cCAS_G_FRAMES_TX o ∨ atIndex cCAS_G_WINDOW_STALL_NS o ∨ o = cCAS_LOST_DEST_DROP ∨
    o = cCAS_TLP_LOST ∨ o = cCPH_CKPT_STALL_NS ∨ atIndex cETH_TXHOLD_NS o ∨ o = cHEP_BME_HELD ∨ o = cPCR_P2_NS ∨ o =
    cPCR_THERM_HOLD_NS ∨ atIndex cTMG_SHAPER_WAIT_NS o ∨ o = cWQM_CPL_WRITTEN ∨ o = cWQM_CQ_FULL_NS ∨ o = cWQM_FLUSHED ∨ o
    = cWQM_INTR_SENT ∨ o = cWQM_SHED ∨ (∃ n k, o = instCtr n k)
  | .dtuMissFill .. =>
    atIndex cCAS_G_BYTES_TX o ∨ atIndex cCAS_G_FRAMES_TX o ∨ o = cCAS_LOST_DEST_DROP ∨ o = cCAS_TLP_LOST ∨ o =
    cHEP_BME_HELD ∨ o = cMEM_HBM_CORR ∨ o = cMEM_HBM_UNCORR ∨ o = cTIM_LOG_LOST ∨ o = cVFM_DTU_FAULTS ∨ o = cVFM_DTU_MISS
    ∨ (∃ n k, o = instCtr n k)
  | .cqArmWrite .. =>
    atIndex cCAS_G_BYTES_TX o ∨ atIndex cCAS_G_FRAMES_TX o ∨ o = cCAS_LOST_DEST_DROP ∨ o = cCAS_TLP_LOST ∨ o =
    cHEP_BME_HELD ∨ o = cWQM_INTR_SENT
  | .geyserWrite .. =>
    atIndex cCAS_G_BYTES_TX o ∨ atIndex cCAS_G_FRAMES_TX o ∨ o = cCAS_LOST_DEST_DROP ∨ o = cCAS_TLP_LOST ∨ o =
    cHEP_BME_HELD ∨ o = cWQM_GEYSER_FALLBACK ∨ o = cWQM_GEYSER_PUSH
  | .descriptorFetch .. =>
    atIndex cCAS_G_BYTES_TX o ∨ atIndex cCAS_G_FRAMES_TX o ∨ o = cCAS_LOST_DEST_DROP ∨ o = cCAS_TLP_LOST ∨ o =
    cHEP_BME_HELD ∨ o = cHEP_POISONED_RX ∨ o = cWQM_CPL_WRITTEN ∨ o = cWQM_DESC_FETCHED ∨ o = cWQM_FLUSHED ∨ o =
    cWQM_INTR_SENT ∨ o = cWQM_SHED
  | .txFrame .. =>
    atIndex cCAS_G_BYTES_TX o ∨ atIndex cCAS_G_FRAMES_TX o ∨ o = cCAS_LOST_DEST_DROP ∨ o = cCAS_TLP_LOST ∨ o =
    cHEP_BME_HELD ∨ o = cHEP_POISONED_RX ∨ o = cWQM_CPL_WRITTEN ∨ o = cWQM_FLUSHED ∨ o = cWQM_INTR_SENT ∨ o = cWQM_SHED
  | .rxFrameDeliver .. =>
    atIndex cCAS_G_BYTES_TX o ∨ atIndex cCAS_G_FRAMES_TX o ∨ o = cCAS_LOST_DEST_DROP ∨ o = cCAS_TLP_LOST ∨ o =
    cHEP_BME_HELD ∨ atIndex cPOOL_RX_DROP o ∨ o = cWQM_CPL_WRITTEN ∨ o = cWQM_FLUSHED ∨ o = cWQM_INTR_SENT ∨ o = cWQM_SHED
    ∨ (∃ n k, o = instCtr n k)
  | .moderationTimerExpiry .. =>
    atIndex cCAS_G_BYTES_TX o ∨ atIndex cCAS_G_FRAMES_TX o ∨ atIndex cCAS_G_WINDOW_STALL_NS o ∨ o = cCAS_LOST_DEST_DROP ∨
    o = cCAS_TLP_LOST ∨ o = cCPH_CKPT_STALL_NS ∨ atIndex cETH_TXHOLD_NS o ∨ o = cHEP_BME_HELD ∨ o = cPCR_P2_NS ∨ o =
    cPCR_THERM_HOLD_NS ∨ atIndex cTMG_SHAPER_WAIT_NS o ∨ o = cWQM_CQ_FULL_NS ∨ o = cWQM_INTR_SENT ∨ (∃ n k, o = instCtr n
    k)
  | .queueResetDrained .. =>
    atIndex cCAS_G_BYTES_TX o ∨ atIndex cCAS_G_FRAMES_TX o ∨ atIndex cCAS_G_WINDOW_STALL_NS o ∨ o = cCAS_LOST_DEST_DROP ∨
    o = cCAS_TLP_LOST ∨ o = cCPH_CKPT_STALL_NS ∨ atIndex cETH_TXHOLD_NS o ∨ o = cHEP_BME_HELD ∨ o = cHEP_CPL_TIMEOUT ∨ o =
    cHEP_POISONED_RX ∨ o = cPCR_P2_NS ∨ o = cPCR_THERM_HOLD_NS ∨ atIndex cTMG_SHAPER_WAIT_NS o ∨ o = cWQM_CPL_WRITTEN ∨ o
    = cWQM_CQ_FULL_NS ∨ o = cWQM_DESC_FETCHED ∨ o = cWQM_FLUSHED ∨ o = cWQM_INTR_SENT ∨ o = cWQM_SHED ∨ (∃ n k, o =
    instCtr n k)
  | .keyCommitDone =>
    atIndex cCAS_G_BYTES_TX o ∨ atIndex cCAS_G_FRAMES_TX o ∨ o = cCAS_LOST_DEST_DROP ∨ o = cCAS_TLP_LOST ∨ o =
    cCRT_KEY_COMMITS ∨ o = cHEP_BME_HELD ∨ o = cWQM_CPL_WRITTEN ∨ o = cWQM_FLUSHED ∨ o = cWQM_INTR_SENT ∨ o = cWQM_SHED
  | .adminJnlRead .. =>
    atIndex cCAS_G_BYTES_TX o ∨ atIndex cCAS_G_FRAMES_TX o ∨ o = cCAS_LOST_DEST_DROP ∨ o = cCAS_TLP_LOST ∨ o =
    cCPH_AUTH_FAIL ∨ o = cCPH_DEC_BYTES ∨ o = cCPH_DEC_PASSES ∨ o = cCPH_ENC_BYTES ∨ o = cCPH_ENC_PASSES ∨ o =
    cCPH_KEY_ABSENT_DROP ∨ o = cCPH_KEY_LIMIT_DROP ∨ o = cCPH_KEY_MISS ∨ o = cCPH_LEN_DROP ∨ o = cCPH_LS_PASSES ∨ o =
    cCPH_LS_QUEUE_DROP ∨ o = cCPH_ZEROISED_DROP ∨ o = cHEP_BME_HELD ∨ o = cMEM_HBM_CORR ∨ o = cMEM_HBM_UNCORR ∨ o =
    cSTR_BYTES_READ ∨ o = cSTR_BYTES_WRITTEN ∨ o = cSTR_CMDS_DONE ∨ o = cSTR_CMDS_ERR ∨ o = cTIM_LOG_LOST ∨ o =
    cVFM_DTU_FAULTS ∨ o = cVFM_DTU_MISS ∨ o = cWQM_CPL_WRITTEN ∨ o = cWQM_FLUSHED ∨ o = cWQM_INTR_SENT ∨ o = cWQM_SHED ∨
    (∃ n k, o = instCtr n k)
  | .dmaBurstComplete .. =>
    atIndex cCAS_G_BYTES_TX o ∨ atIndex cCAS_G_FRAMES_TX o ∨ o = cCAS_LOST_DEST_DROP ∨ o = cCAS_TLP_LOST ∨ o = cDMA_BURSTS
    ∨ o = cDMA_BYTES_READ ∨ o = cDMA_BYTES_WRITTEN ∨ o = cDMA_FAULTS ∨ o = cHEP_BME_HELD ∨ o = cHEP_POISONED_RX ∨ o =
    cVFM_DTU_FAULTS ∨ o = cVFM_DTU_MISS ∨ (∃ n k, o = instCtr n k)
  | .insnLoad .. =>
    atIndex cCAS_G_BYTES_TX o ∨ atIndex cCAS_G_FRAMES_TX o ∨ o = cCAS_LOST_DEST_DROP ∨ o = cCAS_TLP_LOST ∨ o =
    cDMA_BYTES_READ ∨ o = cDMA_FAULTS ∨ o = cHEP_BME_HELD ∨ o = cHEP_POISONED_RX ∨ o = cVFM_DTU_FAULTS ∨ o = cVFM_DTU_MISS
    ∨ (∃ n k, o = instCtr n k)
  | .insnStore .. =>
    atIndex cCAS_G_BYTES_TX o ∨ atIndex cCAS_G_FRAMES_TX o ∨ o = cCAS_LOST_DEST_DROP ∨ o = cCAS_TLP_LOST ∨ o =
    cDMA_BYTES_WRITTEN ∨ o = cDMA_FAULTS ∨ o = cHEP_BME_HELD ∨ o = cVFM_DTU_FAULTS ∨ o = cVFM_DTU_MISS ∨ (∃ n k, o =
    instCtr n k)
  | .insnSignal .. =>
    atIndex cCAS_G_BYTES_TX o ∨ atIndex cCAS_G_FRAMES_TX o ∨ o = cCAS_LOST_DEST_DROP ∨ o = cCAS_TLP_LOST ∨ o = cDMA_FAULTS
    ∨ o = cDMA_REQ_OVF ∨ o = cHEP_BME_HELD
  | .fenceDone .. =>
    atIndex cCAS_G_BYTES_TX o ∨ atIndex cCAS_G_FRAMES_TX o ∨ o = cCAS_LOST_DEST_DROP ∨ o = cCAS_TLP_LOST ∨ o = cDMA_FAULTS
    ∨ o = cHEP_BME_HELD ∨ o = cHEP_POISONED_RX
  | .reqSetWrite .. =>
    atIndex cCAS_G_BYTES_TX o ∨ atIndex cCAS_G_FRAMES_TX o ∨ o = cCAS_LOST_DEST_DROP ∨ o = cCAS_TLP_LOST ∨ o =
    cDMA_REQ_OVF ∨ o = cHEP_BME_HELD
  | .poolRequest .. =>
    atIndex cCAS_G_BYTES_TX o ∨ atIndex cCAS_G_FRAMES_TX o ∨ o = cCAS_LOST_DEST_DROP ∨ o = cCAS_TLP_LOST ∨ o =
    cHEP_BME_HELD ∨ o = cMEM_HBM_CORR ∨ o = cMEM_HBM_UNCORR ∨ atIndex cPOOL_ALLOCS o ∨ atIndex cPOOL_EMPTY_REFUSE o ∨
    atIndex cPOOL_LINK_CORR o ∨ atIndex cPOOL_LS_DROP o ∨ atIndex cPOOL_QUOTA_REFUSE o ∨ atIndex cPOOL_RX_DROP o ∨ o =
    cTIM_LOG_LOST
  | .poolWaitExpiry .. =>
    atIndex cCAS_G_BYTES_TX o ∨ atIndex cCAS_G_FRAMES_TX o ∨ atIndex cCAS_G_WINDOW_STALL_NS o ∨ o = cCAS_LOST_DEST_DROP ∨
    o = cCAS_TLP_LOST ∨ o = cCPH_CKPT_STALL_NS ∨ atIndex cETH_TXHOLD_NS o ∨ o = cHEP_BME_HELD ∨ o = cMEM_HBM_CORR ∨ o =
    cMEM_HBM_UNCORR ∨ o = cPCR_P2_NS ∨ o = cPCR_THERM_HOLD_NS ∨ atIndex cPOOL_ALLOCS o ∨ atIndex cPOOL_EMPTY_REFUSE o ∨
    atIndex cPOOL_FALLBACK o ∨ atIndex cPOOL_LINK_CORR o ∨ atIndex cPOOL_LS_DROP o ∨ atIndex cPOOL_QUOTA_REFUSE o ∨
    atIndex cPOOL_RX_DROP o ∨ atIndex cPOOL_WAIT_NS_SUM o ∨ o = cTIM_LOG_LOST ∨ atIndex cTMG_SHAPER_WAIT_NS o ∨ o =
    cWQM_CQ_FULL_NS ∨ (∃ n k, o = instCtr n k)
  | .bufferFree .. =>
    atIndex cCAS_G_BYTES_TX o ∨ atIndex cCAS_G_FRAMES_TX o ∨ o = cCAS_LOST_DEST_DROP ∨ o = cCAS_TLP_LOST ∨ o =
    cHEP_BME_HELD ∨ o = cMEM_HBM_CORR ∨ o = cMEM_HBM_UNCORR ∨ atIndex cPOOL_ALLOCS o ∨ atIndex cPOOL_LINK_CORR o ∨ atIndex
    cPOOL_WAIT_NS_SUM o ∨ o = cTIM_LOG_LOST
  | .rebuildDone .. =>
    atIndex cCAS_G_BYTES_TX o ∨ atIndex cCAS_G_FRAMES_TX o ∨ atIndex cCAS_G_WINDOW_STALL_NS o ∨ o = cCAS_LOST_DEST_DROP ∨
    o = cCAS_TLP_LOST ∨ o = cCPH_CKPT_STALL_NS ∨ atIndex cETH_TXHOLD_NS o ∨ o = cHEP_BME_HELD ∨ o = cMEM_HBM_CORR ∨ o =
    cMEM_HBM_UNCORR ∨ o = cPCR_P2_NS ∨ o = cPCR_THERM_HOLD_NS ∨ atIndex cPOOL_ALLOCS o ∨ atIndex cPOOL_LINK_CORR o ∨
    atIndex cPOOL_WAIT_NS_SUM o ∨ o = cTIM_LOG_LOST ∨ atIndex cTMG_SHAPER_WAIT_NS o ∨ o = cWQM_CQ_FULL_NS ∨ (∃ n k, o =
    instCtr n k)
  | .loopCycleStart .. =>
    atIndex cCAS_G_BYTES_TX o ∨ atIndex cCAS_G_FRAMES_TX o ∨ atIndex cCAS_G_WINDOW_STALL_NS o ∨ o = cCAS_LOST_DEST_DROP ∨
    o = cCAS_TLP_LOST ∨ o = cCPH_CKPT_STALL_NS ∨ o = cCPH_DEC_BYTES ∨ o = cCPH_DEC_PASSES ∨ o = cCPH_ENC_BYTES ∨ o =
    cCPH_ENC_PASSES ∨ o = cCPH_KEY_ABSENT_DROP ∨ o = cCPH_KEY_LIMIT_DROP ∨ o = cCPH_KEY_MISS ∨ o = cCPH_LEN_DROP ∨ o =
    cCPH_LS_PASSES ∨ o = cCPH_LS_QUEUE_DROP ∨ o = cCPH_ZEROISED_DROP ∨ o = cDMA_REQ_OVF ∨ atIndex cETH_TXHOLD_NS o ∨ o =
    cHEP_BME_HELD ∨ atIndex cLOOP_FRAMES_TX o ∨ atIndex cLOOP_LOOP_CYCLES o ∨ atIndex cLOOP_NODE_FAULTS o ∨ atIndex
    cLOOP_SLOT_MISS o ∨ atIndex cLOOP_TOKEN_LOST o ∨ o = cPCR_P2_NS ∨ o = cPCR_THERM_HOLD_NS ∨ atIndex cTMG_SHAPER_WAIT_NS
    o ∨ o = cWQM_CQ_FULL_NS ∨ (∃ n k, o = instCtr n k)
  | .sweepRx .. =>
    atIndex cCAS_G_BYTES_TX o ∨ atIndex cCAS_G_FRAMES_TX o ∨ o = cCAS_LOST_DEST_DROP ∨ o = cCAS_TLP_LOST ∨ o =
    cCPH_AUTH_FAIL ∨ o = cCPH_DEC_BYTES ∨ o = cCPH_DEC_PASSES ∨ o = cCPH_ENC_BYTES ∨ o = cCPH_ENC_PASSES ∨ o =
    cCPH_KEY_ABSENT_DROP ∨ o = cCPH_KEY_LIMIT_DROP ∨ o = cCPH_KEY_MISS ∨ o = cCPH_LEN_DROP ∨ o = cCPH_LS_PASSES ∨ o =
    cCPH_LS_QUEUE_DROP ∨ o = cCPH_ZEROISED_DROP ∨ o = cDMA_REQ_OVF ∨ o = cHEP_BME_HELD ∨ atIndex cLOOP_AUDIO_AUTH_FAIL o ∨
    atIndex cLOOP_CONFLICTS o ∨ atIndex cLOOP_CRC_ERR o ∨ atIndex cLOOP_LOOP_CYCLES o ∨ atIndex cLOOP_SLOT_MISS o ∨
    atIndex cLOOP_STALE o ∨ atIndex cLOOP_SWEEPS_RX o ∨ o = cTIM_TIME_STEPS
  | .sweepReturn .. =>
    atIndex cCAS_G_BYTES_TX o ∨ atIndex cCAS_G_FRAMES_TX o ∨ o = cCAS_LOST_DEST_DROP ∨ o = cCAS_TLP_LOST ∨ o =
    cHEP_BME_HELD ∨ atIndex cLOOP_CRC_ERR o ∨ atIndex cLOOP_LATE_SWEEP o
  | .tokenRx .. => atIndex cLOOP_FRAMES_TX o
  | .loopFrameRx .. => atIndex cLOOP_CRC_ERR o ∨ atIndex cLOOP_FRAMES_RX o ∨ atIndex cLOOP_RATE_DROP o
  | .masterListenTimeout .. =>
    atIndex cCAS_G_BYTES_TX o ∨ atIndex cCAS_G_FRAMES_TX o ∨ atIndex cCAS_G_WINDOW_STALL_NS o ∨ o = cCAS_LOST_DEST_DROP ∨
    o = cCAS_TLP_LOST ∨ o = cCPH_CKPT_STALL_NS ∨ atIndex cETH_TXHOLD_NS o ∨ o = cHEP_BME_HELD ∨ atIndex
    cLOOP_AUDIO_AUTH_FAIL o ∨ o = cPCR_P2_NS ∨ o = cPCR_THERM_HOLD_NS ∨ atIndex cTMG_SHAPER_WAIT_NS o ∨ o =
    cWQM_CQ_FULL_NS ∨ (∃ n k, o = instCtr n k)
  | .gondolaMarkerRx .. =>
    atIndex cCAS_G_BYTES_TX o ∨ atIndex cCAS_G_FRAMES_TX o ∨ atIndex cCAS_G_MARKER_ERR o ∨ atIndex cCAS_G_REPLAYS o ∨
    atIndex cCAS_G_RETRAINS o ∨ o = cCAS_LINK_LOSS_DROP ∨ o = cCAS_LOST_DEST_DROP ∨ o = cCAS_MEMBER_LOSSES ∨ o =
    cCAS_TLP_LOST ∨ o = cHEP_BME_HELD ∨ o = cHEP_MEMBER_LOSSES ∨ o = cHEP_UR_SENT ∨ o = cTIM_LOG_LOST
  | .markerLockLoss .. =>
    atIndex cCAS_G_BYTES_TX o ∨ atIndex cCAS_G_FRAMES_TX o ∨ o = cCAS_LINK_LOSS_DROP ∨ o = cCAS_LOST_DEST_DROP ∨ o =
    cCAS_MEMBER_LOSSES ∨ o = cCAS_TLP_LOST ∨ o = cHEP_BME_HELD ∨ o = cHEP_MEMBER_LOSSES ∨ o = cHEP_UR_SENT ∨ o =
    cTIM_LOG_LOST
  | .fabricFrameRx .. =>
    atIndex cCAS_G_BYTES_RX o ∨ atIndex cCAS_G_CRC_ERR o ∨ atIndex cCAS_G_DUP_DROP o ∨ atIndex cCAS_G_FRAMES_RX o ∨
    atIndex cCAS_G_NAK_TX o ∨ o = cCAS_LINK_LOSS_DROP ∨ o = cCAS_STALE_ROUTE_DROP
  | .topoRx .. =>
    atIndex cCAS_G_BYTES_RX o ∨ atIndex cCAS_G_BYTES_TX o ∨ atIndex cCAS_G_CRC_ERR o ∨ atIndex cCAS_G_DUP_DROP o ∨ atIndex
    cCAS_G_FRAMES_RX o ∨ atIndex cCAS_G_FRAMES_TX o ∨ atIndex cCAS_G_NAK_TX o ∨ o = cCAS_LINK_LOSS_DROP ∨ o =
    cCAS_LOST_DEST_DROP ∨ o = cCAS_MEMBER_LOSSES ∨ o = cCAS_TLP_LOST ∨ o = cCAS_TOPO_REJECT ∨ o = cHEP_BME_HELD ∨ o =
    cHEP_MEMBER_LOSSES ∨ o = cHEP_UR_SENT ∨ o = cTIM_LOG_LOST
  | .topoPeriodicSend => atIndex cCAS_G_BYTES_TX o ∨ atIndex cCAS_G_FRAMES_TX o
  | .tlpHoldExpiry .. =>
    atIndex cCAS_G_BYTES_TX o ∨ atIndex cCAS_G_FRAMES_TX o ∨ atIndex cCAS_G_WINDOW_STALL_NS o ∨ o = cCAS_LOST_DEST_DROP ∨
    o = cCAS_TLP_LOST ∨ o = cCPH_CKPT_STALL_NS ∨ atIndex cETH_TXHOLD_NS o ∨ o = cPCR_P2_NS ∨ o = cPCR_THERM_HOLD_NS ∨
    atIndex cTMG_SHAPER_WAIT_NS o ∨ o = cWQM_CQ_FULL_NS ∨ (∃ n k, o = instCtr n k)
  | .threadResume .. => o = cSVC_TRAPS
  | .serviceWdogExpiry =>
    atIndex cCAS_G_BYTES_TX o ∨ atIndex cCAS_G_FRAMES_TX o ∨ atIndex cCAS_G_WINDOW_STALL_NS o ∨ o = cCAS_LOST_DEST_DROP ∨
    o = cCAS_TLP_LOST ∨ o = cCPH_CKPT_STALL_NS ∨ atIndex cETH_TXHOLD_NS o ∨ o = cHEP_BME_HELD ∨ o = cPCR_P2_NS ∨ o =
    cPCR_THERM_HOLD_NS ∨ o = cSVC_RESTARTS ∨ o = cTIM_LOG_LOST ∨ atIndex cTMG_SHAPER_WAIT_NS o ∨ o = cWQM_CPL_WRITTEN ∨ o
    = cWQM_CQ_FULL_NS ∨ o = cWQM_FLUSHED ∨ o = cWQM_INTR_SENT ∨ o = cWQM_SHED ∨ (∃ n k, o = instCtr n k)
  | .secureAttest .. =>
    atIndex cCAS_G_BYTES_TX o ∨ atIndex cCAS_G_FRAMES_TX o ∨ o = cCAS_LOST_DEST_DROP ∨ o = cCAS_TLP_LOST ∨ o =
    cCRT_ATTESTS ∨ o = cCRT_MBS_REJECT ∨ o = cHEP_BME_HELD ∨ o = cHEP_POISONED_RX ∨ o = cMBX_MSGS ∨ o = cVFM_DTU_FAULTS ∨
    o = cVFM_DTU_MISS ∨ (∃ n k, o = instCtr n k)
  | .craterRequestRead =>
    atIndex cCAS_G_BYTES_TX o ∨ atIndex cCAS_G_FRAMES_TX o ∨ o = cCAS_LOST_DEST_DROP ∨ o = cCAS_TLP_LOST ∨ o =
    cHEP_BME_HELD ∨ o = cMBX_MSGS
  | .imageVerified =>
    atIndex cCAS_G_BYTES_TX o ∨ atIndex cCAS_G_FRAMES_TX o ∨ atIndex cCAS_G_WINDOW_STALL_NS o ∨ o = cCAS_LOST_DEST_DROP ∨
    o = cCAS_TLP_LOST ∨ o = cCPH_CKPT_STALL_NS ∨ atIndex cETH_TXHOLD_NS o ∨ o = cHEP_BME_HELD ∨ o = cPCR_P2_NS ∨ o =
    cPCR_REFUGE_STARTS ∨ o = cPCR_START_FAILURES ∨ o = cPCR_THERM_HOLD_NS ∨ o = cTIM_LOG_ENTRIES ∨ o = cTIM_LOG_LOST ∨
    atIndex cTMG_SHAPER_WAIT_NS o ∨ o = cWQM_CQ_FULL_NS ∨ (∃ n k, o = instCtr n k)
  | .storeReady =>
    atIndex cCAS_G_BYTES_TX o ∨ atIndex cCAS_G_FRAMES_TX o ∨ atIndex cCAS_G_WINDOW_STALL_NS o ∨ o = cCAS_LOST_DEST_DROP ∨
    o = cCAS_TLP_LOST ∨ o = cCPH_CKPT_STALL_NS ∨ o = cCRT_SLOTS_DAMAGED ∨ atIndex cETH_TXHOLD_NS o ∨ o = cHEP_BME_HELD ∨ o
    = cPCR_P2_NS ∨ o = cPCR_THERM_HOLD_NS ∨ o = cTIM_LOG_LOST ∨ atIndex cTMG_SHAPER_WAIT_NS o ∨ o = cWQM_CQ_FULL_NS ∨ (∃ n
    k, o = instCtr n k)
  | .vaux33Good =>
    atIndex cCAS_G_BYTES_TX o ∨ atIndex cCAS_G_FRAMES_TX o ∨ o = cCAS_LOST_DEST_DROP ∨ o = cCAS_TLP_LOST ∨ o =
    cHEP_BME_HELD ∨ o = cPCR_FULL_RESETS ∨ o = cPCR_REFUGE_STARTS ∨ o = cTIM_LOG_LOST
  | .swresetService .. =>
    atIndex cCAS_G_BYTES_TX o ∨ atIndex cCAS_G_FRAMES_TX o ∨ o = cCAS_LOST_DEST_DROP ∨ o = cCAS_TLP_LOST ∨ o =
    cHEP_BME_HELD ∨ o = cTIM_LOG_LOST ∨ o = cWQM_CPL_WRITTEN ∨ o = cWQM_FLUSHED ∨ o = cWQM_INTR_SENT ∨ o = cWQM_SHED
  | .thermalHoldEnd =>
    atIndex cCAS_G_BYTES_TX o ∨ atIndex cCAS_G_FRAMES_TX o ∨ atIndex cCAS_G_WINDOW_STALL_NS o ∨ o = cCAS_LOST_DEST_DROP ∨
    o = cCAS_TLP_LOST ∨ o = cCPH_CKPT_STALL_NS ∨ atIndex cETH_LS_REDIRECT o ∨ atIndex cETH_TXHOLD_DROP o ∨ atIndex
    cETH_TXHOLD_NS o ∨ o = cHEP_BME_HELD ∨ o = cPCR_P2_NS ∨ o = cPCR_THERM_HOLD_NS ∨ atIndex cSWC_DROP_OTHER o ∨ atIndex
    cSWC_LS_DROP o ∨ atIndex cSWC_LS_OVERCAP o ∨ o = cTIM_LOG_LOST ∨ atIndex cTMG_SHAPER_WAIT_NS o ∨ o = cWQM_CQ_FULL_NS ∨
    (∃ n k, o = instCtr n k)
  | .scrubLineRead .. =>
    atIndex cCAS_G_BYTES_TX o ∨ atIndex cCAS_G_FRAMES_TX o ∨ o = cCAS_LOST_DEST_DROP ∨ o = cCAS_TLP_LOST ∨ o =
    cHEP_BME_HELD ∨ o = cMEM_HBM_CORR ∨ o = cMEM_HBM_UNCORR ∨ o = cMEM_SCRUB_PASSES ∨ o = cTIM_LOG_LOST
  | .nvmLineWrite .. =>
    atIndex cCAS_G_BYTES_TX o ∨ atIndex cCAS_G_FRAMES_TX o ∨ o = cCAS_LOST_DEST_DROP ∨ o = cCAS_TLP_LOST ∨ o =
    cHEP_BME_HELD ∨ o = cMEM_NVM_MOVES ∨ o = cMEM_NVM_RETIRED ∨ o = cMEM_NVM_WRITES
  | .owedMoveTick =>
    atIndex cCAS_G_WINDOW_STALL_NS o ∨ o = cCPH_CKPT_STALL_NS ∨ atIndex cETH_TXHOLD_NS o ∨ o = cMEM_NVM_MOVES ∨ o =
    cPCR_P2_NS ∨ o = cPCR_THERM_HOLD_NS ∨ atIndex cTMG_SHAPER_WAIT_NS o ∨ o = cWQM_CQ_FULL_NS ∨ (∃ n k, o = instCtr n k)
  | .ptpStepWrite .. =>
    atIndex cCAS_G_BYTES_TX o ∨ atIndex cCAS_G_FRAMES_TX o ∨ o = cCAS_LOST_DEST_DROP ∨ o = cCAS_TLP_LOST ∨ o =
    cHEP_BME_HELD ∨ o = cTIM_TIME_STEPS
  | .eventLogWrite =>
    atIndex cCAS_G_BYTES_TX o ∨ atIndex cCAS_G_FRAMES_TX o ∨ o = cCAS_LOST_DEST_DROP ∨ o = cCAS_TLP_LOST ∨ o =
    cHEP_BME_HELD ∨ o = cTIM_LOG_ENTRIES
  | .telemetrySnapshot =>
    atIndex cCAS_G_BYTES_TX o ∨ atIndex cCAS_G_FRAMES_TX o ∨ atIndex cCAS_G_WINDOW_STALL_NS o ∨ o = cCAS_LOST_DEST_DROP ∨
    o = cCAS_TLP_LOST ∨ o = cCPH_CKPT_STALL_NS ∨ atIndex cETH_TXHOLD_NS o ∨ o = cHEP_BME_HELD ∨ o = cPCR_P2_NS ∨ o =
    cPCR_THERM_HOLD_NS ∨ o = cTIM_TELEM_LOST ∨ o = cTIM_TELEM_SNAPSHOTS ∨ atIndex cTMG_SHAPER_WAIT_NS o ∨ o =
    cWQM_CQ_FULL_NS ∨ (∃ n k, o = instCtr n k)

/-- What surrounds the block: the host side, the frame and link fabric, and the platform. -/
inductive Side where
  | host
  | fabric
  | platform
deriving DecidableEq, Repr

/-- The side a command belongs to. -/
def sideOf (c : Instr) : Side :=
  match c with
  | .registerWrite .. | .counterLowRead .. | .eventMaskWrite .. | .inputCombinationAccept .. | .emsgDeclare ..
  | .emsgClear .. | .emsgDrillStart .. | .emsgDrillEnd .. | .holdoverExpiry | .drillCtlStart .. | .drillCtlStop ..
  | .drillTimeout | .precedenceLevelArrive .. | .entryDone | .wakePatternRx .. | .storCmdExecute ..
  | .tcpSegmentRx | .rtoExpiry .. | .delayedAckExpiry .. | .keepaliveProbe .. | .icrespRx .. | .pduR2tRx ..
  | .c2hdataRx .. | .capsuleRespRx .. | .c2htermreqRx .. | .storCmdTimeout .. | .connectOpenTimeout ..
  | .connectionClosed .. | .journalRecordForm .. | .journalFlush | .journalWriteDone | .anchorCommit
  | .autoPlayStart .. | .playBlockOutput .. | .playRepeatEnd .. | .playFadeEnd .. | .strIndRead .. | .strIndWrite ..
  | .linkTrainingDone .. | .pcieLinkDown | .perstAssert | .perstDeassert | .hotReset | .loopCycleStart ..
  | .sweepRx .. | .sweepReturn .. | .tokenRx .. | .loopFrameRx .. | .mgmtPlay .. | .mgmtPlayStop .. | .mgmtReset ..
  | .breakRx .. | .wakeRx .. | .pdReqRx .. | .pdRespRx .. | .pdMeasure .. | .loopLockLoss .. | .loopUnwrap ..
  | .masterListenTimeout .. | .loopWakeSend .. | .loopIndRead .. | .loopIndWrite .. | .tlpFrameRx .. | .slotFrameRx ..
  | .threadInstruction .. | .threadEvwait .. | .evwaitDeadline .. | .threadEvpost .. | .threadTrap .. | .threadMret ..
  | .svcTimerEvent .. | .threadRelease .. | .threadHalt .. | .threadHeld .. | .threadReset .. | .threadResume ..
  | .setupRegisterWrite .. | .faultFifoPop .. | .wdogKick .. | .serviceWdogExpiry | .craterWatchdogExpiry
  | .lockstepMismatch | .doubleTrap | .craterResume | .secureState .. | .secureSlotGen .. | .secureAttest ..
  | .secureKeyopAck .. | .tamperAccept | .zeroiseComplete | .mbxWordCommit .. | .mbxRelease .. | .mbxDbSet ..
  | .mbxDbMaskWrite .. | .emptyEnWrite .. | .craterRequestRead | .mctpWrite .. | .mctpRead | .mctpRelease
  | .recBegin .. | .recData .. | .recFinish | .recActivate | .recStatus | .mctpSignedReset ..
  | .mctpPowerState .. | .smbErrsrcRead | .smbArbitrationLost | .smbSclTimeout | .imgWrite ..
  | .imgStagedChecked | .imgPageWrite | .imgVerifyDone | .imgActivate .. | .imgDeactivate .. | .imgVerify ..
  | .imgConfirm .. | .imgAbort .. | .imageVerified | .emergencyPathReady | .configurationReady
  | .storeReady | .fullOperation | .startFailure .. | .startDeadline | .vin12Good | .vin12Lost
  | .vaux33Good | .vaux33Lost | .resetRelease | .swresetFull .. | .swresetService .. | .pwrCtlP0 ..
  | .pwrCtlP1 .. | .pwrCtlP2 .. | .pwrCtlP3 .. | .powerTransitionDone | .p3Wake .. | .thermalSample ..
  | .thermalHoldEnd | .thermalTripRelease | .islandClockFault .. | .scrubSegmentDue | .scrubLineRead ..
  | .nvmLineWrite .. | .owedMoveTick | .timCfgWrite .. | .ptpRateWrite .. | .ptpStepWrite .. | .slewEnd
  | .ptpNsRead .. | .freewheelTimeout | .eventLogWrite | .logEntryLoad .. | .telemetrySample ..
  | .telemetrySnapshot | .deviceTimeSecond | .blockLockRegained .. | .wakeSignallingEnd ..
  | .tamperTripCondition .. => .platform
  | .configRequest .. | .memoryRequest .. | .vendorMessageRx .. | .bmeClear .. | .bmeSet .. | .mseWrite ..
  | .d3hotEntry .. | .d0Return .. | .vfFlr .. | .pfFlr | .flrComplete .. | .flrTagQuarantine .. | .vfEnableSet
  | .vfEnableClear | .numvfsWrite .. | .readCompletionRx .. | .completionTimeout .. | .msixMaskWrite ..
  | .vfmIndRead .. | .vfmIndWrite .. | .fnCtlQuiesce .. | .fnCtlRun .. | .functionStopped .. | .quiesceTimeout ..
  | .dtuMissFill .. | .dtuUnmapComplete .. | .sqTailWrite .. | .cqHeadWrite .. | .cqArmWrite .. | .geyserWrite ..
  | .descriptorFetch .. | .txFrame .. | .rxFrameDeliver .. | .descNop .. | .moderationTimerExpiry ..
  | .qctlResetMode0 .. | .qctlResetMode1 .. | .queueResetDrained .. | .adminCfgWrite .. | .adminQueueConfig ..
  | .adminQueueReset .. | .adminVfConfig .. | .adminVfStateQuiesce .. | .adminVfStateRun .. | .adminDtuMap ..
  | .adminDtuUnmap .. | .adminTableWrite .. | .adminTableRead .. | .adminKeyInstall .. | .adminKeyRetire ..
  | .adminStorConnect .. | .adminStorDisconnect .. | .adminStorRaw .. | .adminJnlRead .. | .adminPlay ..
  | .adminPlayStop .. | .lsQueueRestore .. | .channelStart .. | .channelResume .. | .channelAbort ..
  | .channelAbortDone .. | .channelPauseSet .. | .channelPaused .. | .channelPauseClear .. | .insnNop .. | .insnMove ..
  | .insnFill .. | .dmaBurstComplete .. | .insnLoadi .. | .insnAdd .. | .insnLoad .. | .insnStore .. | .insnLoop ..
  | .insnBranch .. | .insnWait .. | .waitTimeExpiry .. | .insnSignal .. | .insnMode .. | .insnFence .. | .fenceDone ..
  | .insnHalt .. | .haltDone .. | .dmaTimerExpiry .. | .reqSetWrite .. | .pmemWordWrite .. | .pmemHiRead ..
  | .poolRequest .. | .poolWaitExpiry .. | .bufferFree .. | .poolRebuild .. | .rebuildDone .. | .poolIndRead ..
  | .poolIndWrite .. => .host
  | .parameterSweep .. | .ethFrameReceive .. | .pfcFrameRx .. | .pfcPauseExpiry .. | .pfcXoffRepeat ..
  | .ingressLookup .. | .cacheMissReturn .. | .switchAdmit .. | .spillReadbackSelect .. | .spillReadReturn ..
  | .slalomCellTime .. | .lsStagingHead .. | .outputFrameBoundary .. | .shaperConform .. | .egressPass ..
  | .tephraEntryWrite | .tephraCfgWrite .. | .cipherDispatch .. | .lsPassDispatch | .passResume ..
  | .cipherPassComplete .. | .resultRelease .. | .preemptAbandon .. | .keyLoad .. | .ckptCommit .. | .engineKatDone ..
  | .workingCopyRestore .. | .txholdLimit .. | .recalDue .. | .recalStart .. | .recalVerified .. | .recalTimeout ..
  | .recalDeferExpiry .. | .synthLock .. | .synthLockTimeout .. | .synthRelockAttempt .. | .ethLinkChange ..
  | .stationEntryWrite .. | .stnLoRead .. | .tsInfoPop .. | .flpIndRead .. | .flpIndWrite .. | .memberBlocksReturn
  | .flpInsert .. | .flpDelete .. | .profileQuiesce .. | .profileRun .. | .profileStopped .. | .agingScanBucket
  | .ageFifoPop .. | .tmgIndRead .. | .tmgIndWrite .. | .cphIndRead .. | .nearFifoPop .. | .slotControlWrite ..
  | .keyCommitDone | .gondolaMarkerRx .. | .markerLockLoss .. | .fabricFrameRx .. | .topoRx ..
  | .replayTimerExpiry .. | .retrainTimeout .. | .retrainRelock .. | .peerDetect .. | .trainingLock ..
  | .trainingTimeout .. | .verifyTimeout .. | .verifyRetry .. | .topoPeriodicSend | .mapHoldExpiry ..
  | .tlpHoldExpiry .. | .casRemoveReq .. | .casMemberReset .. | .swcIndWrite .. | .swcIndRead .. => .fabric

/-- The frame of a command that goes from `s` to `t`. -/
def frameHolds (c : Instr) (s t : State) : Prop :=
  (∀ o, ¬ regsOf c o → getReg t o = getReg s o) ∧ (∀ o, ¬ ctrsOf c o → getCtr t o = getCtr s o)
    ∧ ∀ p, p ∉ partsOf c → p.same s t

end Sys2Proof.Machine
end

