-- ==== Sys2Proof/Safety.lean ====
section
/-! DEFINITION. What the claims call a well-formed state. -/

namespace Sys2Proof.Machine

/-- A command completes: `exec` answers a next state, and it satisfies `P`. -/
def completes (c : Instr) (s : State) (P : State → Prop) : Prop := ∃ t, exec c s = .next t ∧ P t

/-- Device time after an event that happens at time `d`, and not before it. -/
def State.at_ (s : State) (d : Nat) : Nat := max s.now d

/-- The byte memories are in their canonical form: addresses strictly rising, and no listed byte equal to what an unlisted one reads as. -/
def State.memoriesWf (s : State) : Bool :=
  mwf zeroByte s.mem.svc && mwf zeroByte s.mem.devbuf && mwf zeroByte s.svc.scratch && mwf zeroByte s.mem.banks

/-- The stored register bits and the counters are in their canonical form. -/
def State.registersWf (s : State) : Bool := mwf regReset s.regs && mwf zero64 s.ctr

/-- Each key is listed once, in rising order: registers, counters, latches, the frames that wait behind a port, and the levels. -/
def State.coreTablesWf (s : State) : Bool :=
  msorted s.regs && msorted s.ctr && msorted s.latch && msorted s.sinks && msorted s.alp.levels && msorted s.eth.ports && msorted s.eth.groups

/-- The same of the tables of the host interface, the queues, the channels and the pools. -/
def State.hostTablesWf (s : State) : Bool :=
  msorted s.hep.fns && msorted s.hep.tags && msorted s.hep.vsw && msorted s.hep.memberReads && msorted s.vfm.records
    && msorted s.vfm.inForce && msorted s.vfm.fns && msorted s.vfm.segments && msorted s.wqm.queues && msorted s.dma.chans
    && msorted s.dma.pmem && msorted s.dma.reqs && msorted s.dma.served && msorted s.dma.timers && msorted s.pool.pools
    && msorted s.pool.held && msorted s.pool.quotas && msorted s.mbx.chans && msorted s.mbx.taken

/-- The same of the tables of the pipelines and the traffic manager. -/
def State.flowTablesWf (s : State) : Bool :=
  msorted s.flp.profState && msorted s.flp.exact && msorted s.flp.ternary && msorted s.flp.exactFrames && msorted s.flp.exactBytes
    && msorted s.flp.ternFrames && msorted s.flp.ternBytes && msorted s.flp.tunnels && msorted s.flp.l2 && msorted s.flp.groups
    && msorted s.flp.shedDrops && msorted s.flp.cache && msorted s.flp.ingress && msorted s.flp.hostTx && msorted s.flp.waiting
    && msorted s.flp.samples && msorted s.tmg.shapers && msorted s.tmg.policers && msorted s.tmg.shaperCounts
    && msorted s.tmg.policerCounts && msorted s.tmg.scaled && msorted s.tmg.cur && msorted s.tmg.deficit

/-- The same of the tables of the switch core. -/
def State.switchTablesWf (s : State) : Bool :=
  msorted s.swc.arrivals && msorted s.swc.voqs && msorted s.swc.mcqs && msorted s.swc.egressIn && msorted s.swc.egress
    && msorted s.swc.egressCells && msorted s.swc.instDie && msorted s.swc.instSpill && msorted s.swc.inputDie && msorted s.swc.gptr6
    && msorted s.swc.gptr && msorted s.swc.aptr && msorted s.swc.mcTurn && msorted s.swc.staging && msorted s.swc.lsPtr
    && msorted s.swc.lsIn && msorted s.swc.lsQueue && msorted s.swc.lsCells && msorted s.swc.meters && msorted s.swc.portSets
    && msorted s.swc.quotas

/-- The same of the tables of the ciphers, Crater, the service cluster, the memories and the log. -/
def State.secureTablesWf (s : State) : Bool :=
  msorted s.cph.slots && msorted s.cph.fenced && msorted s.cph.passes && msorted s.cph.handover
    && msorted s.crt.liveSince && msorted s.svc.threads && msorted s.mem.retired && msorted s.mem.sinceMove && msorted s.mem.gap
    && msorted s.mem.owed && msorted s.mem.lineWrites && msorted s.tim.log

/-- The same of the tables of storage, the loops and the Cascade controller. -/
def State.linkTablesWf (s : State) : Bool :=
  msorted s.str.map && msorted s.str.namespaces && msorted s.str.bindings && msorted s.str.streams && msorted s.str.conns
    && msorted s.str.cmds && msorted s.str.chans && msorted s.loops.ports && msorted s.cas.links && msorted s.cas.topo
    && msorted s.cas.reach && msorted s.cas.paths && msorted s.cas.epochs && msorted s.cas.lastEpoch && msorted s.cas.mapHold
    && msorted s.cas.tlpHold && msorted s.cas.hostReqs

/-- Every table of the state lists each of its keys once, in rising order. -/
def State.tablesWf (s : State) : Bool :=
  s.coreTablesWf && s.hostTablesWf && s.flowTablesWf && s.switchTablesWf && s.secureTablesWf && s.linkTablesWf

end Sys2Proof.Machine
end

