-- ==== Sys2Proof/Certificates/Slice0/Obligations.lean ====
section
/-! DEFINITION. The statements for the provers. -/

open Sys2Proof Sys2Proof.Machine

/-- The commands that move the alarm state of a device whose Crater runs (drawn from R42, R43, R45–R49, R58, R65, R66). Each
clause: exec answers a next state with the effect given, for every state and operands that meet its hypotheses. Readings of the
model behind the clauses: log entries 3, 20, 55. -/
def Obligations.AlarmStateCommandsComplete : Prop :=
  ∀ s : State, s.tablesWf = true →
  (∀ p, p ≠ .crater → alarmRuns s = true → s.alp.state = .normal → completes (.drillCtlStart p) s fun t =>
    t.alp.state = .drill ∧ t.alp.entryDone = false ∧ t.alp.entryOwed = true
      ∧ t.alp.drillEnd = some (s.now + 1000000000 * regFld s rALP_DRILL_CTL 16 12) ∧ t.cas.drillGen = (s.cas.drillGen + 1) % 256) ∧
  (∀ p, p ≠ .crater → alarmRuns s = true → s.alp.state = .drill → completes (.drillCtlStop p) s fun t =>
    t.alp.state = .normal ∧ t.alp.entryDone = false ∧ t.alp.drillEnd = none ∧ t.cas.stopGen = (s.cas.stopGen + 1) % 256) ∧
  (∀ d, alarmRuns s = true → s.alp.state = .drill → s.alp.drillEnd = some d → completes .drillTimeout s fun t =>
    t.alp.state = .normal ∧ t.alp.drillEnd = none ∧ t.now = s.at_ d) ∧
  (∀ d, alarmRuns s = true → s.alp.state = .holdover → s.alp.holdEnd = some d → completes .holdoverExpiry s fun t =>
    t.alp.state = .normal ∧ t.alp.entryDone = false ∧ t.alp.holdEnd = none ∧ t.crt.ret.holdover = false ∧ t.now = s.at_ d) ∧
  (∀ since, s.pcr.vaux33 = true → ¬ (s.alp.inA = true ∧ s.alp.inB = false) → alarmRuns s = true →
    completes (.inputCombinationAccept true false since) s fun t =>
      t.alp.inA = true ∧ t.alp.inB = false ∧ t.alp.inFault = false ∧ t.alp.srcInput = true ∧ t.alp.srcFault = false
        ∧ t.alp.state = .emergency ∧ t.now = s.at_ (since + 50000)) ∧
  (∀ since, s.pcr.vaux33 = true → ¬ (s.alp.inA = false ∧ s.alp.inB = true) →
    completes (.inputCombinationAccept false true since) s fun t =>
      t.alp.inA = false ∧ t.alp.inB = true ∧ t.alp.inFault = false ∧ t.alp.srcInput = false ∧ t.alp.srcFault = false
        ∧ t.now = s.at_ (since + 50000)) ∧
  (∀ b since, s.pcr.vaux33 = true → ¬ (s.alp.inA = b ∧ s.alp.inB = b) →
    completes (.inputCombinationAccept b b since) s fun t =>
      t.alp.inA = b ∧ t.alp.inB = b ∧ t.alp.inFault = true ∧ t.alp.srcInput = s.alp.srcInput
        ∧ t.alp.srcFault = (s.alp.srcFault || s.alp.faultDeclares) ∧ t.now = s.at_ (since + 50000)) ∧
  (s.alp.entryOwed = true → s.alp.state ≠ .normal → s.crt.restarting = false → (∀ b, levelAt s b = s.alp.state) → completes .entryDone s fun t =>
    t.alp.entryDone = true ∧ t.alp.entryOwed = false ∧ t.alp.state = s.alp.state ∧ t.now = s.now) ∧
  (∀ b, levelAt s b ≠ s.alp.state → s.crt.restarting = false → completes (.precedenceLevelArrive b) s fun t =>
    levelAt t b = s.alp.state ∧ t.alp.state = s.alp.state ∧ ∀ c, c ≠ b → levelAt t c = levelAt s c)

/-- What an Ethernet port does with PFC frames, holds and redirections (drawn from R304–R318). Each clause: exec answers a next
state with the effect given, for every state and operands that meet its hypotheses. Readings of the model behind the clauses: log
entries 3, 40. -/
def Obligations.EthernetPortCommandsComplete : Prop :=
  ∀ s : State, s.tablesWf = true →
  (∀ port enables times, port < 16 → (getPort s port).inUse = true → (getPort s port).powered = true →
    (getPort s port).link = true → pfcEn s port = true → enables.getLsbD (pfcPrio s port) = true →
    0 < times.getD (pfcPrio s port) 0 → completes (.pfcFrameRx port enables times) s fun t =>
      (getPort t port).pausedUntil = some (s.now + ceilDiv (512 * times.getD (pfcPrio s port) 0) (portRate s port))
        ∧ getCtr t (cETH_PFC_RX port) = getCtr s (cETH_PFC_RX port) + 1 ∧ t.now = s.now) ∧
  (∀ port d, (getPort s port).pausedUntil = some d → completes (.pfcPauseExpiry port) s fun t =>
    (getPort t port).pausedUntil = none ∧ t.now = s.at_ d) ∧
  (∀ port, (getPort s port).xoff = true → pfcEn s port = true → completes (.pfcXoffRepeat port) s fun t =>
    (getPort t port).xoffNext = (getPort s port).xoffNext + 100000 ∧ t.now = s.at_ (getPort s port).xoffNext) ∧
  (∀ port h, port < 16 → (getPort s port).holdFrom = some h → (getPort s port).overLimit = false →
    completes (.txholdLimit port) s fun t =>
      (getPort t port).overLimit = true ∧ t.now = s.at_ (h + 1000 * regFld s (rETH_TXHOLD_LIMIT port) 0 17)) ∧
  (∀ port up, port < 16 → (getPort s port).inUse = true → (getPort s port).powered = true → (getPort s port).link ≠ up →
    completes (.ethLinkChange port up) s fun t => (getPort t port).link = up ∧ t.now = s.now) ∧
  (∀ port f, port < 16 → (getPort s port).inUse = true → (getPort s port).powered = true → (getPort s port).link = true →
    f.fecUncorr = true → completes (.ethFrameReceive port f) s fun t =>
      t.flp = s.flp ∧ t.now = s.now ∧ getCtr t (cETH_FEC_UNCORR port) = getCtr s (cETH_FEC_UNCORR port) + 1) ∧
  (∀ port f, port < 16 → (getPort s port).inUse = true → (getPort s port).powered = true → (getPort s port).link = true →
    f.fecUncorr = false → f.fcsGood = true → 60 ≤ f.bytes.length → overMtu s port f.bytes.length (hasVlan f.bytes) = false →
    s.pcr.refuge = false → etherType f.bytes ≠ 0x8808 → stationHit s port (beAt f.bytes 0 6) = false →
    completes (.ethFrameReceive port f) s fun t =>
      ∃ u, t = toIngress (ingressPipe port) { newFrame f.bytes port 0 false f.at_ with stamp := rxStamp port f u } u ∧ u.flp = s.flp) ∧
  (∀ p hi, (isCrater p = true ∨ 4 ≤ (stationSel s p).2) → completes (.stationEntryWrite p hi) s fun t =>
    (getPort t (stationSel s p).1).stations = mset (fun _ => Station.empty) (getPort s (stationSel s p).1).stations (stationSel s p).2
        { mac := BitVec.ofNat 48 (fld hi 0 16 * 2 ^ 32 + (getView s p rETH_STN_LO).toNat), valid := bit hi 16 }
      ∧ t.now = s.now) ∧
  (∀ p, completes (.stnLoRead p) s fun t =>
    t.out = s.out ++ [.readValue p rETH_STN_LO
      (BitVec.ofNat 32 (mget (fun _ => Station.empty) (getPort s (stationSel s p).1).stations (stationSel s p).2).mac.toNat)]) ∧
  (∀ p port c rest, (getPort s port).captures = c :: rest → completes (.tsInfoPop p port) s fun t =>
    (getPort t port).captures = rest ∧ mget (fun _ => 0) t.latch (viewKey p (rETH_TS_NS port)) = c.ns
      ∧ t.out = s.out ++ [.readValue p (rETH_TS_INFO port)
        (putFld 0 16 c.seqId.toNat ||| putFld 16 4 c.msgType.toNat ||| putFld 20 8 c.domain.toNat ||| putBit 31 true)])

/-- Calibration and lock of the lane groups (drawn from R302, R303, R319–R323). Each clause: exec answers a next state with the
effect given, for every state and operands that meet its hypotheses. Readings of the model behind the clauses: log entries 3, 40.
-/
def Obligations.LaneGroupCommandsComplete : Prop :=
  ∀ s : State, s.tablesWf = true →
  (∀ g, g < 4 → (laneGroup s g).mode ≠ .down → (laneGroup s g).synth = .notReady → completes (.synthLock g) s fun t =>
    (laneGroup t g).synth = .ready ∧ (laneGroup t g).dueFrom = none ∧ t.now = s.at_ ((laneGroup s g).since + 1000000)) ∧
  (∀ g, g < 4 → (laneGroup s g).mode ≠ .down → (laneGroup s g).synth = .notReady → completes (.synthLockTimeout g) s fun t =>
    (laneGroup t g).synth = .fault ∧ t.now = s.at_ ((laneGroup s g).since + 20000000)) ∧
  (∀ g, (laneGroup s g).mode ≠ .down → (laneGroup s g).synth = .fault → completes (.synthRelockAttempt g) s fun t =>
    (laneGroup t g).synth = .notReady ∧ t.now = s.at_ ((laneGroup s g).since + 1000000000)) ∧
  (∀ g, (laneGroup s g).mode ≠ .down → (laneGroup s g).synth = .ready → (laneGroup s g).dueFrom = none →
    completes (.recalDue g) s fun t =>
      (laneGroup t g).dueFrom = some t.now ∧ t.now = s.at_ ((laneGroup s g).calAt + 600000000000)) ∧
  (∀ g d, (laneGroup s g).dueFrom = some d → (laneGroup s g).synth = .ready → (levelAt s .eth).emergent = false →
    completes (.recalStart g) s fun t => (laneGroup t g).synth = .calibrating ∧ (laneGroup t g).dueFrom = none
      ∧ t.now = (if lsEmpty s g then s.now else s.at_ ((laneGroup s g).startFrom + 10000000))) ∧
  (∀ g, (laneGroup s g).synth = .calibrating → completes (.recalVerified g) s fun t =>
    (laneGroup t g).synth = .ready ∧ t.now = s.at_ ((laneGroup s g).since + 10000)) ∧
  (∀ g, (laneGroup s g).synth = .calibrating → completes (.recalTimeout g) s fun t =>
    (laneGroup t g).synth = .notReady ∧ t.now = s.at_ ((laneGroup s g).since + 40000)) ∧
  (∀ g d, (laneGroup s g).dueFrom = some d → (laneGroup s g).synth = .ready → (levelAt s .eth).emergent = true →
    completes (.recalDeferExpiry g) s fun t =>
      (laneGroup t g).synth = .calibrating ∧ t.now = s.at_ (d + 60000000000))

/-- Frames that go through a flow pipeline (drawn from R97, R108, R119). Each clause: exec answers a next state with the effect
given, for every state and operands that meet its hypotheses. Readings of the model behind the clauses: log entries 27, 28, 29. -/
def Obligations.PipelinePassesComplete : Prop :=
  ∀ s : State, s.tablesWf = true →
  (∀ fp f rest ecc g u, mget (fun _ => []) s.flp.ingress fp = f :: rest → (waitingAt s fp).length < 2048 →
    lookupFrame fp f.host f ecc { s with flp := { s.flp with ingress := mset (fun _ => []) s.flp.ingress fp rest } } = .goesOn g u →
    completes (.ingressLookup fp ecc) s fun t => t = afterLookup fp g u ∧ t.now = s.now) ∧
  (∀ fp f rest ecc u, mget (fun _ => []) s.flp.ingress fp = f :: rest → (waitingAt s fp).length < 2048 →
    lookupFrame fp f.host f ecc { s with flp := { s.flp with ingress := mset (fun _ => []) s.flp.ingress fp rest } } = .waits u →
    completes (.ingressLookup fp ecc) s fun t =>
      mget (fun _ => []) t.flp.ingress fp = rest ∧ (waitingAt t fp).length = (waitingAt s fp).length + 1) ∧
  (∀ fp n ecc w rest g u, takeWaiting (waitingAt s fp) n = some (w, rest) →
    finishLookup fp w.frame w.profile w.ternKey (lookupExact s w.key) ecc (setWaiting fp rest s) = (some g, u) →
    completes (.cacheMissReturn fp n ecc) s fun t => t = afterLookup fp g u ∧ t.now = s.now) ∧
  (∀ o f rest ecc, mget (fun _ => []) s.swc.egressIn o = f :: rest → handoverRoom s (egressPipe o) f.bytes.length = true →
    (waitingAt s (egressPipe o)).length < 2048 → completes (.egressPass (.output o) ecc) s fun t =>
      t = settlePfc (egressFrame (egressPipe o) o f (moveEgressCells o f.cls 0 (cellsOf f)
        { s with swc := { s.swc with egressIn := mset (fun _ => []) s.swc.egressIn o rest } }))) ∧
  (∀ o f rest ecc, mget (fun _ => []) s.swc.lsIn o = f :: rest → (waitingAt s (egressPipe o)).length < 2048 → completes (.egressPass (.outputLs o) ecc) s fun t =>
      t = egressFrame (egressPipe o) o f (moveLsCells o 0 (cellsOf f)
        { s with swc := { s.swc with lsIn := mset (fun _ => []) s.swc.lsIn o rest } })) ∧
  (∀ h f rest ecc g u, mget (fun _ => []) s.flp.hostTx h = f :: rest → handoverRoom s (2 + h) f.bytes.length = true →
    (waitingAt s (2 + h)).length < 2048 →
    lookupFrame (2 + h) true f ecc { s with flp := { s.flp with hostTx := mset (fun _ => []) s.flp.hostTx h rest } } = .goesOn g u →
    completes (.egressPass (.host h) ecc) s fun t => t = afterLookup (2 + h) g u ∧ t.now = s.now)

/-- The flow tables, the key profiles and the aging scan (drawn from R121–R126). Each clause: exec answers a next state with the
effect given, for every state and operands that meet its hypotheses. Readings of the model behind the clauses: log entries 29. -/
def Obligations.FlowTableCommandsComplete : Prop :=
  ∀ s : State, s.tablesWf = true →
  (∀ p n, flpTableSize (fld (getView s p rFLP_IND_ADDR) 24 4) = some n → fld (getView s p rFLP_IND_ADDR) 0 24 < n →
    completes (.flpIndRead p) s fun t =>
      viewBytes t p (rFLP_IND_DATA 0) 48
          = slice (flpRead s (fld (getView s p rFLP_IND_ADDR) 24 4) (fld (getView s p rFLP_IND_ADDR) 0 24)) 0 192
        ∧ getView t p rFLP_IND_CTL = 0 ∧ t.flp = s.flp) ∧
  (∀ p, fld (getView s p rFLP_IND_ADDR) 24 4 = 7 → fld (getView s p rFLP_IND_ADDR) 0 24 < 65536 →
    restZero (viewBytes s p (rFLP_IND_DATA 0) 64) 12 = true → completes (.flpIndWrite p) s fun t =>
      flpRead t 7 (fld (getView s p rFLP_IND_ADDR) 0 24) = slice (viewBytes s p (rFLP_IND_DATA 0) 64) 0 12
        ∧ getView t p rFLP_IND_CTL = 0 ∧ t.flp.exact = s.flp.exact ∧ t.flp.tunnels = s.flp.tunnels) ∧
  (∀ p i, fld (getView s p rFLP_IND_ADDR) 24 4 = 0 →
    lookupExact s (slice (viewBytes s p (rFLP_IND_DATA 0) 64) 0 32) = some i →
    exactProtected s (isCrater p) none (slice (viewBytes s p (rFLP_IND_DATA 0) 64) 0 32
      ++ setLastHit (slice (viewBytes s p (rFLP_IND_DATA 0) 64) 32 32) (tickNow s)) = false →
    exactLegal (viewBytes s p (rFLP_IND_DATA 0) 64) = true →
    lsFull s i (slice (viewBytes s p (rFLP_IND_DATA 0) 64) 0 32
      ++ setLastHit (slice (viewBytes s p (rFLP_IND_DATA 0) 64) 32 32) (tickNow s)) = false → completes (.flpInsert p) s fun t =>
      flpRead t 0 i = slice (viewBytes s p (rFLP_IND_DATA 0) 64) 0 32
          ++ setLastHit (slice (viewBytes s p (rFLP_IND_DATA 0) 64) 32 32) (tickNow s)
        ∧ getView t p rFLP_IND_RESULT = BitVec.ofNat 32 i) ∧
  (∀ p i, fld (getView s p rFLP_IND_ADDR) 24 4 = 0 →
    lookupExact s (slice (viewBytes s p (rFLP_IND_DATA 0) 64) 0 32) = some i → (isLsEntry s i = false ∨ isCrater p = true) →
    completes (.flpDelete p) s fun t => t.flp.exact = merase s.flp.exact i ∧ getView t p rFLP_IND_CTL = 0) ∧
  (usesReplaced s = false → completes .memberBlocksReturn s fun t =>
    t.flp.blocksFree = s.flp.blocksFree + s.flp.blocksRetired ∧ t.flp.blocksRetired = 0 ∧ t.flp.groups = s.flp.groups) ∧
  (∀ p n, n < 64 → profState s n = .run → (profileProtected s n = false ∨ isCrater p = true) →
    completes (.profileQuiesce p n) s fun t => profState t n = .quiesce ∧ ∀ m, m ≠ n → profState t m = profState s m) ∧
  (∀ n, profState s n = .quiesce → s.flp.waiting.any (fun e => e.2.any (fun w => w.profile = n)) = false →
    completes (.profileStopped n) s fun t => profState t n = .stopped ∧ ∀ m, m ≠ n → profState t m = profState s m) ∧
  (∀ p n, n < 64 → (profState s n = .stopped ∨ (profState s n = .error ∧ isCrater p = true)) →
    completes (.profileRun p n) s fun t => profState t n = .run ∧ ∀ m, m ≠ n → profState t m = profState s m) ∧
  ((levelAt s .flp).emergent = false → s.flp.ageNext + 1 < 2097152 → completes .agingScanBucket s fun t =>
    t.flp.ageNext = s.flp.ageNext + 1 ∧ t.flp.ageScanning = true ∧ t.now = s.now) ∧
  (∀ p, completes (.ageFifoPop p) s fun t => t.flp.ageFifo = s.flp.ageFifo.drop 1
    ∧ t.out = s.out ++ [.readValue p rFLP_AGE_FIFO_HI (mget (fun _ => 0) s.latch (viewKey p rFLP_AGE_FIFO_HI))])

/-- What the switch core does in a cell time, and its spill, staging, Tephra ring and tables (drawn from R75–R93). Each clause:
exec answers a next state with the effect given, for every state and operands that meet its hypotheses. Readings of the model
behind the clauses: log entries 30. -/
def Obligations.SwitchCoreCommandsComplete : Prop :=
  ∀ s : State, s.tablesWf = true →
  (∀ i f rest o g, i < 26 → mget (fun _ => []) s.swc.arrivals i = f :: rest → frameOutputs s (if f.mirror = 2 && !f.host then f else { f with admitAt := s.now }) = .one o g →
    outputUsed s o = true → g.cls = 7 → stagedCells s i + cellsOf g ≤ 256 → completes (.switchAdmit [i]) s fun t =>
      mget (fun _ => []) t.swc.arrivals i = rest
        ∧ mget (fun _ => []) t.swc.staging i = mget (fun _ => []) s.swc.staging i ++ [{ frame := g, cells := cellsOf g, outs := 2 ^ o }]) ∧
  (∀ i o c k, firstIn .hbm (getVoq s i o c).frames = some k →
    ingCount s o c + regFld s rSWC_SPILL_CFG 16 16 < regFld s (rSWC_ING_LIMIT c) 0 19 → completes (.spillReadbackSelect i o c) s fun t =>
      (getVoq t i o c).frames = (getVoq s i o c).frames.modify k (fun f => { f with place := .reading, since := s.now })) ∧
  (∀ i o c k f, firstIn .reading (getVoq s i o c).frames = some k → (getVoq s i o c).frames[k]? = some f →
    completes (.spillReadReturn i o c .clean) s fun t =>
      getVoq t i o c = settleVoq { getVoq s i o c with frames := (getVoq s i o c).frames.modify k (fun f => { f with place := .die, spilled := true }) }
        ∧ t.now = s.at_ (f.since + 400) ∧ t.swc.spillUsed = s.swc.spillUsed - f.cells ∧ t.swc.ingressCells = s.swc.ingressCells + f.cells) ∧
  (∀ i o c k f, firstIn .reading (getVoq s i o c).frames = some k → (getVoq s i o c).frames[k]? = some f →
    completes (.spillReadReturn i o c .uncorrectable) s fun t =>
      getVoq t i o c = settleVoq { getVoq s i o c with frames := (getVoq s i o c).frames.eraseIdx k }
        ∧ t.now = s.at_ (f.since + 400) ∧ t.swc.spillUsed = s.swc.spillUsed - f.cells) ∧
  (∀ tags, completes (.slalomCellTime tags) s fun t =>
    t.swc.admitPtr = (s.swc.admitPtr + 1) % 26 ∧ t.swc.writeQueue = s.swc.writeQueue - spillDrain s ∧ t.now = s.now) ∧
  (∀ o tags i k f, firstFrom (mget (fun _ => 0) s.swc.lsPtr o)
      ((List.range 26).filter (fun i => (mget (fun _ => []) s.swc.staging i).any (fun f => nbit f.outs o))) = some i →
    (mget (fun _ => []) s.swc.staging i).findIdx? (fun f => nbit f.outs o) = some k →
    (mget (fun _ => []) s.swc.staging i)[k]? = some f → f.frame.bytes.length ≤ meterCredit s o →
    mget (fun _ => 0) s.swc.lsCells o + f.cells ≤ 8192 → completes (.lsStagingHead o tags) s fun t =>
      mget (fun _ => 0) t.swc.lsPtr o = (i + 1) % 26
        ∧ mget (fun _ => []) t.swc.staging i = unstage (mget (fun _ => []) s.swc.staging i) k o
        ∧ mget (fun _ => Meter.full) t.swc.meters o = { credit := meterCredit s o - f.frame.bytes.length, at_ := s.now }) ∧
  (∀ f rest, s.swc.tephra = f :: rest → (getFn s pf).mayIssue = true → (getFn s pf).flrFrom = none →
    bit (getReg s rSWC_TEPHRA_CFG) 0 = true → tephraFull s = false → completes .tephraEntryWrite s fun t =>
      t.swc.tephra = rest ∧ t.swc.tephraSeq = s.swc.tephraSeq + 1
        ∧ getReg t rSWC_TEPHRA_PROD = getReg s rSWC_TEPHRA_PROD + 1) ∧
  (∀ p v, bit v 0 = true → bit (getReg s rSWC_TEPHRA_CFG) 0 = false → completes (.tephraCfgWrite p v) s fun t =>
    bit (getReg t rSWC_TEPHRA_CFG) 0 = true ∧ bit (getReg t rSWC_TEPHRA_CFG) 1 = bit v 1 ∧ getReg t rSWC_TEPHRA_PROD = 0
      ∧ t.swc.tephraSeq = 0) ∧
  (∀ p, fld (getView s p rSWC_IND_ADDR) 16 4 = 0 → fld (getView s p rSWC_IND_ADDR) 0 16 < 65536 →
    completes (.swcIndRead p) s fun t =>
      getView t p rSWC_IND_DATA_LO = BitVec.ofNat 32 (mget (fun _ => 0) s.swc.portSets (fld (getView s p rSWC_IND_ADDR) 0 16))
        ∧ getView t p rSWC_IND_CTL = 0 ∧ t.swc = s.swc) ∧
  (∀ p, fld (getView s p rSWC_IND_ADDR) 16 4 = 0 → (1024 ≤ fld (getView s p rSWC_IND_ADDR) 0 16 ∨ isCrater p = true) →
    (getView s p rSWC_IND_DATA_LO).toNat < 2 ^ 26 → getView s p rSWC_IND_DATA_HI = 0 → completes (.swcIndWrite p) s fun t =>
      mget (fun _ => 0) t.swc.portSets (fld (getView s p rSWC_IND_ADDR) 0 16) = (getView s p rSWC_IND_DATA_LO).toNat
        ∧ getView t p rSWC_IND_CTL = 0)

/-- Shaper and policer entries, and the choice of a frame at an output (drawn from R135, R138, R541). Each clause: exec answers a
next state with the effect given, for every state and operands that meet its hypotheses. Readings of the model behind the clauses:
log entries 29, 30. -/
def Obligations.TrafficManagerCommandsComplete : Prop :=
  ∀ s : State, s.tablesWf = true →
  (∀ p, fld (getView s p rTMG_IND_ADDR) 18 2 = 0 → completes (.tmgIndRead p) s fun t =>
    viewBytes t p (rTMG_IND_DATA 0) 4 = slice (bucketBytes (settledShaper s (fld (getView s p rTMG_IND_ADDR) 0 18))) 0 16
      ∧ getView t p rTMG_IND_CTL = 0 ∧ t.tmg = s.tmg) ∧
  (∀ p, fld (getView s p rTMG_IND_ADDR) 18 2 = 0 → (1024 ≤ fld (getView s p rTMG_IND_ADDR) 0 18 ∨ isCrater p = true) →
    bucketLegal 16384 (viewBytes s p (rTMG_IND_DATA 0) 8) = true → completes (.tmgIndWrite p) s fun t =>
      getShaper t (fld (getView s p rTMG_IND_ADDR) 0 18)
          = rewriteBucket (settledShaper s (fld (getView s p rTMG_IND_ADDR) 0 18)) (viewBytes s p (rTMG_IND_DATA 0) 8)
        ∧ getView t p rTMG_IND_CTL = 0)

/-- Passes of the cipher engines, their dispatch, resumption, completion and release (drawn from R147–R158, R163–R169). Each
clause: exec answers a next state with the effect given, for every state and operands that meet its hypotheses. Readings of the
model behind the clauses: log entries 28, 31. -/
def Obligations.CipherPassCommandsComplete : Prop :=
  ∀ s : State, s.tablesWf = true →
  (∀ e w rest t0, s.cph.decryptLs = w :: rest →
    dispatchWork w true e { s with cph := { s.cph with decryptLs := rest } } = .took t0 →
    completes (.cipherDispatch (.decrypt e)) s fun t => t = t0 ∧ t.now = s.now) ∧
  (∀ e w rest t0, s.cph.decryptLs = [] → s.cph.decryptIn = w :: rest →
    dispatchWork w false e { s with cph := { s.cph with decryptIn := rest } } = .took t0 →
    completes (.cipherDispatch (.decrypt e)) s fun t => t = t0 ∧ t.now = s.now) ∧
  (∀ fp e w rest t0, mget (fun _ => []) s.cph.handover fp = w :: rest →
    dispatchWork w false e { s with cph := { s.cph with handover := mset (fun _ => []) s.cph.handover fp rest } } = .took t0 →
    completes (.cipherDispatch (.handover fp e)) s fun t => t = t0 ∧ t.now = s.now) ∧
  (∀ n p e, mfind s.cph.passes n = some p → p.state = .parked → p.bound = true → (p.ls && lsEnginesFenced s) = false →
    s.cph.passes.any (fun q => decide (q.1 < n) && q.2.slot = p.slot && q.2.state = .parked) = false →
    (if p.ls then lsEngine s p.frame.bytes.length else bestEngine s p.frame.bytes.length) = some e →
    completes (.cipherDispatch (.parked n)) s fun t => t = placePass n e s) ∧
  (∀ w rest t0, s.cph.lsDispatch = w :: rest →
    dispatchWork w true .clean { s with cph := { s.cph with lsDispatch := rest } } = .took t0 →
    completes .lsPassDispatch s fun t => t = t0 ∧ t.now = s.now) ∧
  (∀ e n p, s.cph.passes.find? (fun p => p.2.state = .suspended e) = some (n, p) → engineRuns s e = false →
    s.cph.lsDispatch = [] → completes (.passResume e) s fun t =>
      mfind t.cph.passes n = some { p with state := .running e } ∧ ∀ m, m ≠ n → mfind t.cph.passes m = mfind s.cph.passes m) ∧
  (∀ e n p bs, s.cph.passes.find? (fun p => p.2.state = .running e) = some (n, p) → computePass p = some bs → isOldest s n p.slot = true →
    (∀ q ∈ s.cph.passes, q.2.state ≠ .queued e) → completes (.cipherPassComplete e) s fun t =>
      mfind t.cph.passes n = some { p with frame := { p.frame with bytes := bs }, state := .held e }
        ∧ t.now = s.at_ (p.started + passNs p)) ∧
  (∀ e n p, s.cph.passes.find? (fun p => p.2.state = .running e) = some (n, p) → computePass p = none →
    completes (.cipherPassComplete e) s fun t => getCtr t cCPH_AUTH_FAIL = getCtr s cCPH_AUTH_FAIL + 1
      ∧ t.now = s.at_ (p.started + passNs p)) ∧
  (∀ slot n p e, s.cph.passes.find? (fun p => p.2.slot = slot) = some (n, p) → p.state = .held e → p.enc = true →
    completes (.resultRelease slot) s fun t => t = deliverPass p (settleEngines (endPass n s)) ∧ t.now = s.now) ∧
  (∀ e n p d, e < 16 → s.cph.entryAt = some d → lsEnginesOnly s = true →
    s.cph.passes.find? (fun p => !p.2.ls && (p.2.state = .suspended e || (p.2.state = .running e && decide (0 < p.2.suspensions))))
      = some (n, p) → completes (.preemptAbandon e) s fun t =>
      t.cph.passes = merase s.cph.passes n ∧ getCtr t cCPH_PREEMPT_DROP = getCtr s cCPH_PREEMPT_DROP + 1 ∧ t.now = s.at_ (d + 5760)) ∧
  (∀ e, katRuns s e = true → completes (.engineKatDone e true) s fun t =>
    engineUntested t e = false ∧ t.cph.fenced = s.cph.fenced) ∧
  (∀ e, katRuns s e = true → completes (.engineKatDone e false) s fun t =>
    engineUntested t e = false ∧ engineFenced t e = true ∧ engineUp t e = false ∧ t.crt.degCause.getLsbD 0 = true
      ∧ (s.crt.sec = .operational → t.crt.sec = .degraded))

/-- Key slots, their working copies, their checkpoints and the commits of key operations (drawn from R159–R170, R405, R412). Each
clause: exec answers a next state with the effect given, for every state and operands that meet its hypotheses. Readings of the
model behind the clauses: log entries 22, 31. -/
def Obligations.KeySlotCommandsComplete : Prop :=
  ∀ s : State, s.tablesWf = true →
  (∀ slot k, getSlot s slot = some k → s.crt.sec ≠ .zeroised → slotCached s slot k = false →
    (slotWaits s slot || s.cph.jobMisses.contains slot) = true → completes (.keyLoad slot .clean) s fun t =>
      t = enterCache slot s ∧ (k.pinned = false → 0 < cacheRoom s → t.cph.cached.head? = some slot)) ∧
  (∀ slot k, getSlot s slot = some k → s.crt.sec ≠ .zeroised → s.pcr.refuge = false → slotCached s slot k = false →
    (slotWaits s slot || s.cph.jobMisses.contains slot) = true → completes (.keyLoad slot .uncorrectable) s fun t =>
      getSlot t slot = some { k with damaged := true }) ∧
  (∀ slot k, getSlot s slot = some k → k.damaged = true → s.crt.sec ≠ .zeroised → completes (.workingCopyRestore slot) s fun t =>
    getSlot t slot = some { k with damaged := false } ∧ ∀ n, n ≠ slot → getSlot t n = getSlot s n) ∧
  (∀ slot k, getSlot s slot = some k → k.ckpt = true → s.crt.restarting = false → s.crt.keyJobs = [] →
    completes (.ckptCommit slot) s fun t =>
      getSlot t slot = some { k with high := k.high + 16777216, ckpt := false }
        ∧ getCtr t cCRT_CKPT_COMMITS = getCtr s cCRT_CKPT_COMMITS + 1) ∧
  (∀ j rest, s.crt.keyJobs = j :: rest → j.taken = true → s.crt.restarting = false → completes .keyCommitDone s fun t =>
    t = commitKeyJob j s ∧ getCtr t cCRT_KEY_COMMITS = getCtr s cCRT_KEY_COMMITS + 1 ∧ t.now = s.now) ∧
  (∀ p k, fld (getView s p rCPH_IND_ADDR) 16 4 = 0 → getSlot s (fld (getView s p rCPH_IND_ADDR) 0 16) = some k →
    completes (.cphIndRead p) s fun t =>
      viewBytes t p (rCPH_IND_DATA 0) 8 = slice (slotBytes k) 0 32 ∧ getView t p rCPH_IND_CTL = 0 ∧ t.cph = s.cph) ∧
  (∀ p e rest, s.cph.nearFifo = e :: rest → completes (.nearFifoPop p) s fun t =>
    t.cph.nearFifo = rest
      ∧ t.out = s.out ++ [.readValue p rCPH_NEAR_FIFO (putFld 0 16 e.slot ||| putBit 16 e.limit ||| putBit 31 true)]) ∧
  (∀ p, s.cph.nearFifo = [] → completes (.nearFifoPop p) s fun t => t.out = s.out ++ [.readValue p rCPH_NEAR_FIFO 0])

/-- Frame boundaries at an output, the wait of a shaped head, and the sweep of the parameters (drawn from R131, R138–R140, R61,
R238). Each clause: exec answers a next state with the effect given, for every state and operands that meet its hypotheses.
Readings of the model behind the clauses: log entries 27, 30, 58. -/
def Obligations.OutputServiceCommandsComplete : Prop :=
  ∀ s : State, s.tablesWf = true →
  (∀ o f rest, 20 ≤ o → o < 26 → isRunning s = true → (∀ n, n < 16 → (getPort s n).redirecting = false) →
    mget (fun _ => []) s.swc.lsQueue o = f :: rest → lsMayLeave s o f = true → completes (.outputFrameBoundary o []) s fun t =>
      t = settlePfc (settleRedirects (sendLs o f rest s)) ∧ t.now = s.now) ∧
  (∀ o, 20 ≤ o → o < 26 → isRunning s = true → (∀ n, n < 16 → (getPort s n).redirecting = false) →
    mget (fun _ => []) s.swc.lsQueue o = [] → completes (.outputFrameBoundary o []) s fun t =>
      t = settlePfc (settleRedirects
        (serveClasses (fun _ => true) o (fun f s => leaveOutput o f (countSent o f s)) s)) ∧ t.now = s.now) ∧
  (∀ o f rest, 16 ≤ o → o < 20 → isRunning s = true → (∀ n, n < 16 → (getPort s n).redirecting = false) →
    mget (fun _ => []) s.swc.lsQueue o = f :: rest → lsMayLeave s o f = true → completes (.outputFrameBoundary o []) s fun t =>
      t = settlePfc (settleRedirects (withMarkers (sendLs o f rest) s)) ∧ t.now = s.now) ∧
  (∀ o f rest, o < 16 → isRunning s = true → (∀ n, n < 16 → (getPort s n).redirecting = false) → (getPort s o).inUse = true →
    mustHold s o = false → mget (fun _ => []) s.swc.lsQueue o = f :: rest → lsMayLeave s o f = true →
    completes (.outputFrameBoundary o []) s fun t =>
      t = settlePfc (settleRedirects (sendLs o f rest s)) ∧ t.now = s.now) ∧
  (∀ o cls inst f w, o < 26 → cls < 7 → outputHead s o cls inst = some f → frameWait s f = some w →
    completes (.shaperConform o cls inst []) s fun t => t.now = s.now + w ∧ t.swc = s.swc ∧ t.tmg = s.tmg) ∧
  (∀ o inst f w, o < 26 → outputHead s o 7 inst = some f → lsWait s f = some w →
    completes (.shaperConform o 7 inst []) s fun t => t.now = s.now + w ∧ t.swc = s.swc ∧ t.tmg = s.tmg) ∧
  (isRunning s = true → completes (.parameterSweep []) s fun t => t.vfm.inForce = s.vfm.records ∧ t.now = s.now) ∧
  (∀ n, isRunning s = true → n ≤ pf → completes (.parameterSweep [n]) s fun t =>
    (getFnS t n).state = .error ∧ getRecord t n = defaultRecord s n ∧ bit (getReg t rVFM_EVENT) 2 = true)

/-- The recorder: a record is formed, the log is flushed, a write of it is done, the anchor is committed (drawn from R187–R195).
Each clause: exec answers a next state with the effect given, for every state and operands that meet its hypotheses. Readings of
the model behind the clauses: log entries 50. -/
def Obligations.RecorderCommandsComplete : Prop :=
  ∀ s : State, s.tablesWf = true →
  (∀ stream u f rest, formDue s = u → stream < 8192 → nbit (byteAt (streamEntry u stream) 0) 0 = true →
    byteAt (streamEntry u stream) 1 = 0 → u.str.rec_.on = true → recordsWait u = false → streamActive u (streamEntry u stream) = true →
    takeRecorded stream (mget (fun _ => []) u.sinks 23) = some (f, rest) → completes (.journalRecordForm stream) s fun t =>
      t = formRecord (dataRecord { u with sinks := mset (fun _ => []) u.sinks 23 rest } stream (streamEntry u stream)
        (decide (9216 < f.bytes.length)) f.bytes.length 0 (f.bytes.take 9216)) { u with sinks := mset (fun _ => []) u.sinks 23 rest }
        ∧ mget (fun _ => []) t.sinks 23 = rest ∧ t.now = s.now) ∧
  (s.str.rec_.on = true → completes .journalFlush s fun t => t.now = s.at_ s.str.rec_.flushAt
    ∧ t.str.rec_.flushAt = t.now + 1000000 * regFld s rSTR_JNL_CFG 8 8) ∧
  (∀ d, s.str.rec_.on = true → s.str.rec_.doneTo = some d → s.str.rec_.written < journalBound s d → completes .journalWriteDone s fun t =>
    t.str.rec_.written = journalBound s d ∧ (∀ m ∈ t.str.rec_.marks, journalBound s d < m.stop)
      ∧ (∀ m ∈ s.str.rec_.marks, journalBound s d < m.stop → m ∈ t.str.rec_.marks)) ∧
  (∀ m, s.str.rec_.on = true → s.crt.restarting = false → s.str.rec_.lastDurable = some m →
    s.str.rec_.anchor.map Anchor.seq ≠ some m.seq → completes .anchorCommit s fun t =>
      (t.str.rec_.anchor.map Anchor.seq = some m.seq) ∧ t.str.rec_.anchorAt = some t.now
        ∧ (∀ q ∈ t.str.rec_.owed, m.seq < q)) ∧
  (s.str.rec_.on = true → s.crt.restarting = false → s.str.rec_.lastDurable = none → s.str.rec_.high ≤ s.str.rec_.nextSeq →
    completes .anchorCommit s fun t => t.str.rec_.high = s.str.rec_.high + 16777216 ∧ t.str.rec_.anchor = s.str.rec_.anchor)

/-- The player's channels (drawn from R196–R199, R201). Each clause: exec answers a next state with the effect given, for every
state and operands that meet its hypotheses. Readings of the model behind the clauses: log entries 49. -/
def Obligations.PlayerCommandsComplete : Prop :=
  ∀ s : State, s.tablesWf = true →
  (∀ pc m d, (getPc s pc).autoDue = some m → (getPc s pc).autoAt = some d → completes (.autoPlayStart pc) s fun t =>
    (getPc t pc).next = some m ∧ (getPc t pc).autoDue = none ∧ (getPc t pc).autoAt = none ∧ t.now = s.at_ d) ∧
  (∀ pc, s.str.ready = true → (getPc s pc).next = none → (getPc s pc).cut = false → (getPc s pc).state = .playing →
    (getPc s pc).gapLeft = 0 → completes (.playBlockOutput pc) s fun t => t = outputBlock pc s ∧ t.now = s.now) ∧
  (∀ pc m, s.str.ready = true → (getPc s pc).next = some m →
    ((getPc s pc).state = .idle ∨ ((getPc s pc).phase = 0 ∧ (getPc s pc).cut = false)) → completes (.playBlockOutput pc) s fun t =>
    t = outputBlock pc (beginPlay pc m s) ∧ t.now = s.now) ∧
  (∀ pc, (getPc s pc).state = .playing → msgSamples (dirEntry s (getPc s pc).msg) ≤ (getPc s pc).pos →
    (leAt (dirEntry s (getPc s pc).msg) 12 2 = 0 ∨ (getPc s pc).repeats + 1 < leAt (dirEntry s (getPc s pc).msg) 12 2) →
    completes (.playRepeatEnd pc) s fun t =>
      (getPc t pc).state = .playing ∧ (getPc t pc).repeats = (getPc s pc).repeats + 1 ∧ (getPc t pc).pos = 0
        ∧ (getPc t pc).gapLeft = 48 * leAt (dirEntry s (getPc s pc).msg) 14 2) ∧
  (∀ pc, (getPc s pc).state = .playing → msgSamples (dirEntry s (getPc s pc).msg) ≤ (getPc s pc).pos →
    0 < leAt (dirEntry s (getPc s pc).msg) 12 2 → leAt (dirEntry s (getPc s pc).msg) 12 2 ≤ (getPc s pc).repeats + 1 →
    completes (.playRepeatEnd pc) s fun t =>
      (getPc t pc).state = .idle ∧ (getPc t pc).repeats = (getPc s pc).repeats + 1 ∧ (getPc t pc).packet = []) ∧
  (∀ pc, (getPc s pc).state = .fading → completes (.playFadeEnd pc) s fun t =>
    (getPc t pc).state = .idle ∧ t.now = s.at_ (getPc s pc).fadeEnd)

/-- Storage commands, and the tables of the storage engine (drawn from R172, R176–R186, R541). Each clause: exec answers a next
state with the effect given, for every state and operands that meet its hypotheses. Readings of the model behind the clauses: log
entries 48. -/
def Obligations.StorageCommandsComplete : Prop :=
  ∀ s : State, s.tablesWf = true →
  (∀ qp r u j ns es, retryCmds s = u → nextJob u qp 3 = some j → queueShed u (getQueue u qp) = false → outstandingCmds u < 65536 →
    storDeferred u (getQueue u qp) = false → resolveCmd u (getQueue u qp) j.lastDesc = .ok (ns, es) → cmdKeyRefusal u ns es = none →
    completes (.storCmdExecute qp r .clean) s fun t => t = issueCmd qp (getQueue u qp) j ns es r u) ∧
  (∀ qp r u j, retryCmds s = u → nextJob u qp 3 = some j → queueShed u (getQueue u qp) = true →
    completes (.storCmdExecute qp r .clean) s fun t => t = endStor qp j.lastPos .shed none false u) ∧
  (∀ k c d, getCmd s k = some c → c.startedAt = some d → c.owner = .gone → completes (.storCmdTimeout k) s fun t =>
    getCmd t k = none ∧ getCtr t cSTR_TIMEOUTS = getCtr s cSTR_TIMEOUTS + 1
      ∧ t.now = s.at_ (d + 1000000000 * regFld s rSTR_CMD_CFG 0 8)) ∧
  (∀ k c d upTo, getCmd s k = some c → c.startedAt = some d → c.owner = .journal upTo → completes (.storCmdTimeout k) s fun t =>
    getCmd t k = none ∧ t.str.rec_.flushed = s.str.rec_.written ∧ t.now = s.at_ (d + 1000000000 * regFld s rSTR_CMD_CFG 0 8)) ∧
  (∀ k c d qp pos, getCmd s k = some c → c.startedAt = some d → c.owner = .queue qp pos → completes (.storCmdTimeout k) s fun t =>
    t = reportCmd k qp pos c .timeout none false
      (evStr 2 (incr cSTR_TIMEOUTS (reachTime (d + 1000000000 * regFld s rSTR_CMD_CFG 0 8) s)))) ∧
  (∀ p d, strRead (fld (getView s p rSTR_IND_CTL) 4 4) (fld (getView s p rSTR_IND_ADDR) 0 30) s = (readBack (fld (getView s p rSTR_IND_ADDR) 0 30) d, s) →
    completes (.strIndRead p) s fun t =>
      viewBytes t p (rSTR_IND_DATA 0) 16 = slice d 0 64 ∧ bit (getView t p rSTR_IND_CTL) 30 = false ∧ t.str = s.str) ∧
  (∀ p u, strWrite (isCrater p) (fld (getView s p rSTR_IND_CTL) 4 4) (fld (getView s p rSTR_IND_ADDR) 0 30)
      (viewBytes s p (rSTR_IND_DATA 0) 16) s = (wrote (fld (getView s p rSTR_IND_ADDR) 0 30), u) →
    completes (.strIndWrite p) s fun t => t.str = u.str ∧ bit (getView t p rSTR_IND_CTL) 30 = false)

/-- The TCP connections and the PDUs of NVMe/TCP (drawn from R173–R185). Each clause: exec answers a next state with the effect
given, for every state and operands that meet its hypotheses. Readings of the model behind the clauses: log entries 47. -/
def Obligations.ConnectionCommandsComplete : Prop :=
  ∀ s : State, s.tablesWf = true →
  (∀ f rest, takeSegment (mget (fun _ => []) s.sinks 23) = some (f, rest) → completes .tcpSegmentRx s fun t =>
    t = tcpReceive f.bytes { s with sinks := mset (fun _ => []) s.sinks 23 rest } ∧ t.now = s.now) ∧
  (∀ n d, (getConn s n).tcp.rtoAt = some d → (getConn s n).tcp.established = true →
    (getConn s n).tcp.retries < retryLimit s → (getConn s n).tcp.spent (retryLimit s) = false → completes (.rtoExpiry n) s fun t =>
      mget (fun _ => 0) (getConn t n).tcp.resent (getConn s n).tcp.una = mget (fun _ => 0) (getConn s n).tcp.resent (getConn s n).tcp.una + 1
        ∧ (getConn t n).tcp.rto = min 60000000000 (2 * (getConn s n).tcp.rto)
        ∧ getCtr t cSTR_RETRANS_SEG = getCtr s cSTR_RETRANS_SEG + 1 ∧ t.now = s.at_ d) ∧
  (∀ n d, (getConn s n).tcp.rtoAt = some d → (retryLimit s ≤ (getConn s n).tcp.retries ∨ (getConn s n).tcp.spent (retryLimit s) = true) →
    completes (.rtoExpiry n) s fun t => t = failConn n (reachTime d s)) ∧
  (∀ n d, (getConn s n).tcp.ackAt = some d → completes (.delayedAckExpiry n) s fun t =>
    (getConn t n).tcp.ackAt = none ∧ (getConn t n).tcp.ackSegs = 0 ∧ t.now = s.at_ d) ∧
  (∀ n, (getConn s n).tcp.established = true → (getConn s n).state = .ready → (getConn s n).tcp.probes < 5 →
    completes (.keepaliveProbe n) s fun t => (getConn t n).tcp.probes = (getConn s n).tcp.probes + 1
      ∧ t.now = s.at_ ((getConn s n).tcp.aliveAt + 1000000 * (10000 + 1000 * (getConn s n).tcp.probes))) ∧
  (∀ n p, (getConn s n).state = .opening → (getConn s n).phase = .icReq → headPdu (getConn s n) = some (.ok p) → p.type = 1 →
    leAt p.head 8 2 = 0 → byteAt p.head 11 = (getConn s n).hdgst.toNat + 2 * (getConn s n).ddgst.toNat → 4096 ≤ leAt p.head 12 4 →
    completes (.icrespRx n) s fun t => (getConn t n).phase = .connect ∧ (getConn t n).maxH2c = leAt p.head 12 4) ∧
  (∀ n p u d, (getConn s n).state = .ready → headPdu (getConn s n) = some (.ok p) → p.type = 9 →
    mfind (getConn s n).cids (leAt p.head 8 2) = some u → cidData s (getConn s n) u = some d →
    leAt p.head 12 4 + leAt p.head 16 4 ≤ d.length → 0 < leAt p.head 16 4 → completes (.pduR2tRx n) s fun t =>
      t = pumpTcp n (tcpSend n (h2cData (getConn (takePdu n s) n) (leAt p.head 8 2) (leAt p.head 10 2) (leAt p.head 16 4 + 1)
        (leAt p.head 12 4) (slice d (leAt p.head 12 4) (leAt p.head 16 4))) (takePdu n s))) ∧
  (∀ n p ring addr m, (getConn s n).state = .ready → headPdu (getConn s n) = some (.ok p) → p.type = 7 → p.badData = false →
    mfind (getConn s n).cids (leAt p.head 8 2) = some (.raw ring addr m) → leAt p.head 12 4 + p.data.length ≤ m →
    (nbit p.flags 3 && nbit p.flags 2) = false → completes (.c2hdataRx n) s fun t =>
      (getConn t n).rawData = patch (getConn s n).rawData (leAt p.head 12 4) p.data) ∧
  (∀ n p u, (getConn s n).state = .ready → headPdu (getConn s n) = some (.ok p) → p.type = 5 →
    mfind (getConn s n).cids (leAt p.head 20 2) = some u → completes (.capsuleRespRx n) s fun t =>
      t = pumpTcp n (endCid n (leAt p.head 20 2) (leAt p.head 22 2 / 2) (slice p.head 8 16) (takePdu n s))) ∧
  (∀ n p, (getConn s n).state = .ready → headPdu (getConn s n) = some (.ok p) → p.type = 3 → completes (.c2htermreqRx n) s fun t =>
    t = pumpTcp n (failConn n (takePdu n s))) ∧
  (∀ n, (getConn s n).state = .opening → completes (.connectOpenTimeout n) s fun t =>
    t = failConn n (reachTime ((getConn s n).openedAt + 1000000000 * regFld s rSTR_CMD_CFG 0 8) s)
      ∧ t.now = s.at_ ((getConn s n).openedAt + 1000000000 * regFld s rSTR_CMD_CFG 0 8)) ∧
  (∀ n, (getConn s n).state = .closing → (getConn s n).outstanding = 0 → completes (.connectionClosed n) s fun t =>
    t = idleConn n (sendSegment n (getConn s n).tcp.nxt 1 [] false s) ∧ t.now = s.now)

/-- Requests of the host, and the completions of reads that the device has sent (drawn from R206–R232). Each clause: exec answers
a next state with the effect given, for every state and operands that meet its hypotheses. Readings of the model behind the
clauses: log entries 4, 16, 17, 58. -/
def Obligations.HostRequestCommandsComplete : Prop :=
  ∀ s : State, s.tablesWf = true →
  (∀ reg be data tag, isRunning s = true → s.hep.linkUp = true → s.ident.role ≠ .member → s.hep.cfgReady = true →
    s.cas.fnHeld = false → (getFn s pf).flrFrom = none → completes (.configRequest .pf false false reg be data tag) s fun t =>
      t = emit (.completion tag .success (toLe 4 (cfgValue s .pf (reg % 1024)).toNat)) s) ∧
  (∀ reg be data tag u, isRunning s = true → s.hep.linkUp = true → s.ident.role ≠ .member → s.hep.cfgReady = true →
    s.cas.fnHeld = false → (getFn s pf).flrFrom = none → writeCfg .pf (reg % 1024) be data s = (false, u) →
    completes (.configRequest .pf false true reg be data tag) s fun t => t = emit (.completion tag .success []) u) ∧
  (∀ r, isRunning s = true → s.hep.linkUp = true → s.ident.role ≠ .member → s.cas.fnHeld = false → r.target = .bar0 → r.error = none →
    r.unsupported = false → portAsleep s s.ident.cid = false → memEnabled s pf = true → (getFn s pf).d3hot = false → (getFn s pf).flrFrom = none → r.write = false →
    registerSized r.offset r.len = true → completes (.memoryRequest r) s fun t =>
      t = hostOut (.completion r.tag .success (memRead .bar0 r.offset r.len s).1) (memRead .bar0 r.offset r.len s).2) ∧
  (∀ r, isRunning s = true → s.hep.linkUp = true → s.ident.role ≠ .member → s.cas.fnHeld = false → r.target = .bar0 → r.error = none →
    r.unsupported = false → portAsleep s s.ident.cid = false → memEnabled s pf = true → (getFn s pf).d3hot = false →
    (getFn s pf).flrFrom = none → r.write = true →
    r.poisoned = false → r.data.length = 4 → r.offset % 4 = 0 → completes (.memoryRequest r) s fun t =>
      t = writeReg .host r.offset (BitVec.ofNat 32 (leAt r.data 0 4)) s) ∧
  (∀ r, isRunning s = true → s.hep.linkUp = true → s.ident.role ≠ .member → r.error = some .badTlp →
    completes (.memoryRequest r) s fun t => getCtr t cHEP_CORR_ERR = getCtr s cHEP_CORR_ERR + 1
      ∧ bit (getCfg t (linkFunction s) cfgCorrStatus) 6 = true ∧ t.now = s.now) ∧
  (∀ fn, completes (.vendorMessageRx fn true) s fun t => t = s) ∧
  (∀ fn, completes (.vendorMessageRx fn false) s fun t => t = logUr fn s ∧ t.now = s.now) ∧
  (∀ fn tag bs e, fn < 65536 → s.hep.linkUp = true → mfind s.hep.tags tag = some e → e.fn = fn → e.abandoned = false →
    e.quarantined = false → completes (.readCompletionRx fn tag (.data bs)) s fun t => t = retryFlushes (takeData tag e bs s)) ∧
  (∀ fn tag bs e, fn < 65536 → s.hep.linkUp = true → mfind s.hep.tags tag = some e → e.fn = fn → e.abandoned = true →
    s.hep.flushWait = [] → e.upTo ≤ e.got.length + bs.length → completes (.readCompletionRx fn tag (.data bs)) s fun t =>
      mfind t.hep.tags tag = none ∧ getCtr t cHEP_LATE_CPL = getCtr s cHEP_LATE_CPL + 1) ∧
  (∀ tag e d, mfind s.hep.tags tag = some e → e.timeout = some d → e.quarantined = false → e.abandoned = true → readHeld s tag = false →
    s.hep.flushWait = [] → completes (.completionTimeout tag) s fun t =>
      mfind t.hep.tags tag = some { e with quarantined := true } ∧ t.now = s.at_ (e.issued + d)) ∧
  (∀ tag e d, mfind s.hep.tags tag = some e → e.timeout = some d → e.quarantined = false → e.abandoned = false → readHeld s tag = false →
    completes (.completionTimeout tag) s fun t => t = retryFlushes (deliver e.purpose (.failed .timeout)
      (raiseBits rHEP_EVENT rHEP_EVENT_MASK (putBit 3 true ||| putBit 4 true)
        (logNonFatal e.fn 14 (incr cHEP_CPL_TIMEOUT (quarantine [tag] (noteFlrTag true tag (reachTime (e.issued + d) s)))))))) ∧
  (∀ fn vec m, fnExists s fn = true → memEnabled s fn = true → (getFn s fn).d3hot = false → (getFn s fn).flrFrom = none →
    vec < vectorsOf fn → completes (.msixMaskWrite fn vec m) s fun t =>
      (getFn t fn).msix = mset msixDefault (getFn s fn).msix (4 * vec + 3) (if m then 1 else 0) ∧ t.now = s.now)

/-- The states of the functions, their resets and VF Enable (drawn from R206, R208, R218, R225–R228). Each clause: exec answers a
next state with the effect given, for every state and operands that meet its hypotheses. Readings of the model behind the clauses:
log entries 4, 16. -/
def Obligations.FunctionCommandsComplete : Prop :=
  ∀ s : State, s.tablesWf = true →
  (∀ fn, takesConfig s fn = true → completes (.bmeClear fn) s fun t => (getFn t fn).bme = false ∧ t.now = s.now) ∧
  (∀ fn, takesConfig s fn = true → completes (.bmeSet fn) s fun t => (getFn t fn).bme = true ∧ t.now = s.now) ∧
  (∀ fn on, takesConfig s fn = true → fn < pf → completes (.mseWrite fn on) s fun t => ∀ vf, vf < pf → memEnabled t vf = on) ∧
  (∀ on, takesConfig s pf = true → completes (.mseWrite pf on) s fun t => memEnabled t pf = on) ∧
  (takesConfig s pf = true → completes (.d3hotEntry pf) s fun t => (getFn t pf).d3hot = true) ∧
  (takesConfig s pf = true → completes (.d0Return pf) s fun t => (getFn t pf).d3hot = false) ∧
  (∀ vf, vf < pf → takesConfig s vf = true → completes (.vfFlr vf) s fun t =>
    (getFn t vf).flrFrom = some s.now ∧ (getFn t vf).bme = false ∧ (∀ k, (mfind t.vfm.segments k).isSome → k / 64 ≠ vf) ∧ t.now = s.now) ∧
  (takesConfig s pf = true → completes .pfFlr s fun t =>
    (getFn t pf).flrFrom = some s.now ∧ (getFn t pf).bme = false ∧ t.hep.numVfs = 0 ∧ t.hep.vfEnable = false ∧ t.now = s.now) ∧
  (∀ fn d, (getFn s fn).flrFrom = some d → (flrTags s fn).isEmpty = true → completes (.flrComplete fn) s fun t =>
    (getFn t fn).flrFrom = none ∧ getReg t rHEP_LAST_FLR = lastFlr fn (getFn s fn).flrTimedOut ((s.at_ ((getFn s fn).flrTagAt + 200) - d) / 1000)
        ∧ t.now = s.at_ ((getFn s fn).flrTagAt + 200)) ∧
  (∀ fn d, s.hep.flushWait = [] → (getFn s fn).flrFrom = some d → (flrTags (reachTime (d + 99900000) s) fn).isEmpty = false →
    completes (.flrTagQuarantine fn) s fun t => (getFn t fn).flrTimedOut = true ∧ t.now = s.at_ (d + 99900000)
      ∧ ∀ k ∈ flrTags s fn, ∀ e, mfind s.hep.tags k = some e → mfind t.hep.tags k = some { e with abandoned := true, quarantined := true }) ∧
  (takesConfig s pf = true → s.hep.vfEnable = false → s.hep.numVfs.toNat ≤ totalVfs s → completes .vfEnableSet s fun t =>
    t.hep.vfEnable = true ∧ t.hep.numVfs = s.hep.numVfs ∧ ∀ vf, vf < s.hep.numVfs.toNat → getFn t vf = Func.init) ∧
  (takesConfig s pf = true → s.hep.vfEnable = true → completes .vfEnableClear s fun t => t.hep.vfEnable = false ∧ t.now = s.now) ∧
  (∀ n, takesConfig s pf = true → s.hep.vfEnable = false → completes (.numvfsWrite n) s fun t =>
    t = { s with hep := { s.hep with numVfs := n } })

/-- The records, segments and stop–change–restart of the functions, and the walk of the DTU (drawn from R237–R247). Each clause:
exec answers a next state with the effect given, for every state and operands that meet its hypotheses. Readings of the model
behind the clauses: log entries 24, 58. -/
def Obligations.VirtualFunctionCommandsComplete : Prop :=
  ∀ s : State, s.tablesWf = true →
  (∀ p, fld (getView s p rVFM_IND_ADDR) 24 2 = 0 → fld (getView s p rVFM_IND_ADDR) 0 13 ≤ pf → completes (.vfmIndRead p .clean) s fun t =>
    viewBytes t p (rVFM_IND_DATA 0) 16 = slice (recordBytes (getRecord s (fld (getView s p rVFM_IND_ADDR) 0 13))) 0 64
      ∧ getView t p rVFM_IND_CTL = 0 ∧ t.vfm = s.vfm) ∧
  (∀ p n, fld (getView s p rVFM_IND_ADDR) 24 2 = 0 → fld (getView s p rVFM_IND_ADDR) 0 13 = n → n ≤ pf →
    completes (.vfmIndRead p .uncorrectable) s fun t =>
      viewBytes t p (rVFM_IND_DATA 0) 16 = slice (recordBytes (defaultRecord s n)) 0 64 ∧ (getFnS t n).state = .error
        ∧ bit (getReg t rVFM_EVENT) 2 = true) ∧
  (∀ p u, fld (getView s p rVFM_IND_ADDR) 24 2 = 0 →
    writeRecord (fld (getView s p rVFM_IND_ADDR) 0 13) (viewBytes s p (rVFM_IND_DATA 0) 16) s = (0, u) →
    completes (.vfmIndWrite p) s fun t => t.vfm = u.vfm ∧ getView t p rVFM_IND_CTL = 0) ∧
  (∀ p n, n ≤ pf → (getFnS s n).state = .run → completes (.fnCtlQuiesce p n) s fun t =>
    (getFnS t n).state = .quiesce ∧ (getFnS t n).since = s.now ∧ bit (getReg t rVFM_FN_CTL) 30 = false) ∧
  (∀ p n, n ≤ pf → (getFnS s n).state = .stopped → completes (.fnCtlRun p n) s fun t =>
    (getFnS t n).state = .run ∧ bit (getReg t rVFM_FN_CTL) 30 = false) ∧
  (∀ n, (getFnS s n).state = .quiesce → drainTokens s n = 0 → completes (.functionStopped n) s fun t =>
    (getFnS t n).state = .stopped ∧ t.now = s.now) ∧
  (∀ n, (getFnS s n).state = .quiesce → drainTokens s n ≠ 0 → completes (.quiesceTimeout n) s fun t =>
    (getFnS t n).state = .error ∧ (getFnS t n).waiters = [] ∧ t.now = s.at_ ((getFnS s n).since + 1000000 * regFld s rVFM_QCFG 0 14)) ∧
  (∀ eng n dva len w a, dtuWalk s eng n w 65 dva len = .error (a, false) → completes (.dtuMissFill eng n dva len w .clean) s fun t =>
    t = recordDtuFault eng n dva w false s ∧ t.now = s.now) ∧
  (∀ eng n dva len w ps ks, dtuWalk s eng n w 65 dva len = .ok (ps, ks) → completes (.dtuMissFill eng n dva len w .clean) s fun t =>
    t = forEach useTranslation ks s ∧ t.now = s.now) ∧
  (∀ eng n dva len w k g, segmentAt s n dva = some (k, g) → segmentAt (loseSegment k s) n dva = none → len ≠ 0 →
    s.vfm.cache.contains k = false → completes (.dtuMissFill eng n dva len w .uncorrectable) s fun t =>
      t = recordDtuFault eng n dva w false (loseSegment k (hbmBlockRead .uncorrectable s)) ∧ t.now = s.now) ∧
  (∀ n, dtuBusy s n = false → completes (.dtuUnmapComplete n) s fun t => ∀ u ∈ t.vfm.unmaps, u.1 ≠ n)

/-- The doorbells of the queue pairs and the moderation timer (drawn from R250–R252, R257, R261, R262). Each clause: exec answers
a next state with the effect given, for every state and operands that meet its hypotheses. Readings of the model behind the
clauses: log entries 37. -/
def Obligations.DoorbellCommandsComplete : Prop :=
  ∀ s : State, s.tablesWf = true → ∀ fn qp : Nat, ∀ v : Word,
  (mayRing s fn qp = true → (getQueue s qp).state ≠ .disabled → 0 < ringDelta v.toNat (getQueue s qp).tail →
    ringDelta v.toNat (getQueue s qp).tail ≤ (getQueue s qp).freeSlots → completes (.sqTailWrite fn qp v) s fun t =>
      getQueue t qp = { getQueue s qp with tail := (getQueue s qp).tail + ringDelta v.toNat (getQueue s qp).tail }
        ∧ ∀ k, k ≠ qp → getQueue t k = getQueue s k) ∧
  (mayRing s fn qp = true → (getQueue s qp).state ≠ .disabled → (getQueue s qp).freeSlots < ringDelta v.toNat (getQueue s qp).tail →
    completes (.sqTailWrite fn qp v) s fun t => getQueue t qp = { getQueue s qp with state := .error }) ∧
  (mayRing s fn qp = true → (getQueue s qp).state ≠ .disabled →
    (getQueue s qp).cqHead + ringDelta v.toNat (getQueue s qp).cqHead ≤ (getQueue s qp).written →
    completes (.cqHeadWrite fn qp v) s fun t => t = settleQueue qp (setQueue qp
      { getQueue s qp with cqHead := (getQueue s qp).cqHead + ringDelta v.toNat (getQueue s qp).cqHead } s)) ∧
  (mayRing s fn qp = true → (getQueue s qp).state ≠ .disabled → bit v 0 = true → (getQueue s qp).written ≤ (getQueue s qp).cqHead →
    completes (.cqArmWrite fn qp v) s fun t => getQueue t qp = { getQueue s qp with armed := true } ∧ t.out = s.out) ∧
  (mayRing s fn qp = true → (getQueue s qp).state ≠ .disabled → bit v 0 = true → (getQueue s qp).cqHead < (getQueue s qp).written →
    completes (.cqArmWrite fn qp v) s fun t =>
      getQueue t qp = { getQueue s qp with armed := false, unsignalled := 0, firstUnsig := none }) ∧
  (∀ d, mayRing s fn qp = true → (getQueue s qp).state ≠ .disabled → (getQueue s qp).freeSlots ≠ 0 →
    (mfilter (fun k _ => decide ((getQueue s qp).unstarted ≤ k)) (getQueue s qp).pushed).length < 4 → completes (.geyserWrite fn qp d) s fun t => getCtr t cWQM_GEYSER_PUSH = getCtr s cWQM_GEYSER_PUSH + 1
      ∧ getQueue t qp = { getQueue s qp with tail := (getQueue s qp).tail + 1,
                                             pushed := minsert (mfilter (fun k _ => decide ((getQueue s qp).unstarted ≤ k)) (getQueue s qp).pushed)
                                                        (getQueue s qp).tail (slice d 0 64) }) ∧
  (∀ d, mayRing s fn qp = true → (getQueue s qp).state ≠ .disabled → (getQueue s qp).freeSlots ≠ 0 →
    4 ≤ (mfilter (fun k _ => decide ((getQueue s qp).unstarted ≤ k)) (getQueue s qp).pushed).length → completes (.geyserWrite fn qp d) s fun t => getCtr t cWQM_GEYSER_FALLBACK = getCtr s cWQM_GEYSER_FALLBACK + 1
      ∧ getQueue t qp = { getQueue s qp with tail := (getQueue s qp).tail + 1,
                                             pushed := mfilter (fun k _ => decide ((getQueue s qp).unstarted ≤ k)) (getQueue s qp).pushed }) ∧
  (∀ d, (getQueue s qp).firstUnsig = some d → (getQueue s qp).armed = true → 0 < (getQueue s qp).unsignalled →
    completes (.moderationTimerExpiry qp) s fun t =>
      getQueue t qp = { getQueue s qp with armed := false, unsignalled := 0, firstUnsig := none }
        ∧ t.now = s.at_ (d + 1000 * (getQueue s qp).modUs))

/-- Descriptors, jobs, received frames, queue resets and the admin rings (drawn from R253–R266, R542). Each clause: exec answers a
next state with the effect given, for every state and operands that meet its hypotheses. Readings of the model behind the clauses:
log entries 37, 58. -/
def Obligations.QueueJobCommandsComplete : Prop :=
  ∀ s : State, s.tablesWf = true →
  (∀ qp r d tn, fetchNow s qp (getQueue s qp) = true → lsFetchFirst s (getQueue s qp) = false →
    fetchTurn s (getQueue s qp).inst = some tn → mfind (getQueue s qp).pushed (getQueue s qp).fetched = some d →
    completes (.descriptorFetch qp r .clean) s fun t =>
      t = takeDescriptor qp (getQueue s qp).fetched d { s with wqm := { s.wqm with turn := tn.spend } }) ∧
  (∀ qp r rep u tn, fetchNow s qp (getQueue s qp) = true → lsFetchFirst s (getQueue s qp) = false → qp ≠ svcRingQp →
    fetchTurn s (getQueue s qp).inst = some tn → mfind (getQueue s qp).pushed (getQueue s qp).fetched = none →
    hostRead (getQueue s qp).inst [((getQueue s qp).sqBase + 64 * ((getQueue s qp).fetched % (getQueue s qp).sqSize), 64)] r
      (.descriptor qp (getQueue s qp).fetched) [] { s with wqm := { s.wqm with turn := tn.spend } } = (rep, u) →
    completes (.descriptorFetch qp r .clean) s fun t => t = descriptorBack qp (getQueue s qp).fetched rep u) ∧
  (∀ qp r, qp ≠ svcRingQp → (getQueue s qp).state ≠ .disabled → completes (.descriptorFetch qp r .uncorrectable) s fun t =>
    t = loseContext qp s ∧ ((getQueue s qp).resets = [] → getQueue t qp = Queue.init ∧ bit (getReg t rWQM_EVENT) 2 = true)) ∧
  (∀ qp r j, nextJob s qp 1 = some j → queueShed s (getQueue s qp) = true → completes (.txFrame qp r) s fun t =>
    t = finishJob qp j.lastPos (plainResult j.descs .shed 0) s) ∧
  (∀ qp r j, nextJob s qp 1 = some j → queueShed s (getQueue s qp) = false → txHeld s (getQueue s qp) = false → hostSegments j.descs = [] →
    completes (.txFrame qp r) s fun t => t = txBack qp j.lastPos (.got []) s) ∧
  (∀ qp r j rep u tn, nextJob s qp 1 = some j → queueShed s (getQueue s qp) = false → txHeld s (getQueue s qp) = false →
    hostSegments j.descs ≠ [] → issueTurn s (getQueue s qp).inst = some tn →
    hostRead (getQueue s qp).inst (hostSegments j.descs) r (.jobData qp j.lastPos) [] (spendIssue tn s) = (rep, u) →
    completes (.txFrame qp r) s fun t => t = txBack qp j.lastPos rep u) ∧
  (∀ qp j, nextJob s qp 0 = some j → completes (.descNop qp) s fun t => t = finishJob qp j.lastPos (plainResult j.descs .ok 0) s) ∧
  (∀ h f rest u, mget (fun _ => []) s.sinks (20 + h % 2) = f :: rest → deliverRx f s = some u → completes (.rxFrameDeliver h) s fun t =>
    t = { u with sinks := mset (fun _ => []) u.sinks (20 + h % 2) rest } ∧ t.now = s.now) ∧
  (∀ h rest u, deliverFirst s [] (mget (fun _ => []) s.sinks (20 + h % 2)) = some (u, rest) → completes (.rxFrameDeliver h) s fun t =>
    t = { u with sinks := mset (fun _ => []) u.sinks (20 + h % 2) rest } ∧ t.now = s.now) ∧
  (∀ qp, (getQueue s (regFld s rWQM_QCTL 0 16)).resets = [] → qp < 65536 → (getQueue s qp).state ≠ .disabled →
    completes (.qctlResetMode0 .host qp) s fun t => getQueue t qp = { getQueue s qp with
        resets := (getQueue s qp).resets ++ [{ disable := false, ring := none, tail := (getQueue s qp).tail, started := false, flushed := 0 }] }
      ∧ regFld t rWQM_QCTL 0 16 = qp ∧ bit (getReg t rWQM_QCTL) 30 = false) ∧
  (∀ qp, (getQueue s (regFld s rWQM_QCTL 0 16)).resets = [] → qp < 65536 → (getQueue s qp).state ≠ .disabled → isLsPair s qp = false →
    completes (.qctlResetMode1 .host qp) s fun t => getQueue t qp = { getQueue s qp with
        resets := (getQueue s qp).resets ++ [{ disable := true, ring := none, tail := (getQueue s qp).tail, started := false, flushed := 0 }] }
      ∧ regFld t rWQM_QCTL 0 16 = qp ∧ bit (getReg t rWQM_QCTL) 30 = false) ∧
  (∀ qp ring req rest ds broken, (getQueue s qp).resets = req :: rest → req.started = false →
    (∀ j ∈ (getQueue s qp).jobs, j.phase ≠ .executing ∧ j.barrier = false) → fetchOut s qp (getQueue s qp) = false → req.tail ≤ (getQueue s qp).fetched ∨ readBlocked s (getQueue s qp).inst = false →
    unfetched s qp (getQueue s qp) (req.tail - (getQueue s qp).fetched) (getQueue s qp).fetched ring = some (ds, broken) →
    completes (.queueResetDrained qp ring) s fun t => t = flushQueue qp (getQueue s qp) req rest ds broken
      (ringReads qp (getQueue s qp) (req.tail - (getQueue s qp).fetched) (getQueue s qp).fetched ring s)) ∧
  (∀ qp q, lsContext s qp = some q → (getQueue s qp).state = .disabled → completes (.lsQueueRestore qp) s fun t =>
    t = setQueue qp q s ∧ getQueue t qp = q) ∧
  (∀ p ring v, ownsRing p ring = true → (getQueue s (adminQp ring)).state = .disabled →
    bit (getReg s (if ring then rWQM_SVCQ_CFG else rWQM_ADMIN_CFG)) 0 = false → bit v 0 = true → fld v 4 4 ≤ fld v 8 4 → fld v 8 4 ≤ 12 →
    completes (.adminCfgWrite p ring v) s fun t =>
      (getQueue t (adminQp ring)).state = .run ∧ (getQueue t (adminQp ring)).sqLog2 = fld v 4 4 + 4
        ∧ (getQueue t (adminQp ring)).cqLog2 = fld v 8 4 + 4 ∧ (getQueue t (adminQp ring)).kind = .admin) ∧
  (∀ p ring v, ownsRing p ring = true → bit (getReg s (if ring then rWQM_SVCQ_CFG else rWQM_ADMIN_CFG)) 0 = true → bit v 0 = false →
    (getQueue s (adminQp ring)).jobs = [] → completes (.adminCfgWrite p ring v) s fun t =>
      getQueue t (adminQp ring) = Queue.init ∧ bit (getReg t (if ring then rWQM_SVCQ_CFG else rWQM_ADMIN_CFG)) 0 = false)

/-- Requests for buffers, their waits, frees, rebuilds and the quotas of the instances (drawn from R293–R301). Each clause: exec
answers a next state with the effect given, for every state and operands that meet its hypotheses. Readings of the model behind
the clauses: log entries 37. -/
def Obligations.PoolCommandsComplete : Prop :=
  ∀ s : State, s.tablesWf = true →
  (∀ r n, firstChoice s r.purpose r.len = some n → (s.pcr.refuge = false ∨ r.purpose = .core) → judge s r n = .ok →
    completes (.poolRequest r) s fun t => t = grant r n s) ∧
  (∀ r n, firstChoice s r.purpose r.len = some n → (s.pcr.refuge = false ∨ r.purpose = .core) → judge s r n = .quota → completes (.poolRequest r) s fun t =>
    t.pool.held = s.pool.held ∧ t.pool.pools = s.pool.pools ∧ t.pool.replies = s.pool.replies ++ [{ id := r.id, answer := .poolEmpty }]) ∧
  (∀ r n, firstChoice s r.purpose r.len = some n → (s.pcr.refuge = false ∨ r.purpose = .core) → judge s r n = .empty → completes (.poolRequest r) s fun t =>
    t.pool.waits = s.pool.waits ++ [{ req := r, pool := n, since := s.now }] ∧ t.pool.replies = s.pool.replies
      ∧ t.pool.held = s.pool.held) ∧
  (∀ r, firstChoice s r.purpose r.len = none → completes (.poolRequest r) s fun t => t = replyPool r.id .malformed s) ∧
  (∀ id w, s.pool.waits.find? (fun w => decide (w.req.id = id)) = some w → completes (.poolWaitExpiry id) s fun t =>
    t = tryFallback w (endWait w (reachTime (w.since + regFld s rPOOL_CTL 0 14) s))
      ∧ t.now = s.at_ (w.since + regFld s rPOOL_CTL 0 14) ∧ t.pool.replies.length = s.pool.replies.length + 1) ∧
  (∀ n b h, mfind s.pool.held (2 ^ 24 * n + b) = some h → s.pool.waits = [] → completes (.bufferFree n b) s fun t =>
    mfind t.pool.held (2 ^ 24 * n + b) = none ∧ getPool t n = { getPool s n with stack := b :: (getPool s n).stack }
      ∧ t.pool.replies = s.pool.replies) ∧
  (∀ n b h, mfind s.pool.held (2 ^ 24 * n + b) = some h → completes (.bufferFree n b) s fun t =>
    ∃ u, t = serveWaits n s.pool.waits.length u ∧ u.pool.held = merase s.pool.held (2 ^ 24 * n + b)
      ∧ getPool u n = { getPool s n with stack := b :: (getPool s n).stack } ∧ u.pool.waits = s.pool.waits) ∧
  (∀ p n, isCrater p = false → s.pool.rebuilding = none → heldIn s (n % 16) = [] → completes (.poolRebuild p n) s fun t =>
    t.pool = { s.pool with rebuilding := some (n % 16), rebuildAt := s.now } ∧ regFld t rPOOL_CTL 16 4 = n % 16 ∧ bit (getReg t rPOOL_CTL) 30 = false) ∧
  (∀ p n, isCrater p = false → s.pool.rebuilding = none → heldIn s (n % 16) ≠ [] → completes (.poolRebuild p n) s fun t =>
    t.pool = s.pool ∧ bit (getReg t rPOOL_CTL) 30 = true) ∧
  (∀ n u, s.pool.rebuilding = some n → setPool n { getPool s n with stack := [], fresh := 0, lost := 0 } (reachTime (s.pool.rebuildAt + 1000) s) = u →
    completes (.rebuildDone n) s fun t => t = serveWaits n s.pool.waits.length { u with pool := { u.pool with rebuilding := none } }) ∧
  (∀ p, fld (getView s p rPOOL_IND_ADDR) 0 13 ≤ pf → completes (.poolIndRead p) s fun t =>
    t.pool = s.pool ∧ viewBytes t p (rPOOL_IND_DATA 0) 6 = quotaBytes s (fld (getView s p rPOOL_IND_ADDR) 0 13)
      ∧ getView t p rPOOL_IND_CTL = 0) ∧
  (∀ p, isCrater p = false → fld (getView s p rPOOL_IND_ADDR) 0 13 ≤ pf → leAt (viewBytes s p (rPOOL_IND_DATA 0) 6) 0 3 ≠ 0 →
    leAt (viewBytes s p (rPOOL_IND_DATA 0) 6) 4 3 ≠ 0 → leAt (viewBytes s p (rPOOL_IND_DATA 0) 6) 8 3 ≠ 0 →
    [3, 7, 11, 15, 19, 23].all (fun k => decide (byteAt (viewBytes s p (rPOOL_IND_DATA 0) 6) k = 0)) = true →
    completes (.poolIndWrite p) s fun t => quotaOf t (fld (getView s p rPOOL_IND_ADDR) 0 13) =
        { netRx := leAt (viewBytes s p (rPOOL_IND_DATA 0) 6) 0 3, netTx := leAt (viewBytes s p (rPOOL_IND_DATA 0) 6) 4 3,
          stor := leAt (viewBytes s p (rPOOL_IND_DATA 0) 6) 8 3 }
      ∧ getView t p rPOOL_IND_CTL = 0) ∧
  (∀ r n, firstChoice s r.purpose r.len = some n → s.pcr.refuge = true → r.purpose ≠ .core → completes (.poolRequest r) s fun t =>
    t.pool.held = s.pool.held ∧ t.pool.pools = s.pool.pools ∧ t.pool.waits = s.pool.waits
      ∧ t.pool.replies = s.pool.replies ++ [{ id := r.id, answer := .poolEmpty }])

/-- The admin commands about queue pairs, functions and segments (drawn from R240, R245, R265, R267). Each clause: exec answers a
next state with the effect given, for every state and operands that meet its hypotheses. Readings of the model behind the clauses:
log entries 53. -/
def Obligations.FunctionAdminCommandsComplete : Prop :=
  ∀ s : State, s.tablesWf = true → ∀ (g : Bool) (j : Job),
  (nextJob s (adminQp g) 0x80 = some j → queueConfigBad s j.lastDesc = false → (getQueue s (leAt j.lastDesc 16 2)).state = .disabled →
    isLsPair s (leAt j.lastDesc 16 2) = false → completes (.adminQueueConfig g) s fun t =>
      t = adminOutcome g j .ok (setQueue (leAt j.lastDesc 16 2) (configuredQueue j.lastDesc) s)) ∧
  (nextJob s (adminQp g) 0x80 = some j → queueConfigBad s j.lastDesc = true → completes (.adminQueueConfig g) s fun t =>
    t = adminOutcome g j .malformed s) ∧
  (∀ u, nextJob s (adminQp g) 0x81 = some j → leAt j.lastDesc 16 2 ≠ 0 → byteAt j.lastDesc 18 ≤ 1 →
    startReset (leAt j.lastDesc 16 2) (decide (byteAt j.lastDesc 18 = 1)) (some g) s = (none, u) →
    completes (.adminQueueReset g) s fun t => t = beginJob (adminQp g) j.lastPos u) ∧
  (∀ u st, nextJob s (adminQp g) 0x81 = some j → leAt j.lastDesc 16 2 ≠ 0 → byteAt j.lastDesc 18 ≤ 1 →
    startReset (leAt j.lastDesc 16 2) (decide (byteAt j.lastDesc 18 = 1)) (some g) s = (some st, u) →
    completes (.adminQueueReset g) s fun t => t = adminOutcome g j st u) ∧
  (∀ u, nextJob s (adminQp g) 0x83 = some j → byteAt j.lastDesc 18 = 1 → quiesceFn (leAt j.lastDesc 16 2) (some g) s = (.drains, u) →
    completes (.adminVfStateQuiesce g) s fun t => t = beginJob (adminQp g) j.lastPos u) ∧
  (∀ u st, nextJob s (adminQp g) 0x83 = some j → byteAt j.lastDesc 18 = 1 → quiesceFn (leAt j.lastDesc 16 2) (some g) s = (.done st, u) →
    completes (.adminVfStateQuiesce g) s fun t => t = adminOutcome g j st u) ∧
  (nextJob s (adminQp g) 0x83 = some j → byteAt j.lastDesc 18 = 2 → completes (.adminVfStateRun g) s fun t =>
    t = adminOutcome g j (runFn (leAt j.lastDesc 16 2) s).1 (runFn (leAt j.lastDesc 16 2) s).2) ∧
  (nextJob s 0 0x84 = some j → completes (.adminDtuMap false) s fun t =>
    t = adminOutcome false j (mapSegment (leAt j.lastDesc 16 2) (byteAt j.lastDesc 18) (slice j.lastDesc 20 32) s).1
      (mapSegment (leAt j.lastDesc 16 2) (byteAt j.lastDesc 18) (slice j.lastDesc 20 32) s).2) ∧
  (nextJob s svcRingQp 0x84 = some j → completes (.adminDtuMap true) s fun t => t = adminOutcome true j .permission s) ∧
  (∀ u, nextJob s 0 0x85 = some j → leAt j.lastDesc 16 2 ≤ pf → byteAt j.lastDesc 19 = 0 → byteAt j.lastDesc 18 ≤ 63 →
    unmapSegments (leAt j.lastDesc 16 2) (some (byteAt j.lastDesc 18)) s = u → completes (.adminDtuUnmap false) s fun t =>
      t = beginJob 0 j.lastPos { u with vfm := { u.vfm with unmaps := u.vfm.unmaps ++ [(leAt j.lastDesc 16 2, false)] } }) ∧
  (∀ u, nextJob s 0 0x85 = some j → leAt j.lastDesc 16 2 ≤ pf → byteAt j.lastDesc 19 = 1 →
    unmapSegments (leAt j.lastDesc 16 2) none s = u → completes (.adminDtuUnmap false) s fun t =>
      t = beginJob 0 j.lastPos { u with vfm := { u.vfm with unmaps := u.vfm.unmaps ++ [(leAt j.lastDesc 16 2, false)] } }) ∧
  (∀ r bs u, nextJob s (adminQp g) 0x82 = some j → jobAt s (adminQp g) j.lastPos = some j →
    readAdmin g false j.lastPos (descAddr j.lastDesc) (descLen j.lastDesc) r s = (.got bs, u) →
    completes (.adminVfConfig g r) s fun t => t = runVfConfig g j bs u)

/-- The admin commands about tables, keys, the player and storage (drawn from R161, R162, R195, R198, R199, R267–R269). Each
clause: exec answers a next state with the effect given, for every state and operands that meet its hypotheses. Readings of the
model behind the clauses: log entries 53. -/
def Obligations.TableAndStorageAdminCommandsComplete : Prop :=
  ∀ s : State, s.tablesWf = true → ∀ (g : Bool) (j : Job),
  (∀ r bs u, nextJob s (adminQp g) 0x86 = some j → jobAt s (adminQp g) j.lastPos = some j →
    readAdmin g false j.lastPos (descAddr j.lastDesc) (descLen j.lastDesc) r s = (.got bs, u) →
    completes (.adminTableWrite g r) s fun t => t = runTableWrite g j bs u) ∧
  (∀ r u, nextJob s (adminQp g) 0x87 = some j → tableOperation j.lastDesc true [] s = some (r, u) → r.code = 0 →
    (g = true → inSvcMemory u (descAddr j.lastDesc) (r.data.take (descLen j.lastDesc)).length = true) →
    completes (.adminTableRead g) s fun t => t = finishWriter (adminQp g) j.lastPos
      (descAddr j.lastDesc + (r.data.take (descLen j.lastDesc)).length - 1)
      (adminResult .ok (r.data.take (descLen j.lastDesc)).length 0 false)
      (writeAdmin g (descAddr j.lastDesc) (r.data.take (descLen j.lastDesc)) u)) ∧
  (∀ r bs u, nextJob s 0 0x88 = some j → jobAt s 0 j.lastPos = some j →
    readAdmin false true j.lastPos (descAddr j.lastDesc) (descLen j.lastDesc) r s = (.got bs, u) →
    completes (.adminKeyInstall false r) s fun t => t = queueKeyJob false bs (beginJob 0 j.lastPos u)) ∧
  (∀ r bs u, nextJob s 0 0x89 = some j → jobAt s 0 j.lastPos = some j →
    readAdmin false true j.lastPos (descAddr j.lastDesc) (descLen j.lastDesc) r s = (.got bs, u) →
    completes (.adminKeyRetire false r) s fun t => t = queueKeyJob true bs (beginJob 0 j.lastPos u)) ∧
  (∀ r, nextJob s svcRingQp 0x88 = some j → completes (.adminKeyInstall true r) s fun t => t = adminOutcome true j .permission s) ∧
  (∀ r, nextJob s svcRingQp 0x89 = some j → completes (.adminKeyRetire true r) s fun t => t = adminOutcome true j .permission s) ∧
  (nextJob s 0 0x8E = some j → playRefusal s (byteAt j.lastDesc 16) (leAt j.lastDesc 18 2) = none →
    completes (.adminPlay false) s fun t =>
      t = acceptPlay (byteAt j.lastDesc 16) (leAt j.lastDesc 18 2) (some false) (beginJob 0 j.lastPos s)) ∧
  (nextJob s 0 0x8F = some j → stopRefusal s (byteAt j.lastDesc 16) = none → completes (.adminPlayStop false) s fun t =>
    t = adminOutcome false j .ok (stopPlay (byteAt j.lastDesc 16) s)) ∧
  (∀ r bs u, nextJob s (adminQp g) 0x8A = some j → jobAt s (adminQp g) j.lastPos = some j →
    readAdmin g false j.lastPos (descAddr j.lastDesc) (descLen j.lastDesc) r s = (.got bs, u) →
    completes (.adminStorConnect g r) s fun t => t = runStorConnect g j bs u) ∧
  (nextJob s (adminQp g) 0x8B = some j → leAt j.lastDesc 16 2 < 1024 → (getConn s (leAt j.lastDesc 16 2)).recorder = false →
    (getConn s (leAt j.lastDesc 16 2)).state = .ready → completes (.adminStorDisconnect g) s fun t =>
      t = beginJob (adminQp g) j.lastPos (setConn (leAt j.lastDesc 16 2)
        { getConn s (leAt j.lastDesc 16 2) with state := .closing, closer := some g,
                                                cids := mfilter (fun _ u => u.counts) (getConn s (leAt j.lastDesc 16 2)).cids } s)) ∧
  (nextJob s (adminQp g) 0x8B = some j → leAt j.lastDesc 16 2 < 1024 → (getConn s (leAt j.lastDesc 16 2)).recorder = false →
    (getConn s (leAt j.lastDesc 16 2)).state = .failed → completes (.adminStorDisconnect g) s fun t =>
      t = adminOutcome g j .ok (idleConn (leAt j.lastDesc 16 2) s)) ∧
  (∀ r data b u, nextJob s (adminQp g) 0x8C = some j → rawRefusal s j.lastDesc = none → rawRoom s (leAt j.lastDesc 16 2) = true →
    readAdmin g false j.lastPos (descAddr j.lastDesc) 64 r s = (.got b, u) →
    completes (.adminStorRaw g r data) s fun t => t = runStorRaw g j b data u) ∧
  (∀ ecc es a n u, nextJob s 0 0x8D = some j → (levelAt s .str).emergent = false → 0 < descLen j.lastDesc →
    descLen j.lastDesc ≤ 16777216 → leAt j.lastDesc 16 8 + descLen j.lastDesc ≤ regionBytes s → ecc ≠ .uncorrectable →
    leAt j.lastDesc 16 8 / 4096 * 4096 = a → ceilDiv (leAt j.lastDesc 16 8 + descLen j.lastDesc) 4096 * 4096 - a = n →
    journalSubs s false a n = .ok es → hbmBlockRead ecc { s with str := { s.str with nextCmd := s.str.nextCmd + 1 } } = u →
    completes (.adminJnlRead false ecc) s fun t => t = pushCmd s.str.nextCmd (setCmd s.str.nextCmd
      { owner := .jnl j.lastPos (leAt j.lastDesc 16 8), inst := 4100, write := false, nsid := 0, slba := a / 4096, keySlot := 0,
        dva := descAddr j.lastDesc, len := descLen j.lastDesc, ro := false, subs := es, wire := List.replicate n 0, ready := true,
        plain := none, startedAt := none, lastByte := none } (beginJob 0 j.lastPos u))) ∧
  (∀ f u, nextJob s 0 0x8D = some j → (levelAt s .str).emergent = false → 0 < descLen j.lastDesc → descLen j.lastDesc ≤ 16777216 →
    leAt j.lastDesc 16 8 + descLen j.lastDesc ≤ regionBytes s → takeFree (hbmBlockRead .uncorrectable s) = (f, u) →
    completes (.adminJnlRead false .uncorrectable) s fun t =>
      t = adminDone false j .storageError 0 (Config.freeDWord f &&& 0x1FFFFF) (evStr 3 u))

/-- The instructions of a channel that act on its registers, its program counter and its transfers (drawn from R276, R277, R279,
R280, R283). Each clause: exec answers a next state with the effect given, for every state and operands that meet its hypotheses.
Readings of the model behind the clauses: log entries 25. -/
def Obligations.ChannelInstructionsComplete : Prop :=
  ∀ s : State, s.tablesWf = true → ∀ (ch : Nat) (w : DWord), nextInsn s ch = some w →
  (nbits w.toNat 0 8 = 0 → insnFOnly w 0 = true → completes (.insnNop ch) s fun t =>
    getCh t ch = (getCh s ch).retire ∧ ∀ k, k ≠ ch → getCh t k = getCh s k) ∧
  (0x0E ≤ nbits w.toNat 0 8 → completes (.insnNop ch) s fun t => t = faultInsn ch .malformed s) ∧
  (nbits w.toNat 0 8 = 1 → insnFOnly w 0x00FE0000 = true → nbits w.toNat 18 3 ≠ 7 → 0 < ((getCh s ch).creg (insnRc w)).toNat →
    ((getCh s ch).creg (insnRc w)).toNat ≤ 16777216 → nbit w.toNat 17 = false → completes (.insnMove ch) s fun t =>
      getCh t ch = { getCh s ch with
        xfer := some { fill := false, bsz := nbits w.toNat 18 3, pace := none, sfix := nbit w.toNat 21, dfix := nbit w.toNat 22,
                       ro := nbit w.toNat 23, granted := false, issued := false, data := none } }) ∧
  (nbits w.toNat 0 8 = 1 → insnFOnly w 0x00FE0000 = true → nbits w.toNat 18 3 ≠ 7 → 0 < ((getCh s ch).creg (insnRc w)).toNat →
    ((getCh s ch).creg (insnRc w)).toNat ≤ 16777216 → nbit w.toNat 17 = true → 0 < reqCount s (insnImm w % 256) →
    completes (.insnMove ch) s fun t => reqCount t (insnImm w % 256) = reqCount s (insnImm w % 256) - 1
      ∧ getCh t ch = { getCh s ch with
        xfer := some { fill := false, bsz := nbits w.toNat 18 3, pace := some (insnImm w % 256), sfix := nbit w.toNat 21, dfix := nbit w.toNat 22,
                       ro := nbit w.toNat 23, granted := true, issued := false, data := none } }) ∧
  (nbits w.toNat 0 8 = 2 → insnFOnly w 0x00DC0000 = true → nbits w.toNat 18 3 ≠ 7 → 0 < ((getCh s ch).creg (insnRc w)).toNat →
    ((getCh s ch).creg (insnRc w)).toNat ≤ 16777216 → completes (.insnFill ch) s fun t =>
      getCh t ch = { getCh s ch with
        xfer := some { fill := true, bsz := nbits w.toNat 18 3, pace := none, sfix := nbit w.toNat 21, dfix := nbit w.toNat 22,
                       ro := nbit w.toNat 23, granted := false, issued := false, data := none } }) ∧
  (nbits w.toNat 0 8 = 3 → insnFOnly w 0x20000 = true → nbit w.toNat 17 = false → completes (.insnLoadi ch) s fun t =>
    getCh t ch = ((getCh s ch).setC (insnRa w) (BitVec.ofNat 64 (insnImm w))).retire) ∧
  (nbits w.toNat 0 8 = 3 → insnFOnly w 0x20000 = true → nbit w.toNat 17 = true → completes (.insnLoadi ch) s fun t =>
    getCh t ch = ((getCh s ch).setC (insnRa w)
      (BitVec.ofNat 64 (((getCh s ch).creg (insnRa w)).toNat % 2 ^ 32 + insnImm w * 2 ^ 32))).retire) ∧
  (nbits w.toNat 0 8 = 4 → insnFOnly w 0x20000 = true → completes (.insnAdd ch) s fun t =>
    getCh t ch = ((getCh s ch).setC (insnRa w) ((getCh s ch).creg (insnRb w)
      + (if nbit w.toNat 17 then (getCh s ch).creg (insnRc w) else insnSimm w))).retire) ∧
  (nbits w.toNat 0 8 = 7 → insnFOnly w 0 = true → 0 < insnImm w % 2048 → insnImm w % 2048 ≤ 1024 → (getCh s ch).loops.length < 4 →
    (getCh s ch).pc + insnImm w % 2048 ≤ (getCh s ch).last → (getCh s ch).creg (insnRa w) ≠ 0 → completes (.insnLoop ch) s fun t =>
      getCh t ch = { getCh s ch with
        pc := (getCh s ch).pc + 1
        loops := { first := (getCh s ch).pc + 1, last := (getCh s ch).pc + insnImm w % 2048, reg := insnRa w } :: (getCh s ch).loops }) ∧
  (∀ n : Nat, nbits w.toNat 0 8 = 8 → insnFOnly w 0xE0000 = true →
    branchTaken (nbits w.toNat 17 3) ((getCh s ch).creg (insnRa w)) ((getCh s ch).creg (insnRb w)) = some true →
    (n : Int) = (getCh s ch).pc + signed 32 (insnImm w) → (getCh s ch).base ≤ n → n ≤ (getCh s ch).last →
    completes (.insnBranch ch) s fun t =>
      getCh t ch = { getCh s ch with pc := n, loops := keptLevels n (getCh s ch).loops, ahead := [] }) ∧
  (nbits w.toNat 0 8 = 8 → insnFOnly w 0xE0000 = true →
    branchTaken (nbits w.toNat 17 3) ((getCh s ch).creg (insnRa w)) ((getCh s ch).creg (insnRb w)) = some false →
    completes (.insnBranch ch) s fun t => getCh t ch = (getCh s ch).retire) ∧
  (nbits w.toNat 0 8 = 0xB → insnFOnly w 0 = true → spaceAllowed s ch (insnImm w % 8192) (BitVec.ofNat 2 (insnImm w >>> 13)) = true →
    spaceAllowed s ch (insnImm w % 8192) (BitVec.ofNat 2 (insnImm w >>> 15)) = true → completes (.insnMode ch) s fun t =>
      getCh t ch = { (getCh s ch).retire with inst := insnImm w % 8192, src := BitVec.ofNat 2 (insnImm w >>> 13),
                                              dst := BitVec.ofNat 2 (insnImm w >>> 15) })

/-- The instructions of a channel that move data, wait, signal and end, and the events that finish them (drawn from R277, R280,
R282, R284). Each clause: exec answers a next state with the effect given, for every state and operands that meet its hypotheses.
Readings of the model behind the clauses: log entries 16, 25. -/
def Obligations.ChannelTransfersComplete : Prop :=
  ∀ s : State, s.tablesWf = true → ∀ (ch : Nat) (w : DWord),
  (∀ r rep u, nextInsn s ch = some w → nbits w.toNat 0 8 = 5 → insnFOnly w 0 = true →
    ((getCh s ch).creg (insnRb w) + insnSimm w).toNat % 8 = 0 →
    chRead ch ((getCh s ch).creg (insnRb w) + insnSimm w).toNat 8 r (.load ch) s = (rep, u) →
    completes (.insnLoad ch r) s fun t => t = finishLoad ch rep u) ∧
  (∀ u, nextInsn s ch = some w → nbits w.toNat 0 8 = 6 → insnFOnly w 0 = true →
    ((getCh s ch).creg (insnRb w) + insnSimm w).toNat % 8 = 0 →
    chWrite ch ((getCh s ch).creg (insnRb w) + insnSimm w).toNat (toLe 8 ((getCh s ch).creg (insnRa w)).toNat) false s = (.written, u) →
    completes (.insnStore ch) s fun t =>
      t = setCh ch (getCh u ch).retire (addCtr cDMA_BYTES_WRITTEN 8 u)) ∧
  (nextInsn s ch = some w → nbits w.toNat 0 8 = 5 → insnFOnly w 0 = true →
    ((getCh s ch).creg (insnRb w) + insnSimm w).toNat % 8 ≠ 0 → ∀ r, completes (.insnLoad ch r) s fun t =>
      t = faultCh ch .malformed 1 ((getCh s ch).creg (insnRb w) + insnSimm w) s) ∧
  (nextInsn s ch = some w → nbits w.toNat 0 8 = 6 → insnFOnly w 0 = true →
    ((getCh s ch).creg (insnRb w) + insnSimm w).toNat % 8 ≠ 0 → completes (.insnStore ch) s fun t =>
      t = faultCh ch .malformed 2 ((getCh s ch).creg (insnRb w) + insnSimm w) s) ∧
  (∀ r x rep u, (getCh s ch).xfer = some x → (getCh s ch).burstReady x = true → x.data = none → x.fill = false →
    insnAt s (getCh s ch) = w → 2 ≤ (getCh s ch).src.toNat →
    chRead ch ((getCh s ch).creg (insnRa w)).toNat ((getCh s ch).burstLen x (insnRc w)) r (.burst ch) s = (rep, u) →
    completes (.dmaBurstComplete ch r) s fun t => t = finishBurst ch rep u) ∧
  (∀ r x rep tn v u, (getCh s ch).xfer = some x → (getCh s ch).burstReady x = true → x.data = none → x.fill = false →
    insnAt s (getCh s ch) = w → (getCh s ch).src.toNat < 2 → burstReads s ch (getCh s ch) = true →
    issueTurn s (getCh s ch).inst = some tn → nextIssuer s ch = true →
    { spendIssue tn s with dma := { (spendIssue tn s).dma with
        lastIssue := mset (fun _ => 0) (spendIssue tn s).dma.lastIssue (getCh s ch).inst ch } } = v →
    chRead ch ((getCh s ch).creg (insnRa w)).toNat ((getCh s ch).burstLen x (insnRc w)) r (.burst ch) v = (rep, u) →
    completes (.dmaBurstComplete ch r) s fun t => t = finishBurst ch rep u) ∧
  (∀ r x, (getCh s ch).xfer = some x → (getCh s ch).burstReady x = true → x.data = none → x.fill = true →
    insnAt s (getCh s ch) = w →
    completes (.dmaBurstComplete ch r) s fun t =>
      t = writeBurst ch (fillBytes ((getCh s ch).creg (insnRa w)) ((getCh s ch).burstLen x (insnRc w))) s) ∧
  (nextInsn s ch = some w → nbits w.toNat 0 8 = 9 → insnFOnly w 0x60000 = true → nbits w.toNat 17 2 = 0 →
    reqCount s (insnImm w % 256) = 0 → completes (.insnWait ch) s fun t =>
      getCh t ch = { getCh s ch with state := .wait, waiting := some (.req (insnImm w % 256)) } ∧ t.now = s.now) ∧
  (nextInsn s ch = some w → nbits w.toNat 0 8 = 9 → insnFOnly w 0x60000 = true → nbits w.toNat 17 2 = 0 →
    0 < reqCount s (insnImm w % 256) → completes (.insnWait ch) s fun t =>
      getCh t ch = (getCh s ch).retire ∧ reqCount t (insnImm w % 256) = reqCount s (insnImm w % 256) - 1) ∧
  (nextInsn s ch = some w → nbits w.toNat 0 8 = 9 → insnFOnly w 0x60000 = true → nbits w.toNat 17 2 = 1 → 0 < insnImm w →
    completes (.insnWait ch) s fun t =>
      getCh t ch = { getCh s ch with state := .wait, waiting := some (.time (insnImm w) (s.now + insnImm w)) }) ∧
  (∀ n d, (getCh s ch).state = .wait → (getCh s ch).waiting = some (.time n d) → (getCh s ch).pauseReq = false →
    (getCh s ch).aborting = false → completes (.waitTimeExpiry ch) s fun t =>
      getCh t ch = (getCh s ch).retire ∧ t.now = s.at_ d) ∧
  (nextInsn s ch = some w → nbits w.toNat 0 8 = 0xA → insnFOnly w 0x60000 = true → nbits w.toNat 17 2 = 0 → 128 ≤ insnImm w % 256 →
    completes (.insnSignal ch) s fun t => t = assertLine (insnImm w % 256) (setCh ch (getCh s ch).retire s)) ∧
  (nextInsn s ch = some w → nbits w.toNat 0 8 = 0xA → insnFOnly w 0x60000 = true → nbits w.toNat 17 2 = 1 →
    completes (.insnSignal ch) s fun t =>
      getCh t ch = { (getCh s ch).retire with sigcode := BitVec.ofNat 16 (insnImm w) }) ∧
  (nextInsn s ch = some w → nbits w.toNat 0 8 = 0xC → insnFOnly w 0x20000 = true → completes (.insnFence ch) s fun t =>
    getCh t ch = { getCh s ch with waiting := some (.fence (nbit w.toNat 17)) }) ∧
  (∀ r, (getCh s ch).waiting = some (.fence false) → (getCh s ch).aborting = false →
    (∀ e ∈ s.hep.tags, e.2.purpose ≠ .fence ch) → completes (.fenceDone ch r) s fun t => getCh t ch = (getCh s ch).retire) ∧
  (nextInsn s ch = some w → nbits w.toNat 0 8 = 0xD → insnFOnly w 0 = true → completes (.insnHalt ch) s fun t =>
    getCh t ch = { getCh s ch with waiting := some .halt }) ∧
  ((getCh s ch).waiting = some .halt → (getCh s ch).aborting = false → completes (.haltDone ch) s fun t =>
    (getCh t ch).state = .idle ∧ (getCh t ch).endCode = 1 ∧ (getCh t ch).loops = [] ∧ (getCh t ch).pc = (getCh s ch).pc)

/-- Control of the channels, the timers and request lines, and the program memory (drawn from R274, R275, R281, R285, R288). Each
clause: exec answers a next state with the effect given, for every state and operands that meet its hypotheses. Readings of the
model behind the clauses: log entries 25. -/
def Obligations.ChannelControlCommandsComplete : Prop :=
  ∀ s : State, s.tablesWf = true → ∀ (p : Party) (ch : Nat),
  (ownsCh p ch = true → (getCh s ch).state = .idle → (areaOf ch).1 ≤ (getCh s ch).base → (getCh s ch).last ≤ (areaOf ch).2 →
    (getCh s ch).base ≤ (getCh s ch).last → completes (.channelStart p ch) s fun t =>
      (getCh t ch).state = .run ∧ (getCh t ch).pc = (getCh s ch).base ∧ (getCh t ch).c = (getCh s ch).c ∧ (getCh t ch).loops = []
        ∧ (getCh t ch).err = false ∧ (getCh t ch).endCode = 0) ∧
  (ownsCh p ch = true → (getCh s ch).state ≠ .idle → completes (.channelStart p ch) s fun t =>
    getCh t ch = { getCh s ch with err := true }) ∧
  (ownsCh p ch = true → (getCh s ch).state = .faulted → completes (.channelResume p ch) s fun t =>
    getCh t ch = { getCh s ch with state := if (getCh s ch).pauseReq then .paused else .run, fault := none, err := false,
                                   waiting := none, xfer := none }) ∧
  (ownsCh p ch = true → (getCh s ch).state = .run → completes (.channelAbort p ch) s fun t =>
    getCh t ch = { getCh s ch with aborting := true, err := false }) ∧
  (ownsCh p ch = true → (getCh s ch).state = .faulted → chReading s ch = false → completes (.channelAbort p ch) s fun t =>
    (getCh t ch).state = .idle ∧ (getCh t ch).endCode = 2 ∧ (getCh t ch).fault = none ∧ (getCh t ch).err = false) ∧
  (ownsCh p ch = true → (getCh s ch).state = .idle → completes (.channelAbort p ch) s fun t =>
    getCh t ch = { getCh s ch with err := true }) ∧
  ((getCh s ch).aborting = true → chReading s ch = false → completes (.channelAbortDone ch) s fun t =>
    (getCh t ch).state = .idle ∧ (getCh t ch).endCode = 2 ∧ (getCh t ch).aborting = false ∧ (getCh t ch).c = (getCh s ch).c) ∧
  (ownsCh p ch = true → completes (.channelPauseSet p ch) s fun t => getCh t ch = { getCh s ch with pauseReq := true, err := false }) ∧
  ((getCh s ch).pauseReq = true → (getCh s ch).aborting = false → (getCh s ch).state = .run → (getCh s ch).atBoundary = true →
    completes (.channelPaused ch) s fun t => getCh t ch = { getCh s ch with state := .paused, ahead := [] }
      ∧ getCtr t cDMA_PAUSES = getCtr s cDMA_PAUSES + 1) ∧
  (ownsCh p ch = true → (getCh s ch).state = .paused → completes (.channelPauseClear p ch) s fun t =>
    getCh t ch = { getCh s ch with pauseReq := false, err := false, state := .run, waiting := none, xfer := none }) ∧
  (∀ n d, mfind s.dma.timers n = some d → completes (.dmaTimerExpiry n) s fun t =>
    t.now = s.at_ d ∧ mfind t.dma.timers n = some (d + regFld s (rDMA_TMR_CFG n) 0 30)) ∧
  (∀ line, ownsLine p line = true → reqCount s line < 65535 → (∀ e ∈ s.dma.chans, e.2.wants line = false) →
    completes (.reqSetWrite p line) s fun t => reqCount t line = reqCount s line + 1 ∧ t.dma.chans = s.dma.chans) ∧
  (∀ line, ownsLine p line = true → 65535 ≤ reqCount s line → completes (.reqSetWrite p line) s fun t =>
    t.dma.reqs = s.dma.reqs ∧ getCtr t cDMA_REQ_OVF = getCtr s cDMA_REQ_OVF + 1) ∧
  (∀ hi, ownsWord p (fld (getView s p rDMA_PMEM_ADDR) 0 13) = true → completes (.pmemWordWrite p hi) s fun t =>
    pmemAt t (fld (getView s p rDMA_PMEM_ADDR) 0 13) = join64 hi (getView s p rDMA_PMEM_LO)
      ∧ getView t p rDMA_PMEM_ADDR = putFld 0 13 (fld (getView s p rDMA_PMEM_ADDR) 0 13 + 1)) ∧
  (completes (.pmemHiRead p) s fun t =>
    t.out = s.out ++ [.readValue p rDMA_PMEM_HI (mget (fun _ => 0) s.latch (viewKey p rDMA_PMEM_LO))]
      ∧ getView t p rDMA_PMEM_ADDR = putFld 0 13 (fld (getView s p rDMA_PMEM_ADDR) 0 13 + 1))

/-- Emergency messages and signed management messages that pass their checks, and one that does not (drawn from R52–R55, R339,
R456). Each clause: exec answers a next state with the effect given, for every state and operands that meet its hypotheses.
Readings of the model behind the clauses: log entries 20, 21, 26. -/
def Obligations.SignedMessageCommandsComplete : Prop :=
  ∀ s : State, s.tablesWf = true → ∀ (m : Bytes) (rx : Nat), s.crt.restarting = false →
  (∀ path u, emsgArrives path s = some u → s.alp.pathReady = true → emsgReject u m = none → emsgKind m = 1 →
    completes (.emsgDeclare path m rx) s fun t => t = withMarkers (fun _ => applyEmsg path m rx u) s ∧ t.now = s.at_ (rx + 500)) ∧
  (∀ path u, emsgArrives path s = some u → s.alp.pathReady = true → emsgReject u m = none → emsgKind m = 2 →
    completes (.emsgClear path m rx) s fun t => t = withMarkers (fun _ => relayClear path m (applyEmsg path m rx u)) s ∧ t.now = s.now) ∧
  (∀ path u, emsgArrives path s = some u → s.alp.pathReady = true → emsgReject u m = none → emsgKind m = 3 →
    completes (.emsgDrillStart path m rx) s fun t => t = withMarkers (fun _ => applyEmsg path m rx u) s ∧ t.now = s.now) ∧
  (∀ path u, emsgArrives path s = some u → s.alp.pathReady = true → emsgReject u m = none → emsgKind m = 4 →
    completes (.emsgDrillEnd path m rx) s fun t => t = withMarkers (fun _ => applyEmsg path m rx u) s ∧ t.now = s.now) ∧
  (∀ path u r, emsgArrives path s = some u → s.alp.pathReady = true → emsgReject u m = some r → emsgKind m = 1 →
    completes (.emsgDeclare path m rx) s fun t => t.alp.active = s.alp.active ∧ t.alp.state = s.alp.state
      ∧ getReg t rALP_LAST_REJECT = putFld 0 4 r ||| putFld 4 4 (pathCode path) ∧ getCtr t cALP_MSG_REJECT = getCtr u cALP_MSG_REJECT + 1) ∧
  (∀ lp, lp < 4 → isRunning s = true → s.alp.pathReady = true → mgmtRejected s m = false → mgmtKind m = 1 →
    playRefusal (keepMgmtSeq m s) (byteAt m 20) (beAt m 22 2) = none → completes (.mgmtPlay lp m) s fun t =>
      t = acceptPlay (byteAt m 20) (beAt m 22 2) none (keepMgmtSeq m s)) ∧
  (∀ lp, lp < 4 → isRunning s = true → s.alp.pathReady = true → mgmtRejected s m = false → mgmtKind m = 2 →
    stopRefusal (keepMgmtSeq m s) (byteAt m 20) = none → completes (.mgmtPlayStop lp m) s fun t =>
      t = stopPlay (byteAt m 20) (keepMgmtSeq m s)) ∧
  (∀ lp, lp < 4 → isRunning s = true → s.alp.pathReady = true → mgmtRejected s m = false → mgmtKind m = 3 →
    completes (.mgmtReset lp m) s fun t => t = signedReset 7 (mgmtArg m) (keepMgmtSeq m s)) ∧
  (smbAnswers s = true → mgmtRejected s m = false → mgmtKind m = 3 → completes (.mctpSignedReset m) s fun t =>
    t = signedReset 6 (mgmtArg m) (smbRespond [0] (keepMgmtSeq m s)))

/-- The Gondola links (drawn from R355, R359, R361, R362, R364, R377). Each clause: exec answers a next state with the effect
given, for every state and operands that meet its hypotheses. Readings of the model behind the clauses: log entries 3, 36. -/
def Obligations.GondolaLinkCommandsComplete : Prop :=
  ∀ s : State, s.tablesWf = true → ∀ g : Nat,
  (g < 4 → (getLink s g).state = .down → linksAllowed s = true → completes (.peerDetect g) s fun t =>
    getLink t g = { Link.down with state := .training, since := s.now } ∧ t.now = s.now) ∧
  ((getLink s g).state = .training → completes (.trainingLock g) s fun t =>
    t = withMarkers (enterVerify g) (reachTime ((getLink s g).since + 1000000) s) ∧ t.now = s.at_ ((getLink s g).since + 1000000)) ∧
  ((getLink s g).state = .training → completes (.trainingTimeout g) s fun t =>
    t = withMarkers (linkDown g) (reachTime ((getLink s g).since + 20000000) s)) ∧
  (g < 4 → (getLink s g).state = .verify → completes (.verifyTimeout g) s fun t =>
    (getLink t g).state = .held ∧ t.now = s.at_ ((getLink s g).since + 1000000)) ∧
  ((getLink s g).state = .held → linksAllowed s = true → completes (.verifyRetry g) s fun t =>
    t = withMarkers (enterVerify g) (reachTime ((getLink s g).since + 1000000000) s)) ∧
  ((getLink s g).state = .retrain → completes (.retrainTimeout g) s fun t =>
    t = withMarkers (linkDown g) (reachTime ((getLink s g).since + 2000000) s)) ∧
  (g < 4 → (getLink s g).state = .retrain → completes (.retrainRelock g) s fun t =>
    (getLink t g).state = .up ∧ (getLink t g).missed = 0 ∧ t.now = s.at_ ((getLink s g).since + 100000)) ∧
  ((getLink s g).state ≠ .down → completes (.markerLockLoss g) s fun t => t = withMarkers (linkDown g) s) ∧
  (∀ ch, ((getLink s g).state = .up ∨ (getLink s g).state = .verify) → (getChan (getLink s g) ch).replay ≠ [] → completes (.replayTimerExpiry g ch) s fun t =>
    t = withMarkers (replayChannel g ch) (reachTime ((getChan (getLink s g) ch).progressAt + regFld s rCAS_LINK_CFG 0 16) s)) ∧
  (∀ beat, g < 4 → (getLink s g).state ≠ .down → markerGood beat = false → (getLink s g).missed < 7 → completes (.gondolaMarkerRx g beat) s fun t =>
    (getLink t g).missed = (getLink s g).missed + 1 ∧ t.alp = s.alp
      ∧ getCtr t (cCAS_G_MARKER_ERR g) = getCtr s (cCAS_G_MARKER_ERR g) + 1) ∧
  (∀ beat u, g < 4 → (getLink s g).state ≠ .down → markerGood beat = true →
    takeAck g 1 (leAt beat 18 2 % 4096) (nbit (leAt beat 18 2) 12) (takeAck g 0 (leAt beat 5 2 % 4096) (nbit (leAt beat 5 2) 12) s) = u →
    linkCarries (getLink u g) = true → completes (.gondolaMarkerRx g beat) s fun t =>
      t = withMarkers (fun _ => takeSideband g (sidebandOf beat) u) s) ∧
  (∀ beat, g < 4 → (getLink s g).state ≠ .down → markerGood beat = false → 7 ≤ (getLink s g).missed →
    completes (.gondolaMarkerRx g beat) s fun t => t = withMarkers (fun s => linkDown g (incr (cCAS_G_MARKER_ERR g)
      (setLink g { getLink s g with missed := (getLink s g).missed + 1 } s))) s) ∧
  (linksAllowed s = true → completes .topoPeriodicSend s fun t => t = sendTopo false (upLinks s) s)

/-- What the Cascade controller takes from its links, its holds and its slots (drawn from R230, R231, R365–R370, R372, R375). Each
clause: exec answers a next state with the effect given, for every state and operands that meet its hypotheses. Readings of the
model behind the clauses: log entries 21, 36. -/
def Obligations.CascadeCommandsComplete : Prop :=
  ∀ s : State, s.tablesWf = true →
  (∀ g frame r u, receiveLink g 4 frame s = (some r, u) → completes (.topoRx g frame) s fun t =>
    t = withMarkers (fun _ => takeTopo g r.payload u) s) ∧
  (∀ g frame r u, receiveLink g 1 frame s = (some r, u) → completes (.fabricFrameRx g frame) s fun t =>
    t = withMarkers (fun _ => takeFabric g r u) s) ∧
  (∀ g frame, parseLink frame = none → linkCarries (getLink s g) = true → completes (.fabricFrameRx g frame) s fun t =>
    t = withMarkers (fun s => setNak g 1 (setNak g 0 (incr (cCAS_G_CRC_ERR g) s))) s) ∧
  (∀ k d, mfind s.cas.mapHold k = some d → completes (.mapHoldExpiry k) s fun t =>
    ∃ u : State, u.now = s.at_ d ∧ u.cas = { s.cas with mapHold := merase s.cas.mapHold k } ∧ u.alp = s.alp ∧ u.out = s.out
      ∧ t = withMarkers (fun _ => sourcesChanged u.now u) (reachTime d s)) ∧
  (∀ k h, mfind s.cas.tlpHold k = some h → completes (.tlpHoldExpiry k) s fun t => t = forEach (fun f s => forwardTlp f (tlpHash s k) s) h.frames
    { reachTime h.until_ s with cas := { s.cas with tlpHold := merase s.cas.tlpHold k } }) ∧
  (∀ p h, isCrater p = false → s.ident.role = .member → headCid s = some h → completes (.casRemoveReq p) s fun t =>
    t = sendSlot h s.ident.cid 1 s.ident.cid s) ∧
  (∀ p k, isCrater p = false → s.ident.role = .head → completes (.casMemberReset p k) s fun t =>
    t = sendSlot k s.ident.cid (slotBits (getVsw s k) + 32) k s) ∧
  (∀ k v, s.ident.role = .head → k < s.ident.devices → k ≠ s.ident.cid → completes (.slotControlWrite k v) s fun t =>
    (getVsw t k).slotCtl = v ∧ (getVsw t k).attnInd = v.extractLsb' 6 2 ∧ (getVsw t k).pwrInd = v.extractLsb' 8 2
      ∧ (getVsw t k).powerOff = v.getLsbD 10 ∧ (getVsw t k).cmdCompleted = true ∧ t.now = s.now)

/-- Crater's restart and resumption, tamper trips, zeroisation, and clock faults (drawn from R168, R397, R412, R415, R416, R453,
R465). Each clause: exec answers a next state with the effect given, for every state and operands that meet its hypotheses.
Readings of the model behind the clauses: log entries 19, 52. -/
def Obligations.CraterCommandsComplete : Prop :=
  ∀ s : State, s.tablesWf = true →
  (isRunning s = true → completes .craterWatchdogExpiry s fun t =>
    t.crt.restarting = true ∧ t.crt.restartCause = 1 ∧ t.crt.restartAt = s.now ∧ getCtr t cCRT_RESTARTS = getCtr s cCRT_RESTARTS + 1) ∧
  (isRunning s = true → completes .lockstepMismatch s fun t =>
    t.crt.restarting = true ∧ t.crt.restartCause = 2 ∧ t.crt.restartAt = s.now ∧ getCtr t cCRT_RESTARTS = getCtr s cCRT_RESTARTS + 1) ∧
  (isRunning s = true → completes .doubleTrap s fun t =>
    t.crt.restarting = true ∧ t.crt.restartCause = 3 ∧ t.crt.restartAt = s.now ∧ getCtr t cCRT_RESTARTS = getCtr s cCRT_RESTARTS + 1) ∧
  (∀ u, s.crt.restarting = true → isRunning s = true → reachTime (s.crt.restartAt + 5000000) s = u →
    completes .craterResume s fun t => t = withMarkers (fun s => releaseMessages (if s.alp.pathReady then resumeAlarm s else s))
      (resumeKeyJobs (signalOnce rCRT_EVENT rCRT_EVENT_MASK
        (fun s => reportKeyop { bootSteps s with crt := { (bootSteps s).crt with restarting := false } }) u))) ∧
  (∀ n, n < 5 → s.pcr.phase ≠ .off → s.crt.live.getLsbD n = false → completes (.tamperTripCondition n true) s fun t =>
    t.crt.live.getLsbD n = true ∧ mfind t.crt.liveSince n = some s.now ∧ ∀ k, k ≠ n → t.crt.live.getLsbD k = s.crt.live.getLsbD k) ∧
  (∀ n, n < 5 → s.pcr.phase ≠ .off → s.crt.live.getLsbD n = true → completes (.tamperTripCondition n false) s fun t =>
    t.crt.live.getLsbD n = false ∧ mfind t.crt.liveSince n = none ∧ ∀ k, k ≠ n → t.crt.live.getLsbD k = s.crt.live.getLsbD k) ∧
  (∀ d, earliest (tripsDue s) = some d → isRunning s = true → completes .tamperAccept s fun t =>
    t.crt.sec = .zeroised ∧ t.crt.ret.zeroisePending = true ∧ t.crt.seed = none ∧ t.cph.slots = [] ∧ t.now = s.at_ d) ∧
  (∀ d, earliest (tripsDue s) = some d → isRunning s = false → completes .tamperAccept s fun t => ∃ u : State, t = wakeDevice .tamper u
    ∧ u.crt.sec = .zeroised ∧ u.crt.ret.zeroisePending = true ∧ u.crt.seed = none ∧ u.now = s.at_ d) ∧
  (isRunning s = true → s.crt.ret.zeroisePending = true → completes .zeroiseComplete s fun t => t = fullReset 11 (overwriteStore s)) ∧
  (∀ n, isRunning s = true → islandPowered s n = true → n ≠ 99 → completes (.islandClockFault n) s fun t =>
    t = fullReset 15 { s with pcr := { s.pcr with clkFault := [n] } }) ∧
  (isRunning s = true → islandPowered s 99 = true → completes (.islandClockFault 99) s fun t => t.crt.live.getLsbD 3 = true)

/-- The scrubber, NVM line writes and owed moves (drawn from R469–R473, R475). Each clause: exec answers a next state with the
effect given, for every state and operands that meet its hypotheses. Readings of the model behind the clauses: log entries 38. -/
def Obligations.MemoryCommandsComplete : Prop :=
  ∀ s : State, s.tablesWf = true →
  (∀ addr ecc c, hbmPowered s = true → backgroundRuns s = true → completes (.scrubLineRead addr ecc c) s fun t =>
    t = scrubAdvance (hbmRead ecc true addr s) ∧ t.now = s.now) ∧
  (hbmPowered s = true → backgroundRuns s = true → s.mem.raised = false → completes .scrubSegmentDue s fun t =>
    t.mem = { s.mem with raised := true } ∧ t.now = s.at_ (s.mem.passStart + 60000000000 * (s.mem.segment + 1))) ∧
  (∀ p line n, line < partitionLines p → n < 3 → completes (.nvmLineWrite p line n) s fun t =>
    mget zeroCount t.mem.lineWrites (partitionNumber p * 2 ^ 32 + line) = mget zeroCount s.mem.lineWrites (partitionNumber p * 2 ^ 32 + line) + 1
      ∧ t.mem.spare = s.mem.spare ∧ getCtr t cMEM_NVM_WRITES = getCtr s cMEM_NVM_WRITES + 1) ∧
  (∀ p line n, line < partitionLines p → 3 ≤ n → completes (.nvmLineWrite p line n) s fun t =>
    mget zeroCount t.mem.lineWrites (partitionNumber p * 2 ^ 32 + line) = 0 ∧ t.mem.spare = s.mem.spare - 1
      ∧ mget zeroCount t.mem.retired (partitionNumber p * 2 ^ 32 + line) = mget zeroCount s.mem.retired (partitionNumber p * 2 ^ 32 + line) + 1
      ∧ getCtr t cMEM_NVM_RETIRED = getCtr s cMEM_NVM_RETIRED + 1) ∧
  (∀ k n rest, s.mem.owed = (k, n) :: rest → backgroundRuns s = true → completes .owedMoveTick s fun t =>
    mget zeroCount t.mem.owed k = n - 1 ∧ getCtr t cMEM_NVM_MOVES = getCtr s cMEM_NVM_MOVES + 1
      ∧ t.now = s.at_ s.mem.owedNext ∧ t.mem.owedNext = t.now + 1000000)

/-- The update of the other image bank through the registers (drawn from R429–R437, R444–R446). Each clause: exec answers a next
state with the effect given, for every state and operands that meet its hypotheses. Readings of the model behind the clauses: log
entries 54. -/
def Obligations.ImageUpdateCommandsComplete : Prop :=
  ∀ s : State, s.tablesWf = true → ∀ p : Party,
  (∀ src len, isPf p = true → isRunning s = true → s.img.job = none → activationPending s = false →
    src = (getReg64 s rPCR_IMG_SRC_LO).toNat / 4096 * 4096 → len = regFld s rPCR_IMG_LEN 0 27 → 4352 ≤ len → len ≤ bankSize →
    src + len ≤ devbufSize s → completes (.imgWrite p) s fun t =>
      t.img = { s.img with job := some (.checkStaged src len), jobFrom := s.now, done := 0, abort := false } ∧ getReg t rPCR_IMG_CTL = 0
        ∧ t.mem.banks = s.mem.banks) ∧
  (∀ src len e, s.img.job = some (.checkStaged src len) → imgHeld s = false → s.img.abort = false →
    imageFault s len (stagedImage s src) = e → completes .imgStagedChecked s fun t =>
      t.mem.banks = s.mem.banks ∧ t.now = s.at_ (s.img.jobFrom + 1000000) ∧ match e with
      | none => t.img.job = some (.pages src len 0) ∧ t.img.other = .writing
      | some f => t.img.job = none ∧ t.img.other = s.img.other ∧ fld (getReg t rPCR_IMG_CTL) 24 3 = 4
          ∧ t.img.failReason = BitVec.ofNat 8 f.reason) ∧
  (∀ src len n, s.img.job = some (.pages src len n) → s.img.abort = false → imgHeld s = false → n + 4096 < len →
    completes .imgPageWrite s fun t => t.img.job = some (.pages src len (n + 4096)) ∧ t.img.done = n + 4096
      ∧ t.mem.banks = storeBytes s.mem.banks (bankBase (!s.img.runB) + n) (devbufLoad s (src + n) 4096)) ∧
  (∀ src len n, s.img.job = some (.pages src len n) → s.img.abort = false → imgHeld s = false → n < len → len ≤ n + 4096 →
    completes .imgPageWrite s fun t => t.img.job = some (.readBack src len) ∧ t.img.other = .checking ∧ t.img.done = len
      ∧ t.mem.banks = storeBytes s.mem.banks (bankBase (!s.img.runB) + n) (devbufLoad s (src + n) (len - n))) ∧
  (∀ src len n, s.img.job = some (.pages src len n) → imgHeld s = false → s.img.abort = true → completes .imgPageWrite s fun t =>
    t.img.job = none ∧ t.img.other = .failed ∧ t.img.abort = false ∧ t.mem.banks = s.mem.banks) ∧
  (isPf p = true → isRunning s = true → s.img.job = none → completes (.imgVerify p) s fun t =>
    t.img.job = some (.readBack 0 0) ∧ t.img.other = .checking ∧ getReg t rPCR_IMG_CTL = 0) ∧
  (∀ src len e, s.img.job = some (.readBack src len) → imgHeld s = false → bankFault s (!s.img.runB) = e →
    completes .imgVerifyDone s fun t => t.img.job = none ∧ t.now = s.at_ (s.img.jobFrom + 1000000) ∧ match e with
      | none => bankBytes s (!s.img.runB) 0 len = stagedImage s src 0 len → t.img.other = .verified ∧ getReg t rPCR_IMG_CTL = 0
          ∧ t.img.otherVer = BitVec.ofNat 64 (leAt (bankBytes s (!s.img.runB) 8 8) 0 8)
      | some _ => t.img.other = .failed ∧ fld (getReg t rPCR_IMG_CTL) 24 3 = 4) ∧
  (isPf p = true → isRunning s = true → imgHeld s = false → s.img.other = .verified → completes (.imgActivate p) s fun t =>
    t = setImgErr 0 (writeSelector (!s.img.runB) true false (lineNow s).svnMin s)) ∧
  (isPf p = true → isRunning s = true → imgHeld s = false → completes (.imgDeactivate p) s fun t =>
    t = setImgErr 0 (writeSelector s.img.runB false false (lineNow s).svnMin s)) ∧
  (isPf p = true → isRunning s = true → (lineNow s).trial = true → s.pcr.fullOp = true → (lineNow s).activeB = s.img.runB →
    completes (.imgConfirm p) s fun t => t = evImg 3 (setImgErr 0 (writeSelector (lineNow s).activeB false false
      (if (lineNow s).svnMin.toNat < s.img.svnFloor.toNat then s.img.svnFloor else (lineNow s).svnMin) s))) ∧
  (∀ src len n, isPf p = true → isRunning s = true → s.img.job = some (.pages src len n) → completes (.imgAbort p) s fun t =>
    t.img = { s.img with abort := true } ∧ getReg t rPCR_IMG_CTL = 0)

/-- The recovery of an image bank over SMBus (drawn from R445–R447, R458). Each clause: exec answers a next state with the effect
given, for every state and operands that meet its hypotheses. Readings of the model behind the clauses: log entries 54. -/
def Obligations.RecoveryCommandsComplete : Prop :=
  ∀ s : State, s.tablesWf = true → smbAnswers s = true → s.pcr.recoveryHold = true ∨ s.pcr.refuge = true →
  (∀ bank len, bank ≤ 1 → 4352 ≤ len → len ≤ bankSize → (s.pcr.recoveryHold = true ∨
      (decide (bank = 1) ≠ s.img.runB ∧ activationPending s = false)) → completes (.recBegin bank len) s fun t =>
    t.img.rec_ = some { bankB := decide (bank = 1), len := len, got := 0 } ∧ t.img.other = .writing ∧ t.out = s.out ++ [.smbus [0]]) ∧
  (∀ r bs, s.img.rec_ = some r → 0 < bs.length → bs.length ≤ 48 → r.got + bs.length ≤ r.len → s.img.other = .writing →
    completes (.recData r.got bs) s fun t => t.mem.banks = storeBytes s.mem.banks (bankBase r.bankB + r.got) bs
      ∧ t.img.rec_ = some { r with got := r.got + bs.length } ∧ t.out = s.out ++ [.smbus [0]]) ∧
  (∀ r off bs, s.img.rec_ = some r → off ≠ r.got → completes (.recData off bs) s fun t =>
    t.mem = s.mem ∧ t.img = s.img ∧ t.out = s.out ++ [.smbus [1]]) ∧
  (∀ r e, s.img.rec_ = some r → r.got = r.len → imageFault s r.len (bankBytes s r.bankB) = e → completes .recFinish s fun t =>
    t.mem = s.mem ∧ match e with
      | none => t.img.other = .verified ∧ t.img.otherVer = BitVec.ofNat 64 (leAt (bankBytes s r.bankB 8 8) 0 8)
      | some f => t.img.other = .failed ∧ t.img.failReason = BitVec.ofNat 8 f.reason) ∧
  (∀ r u, s.img.rec_ = some r → imgHeld s = false → s.img.other = .verified → s.pcr.recoveryHold = true →
    writeSelector r.bankB true false (lineNow s).svnMin s = u → completes .recActivate s fun t =>
      t = recoveryRestart (smbRespond [0] { u with pcr := { u.pcr with startFails := 0 } })) ∧
  (∀ r u, s.img.rec_ = some r → imgHeld s = false → s.img.other = .verified → s.pcr.recoveryHold = false →
    writeSelector r.bankB true false (lineNow s).svnMin s = u → completes .recActivate s fun t =>
      t = smbRespond [0] { u with pcr := { u.pcr with startFails := 0 } }) ∧
  (∀ w, computedValue .crater rPCR_IMG_STATUS s = some w → completes .recStatus s fun t =>
    t.out = s.out ++ [.smbus ([0] ++ toLe 4 w.toNat ++ toLe 4 ((s.img.rec_.map (fun r => r.got)).getD 0))] ∧ t.img = s.img)

/-- The sweeps, tokens and frames of the Drevin loops (drawn from R328–R335, R340–R347). Each clause: exec answers a next state
with the effect given, for every state and operands that meet its hypotheses. Readings of the model behind the clauses: log
entries 45, 46. -/
def Obligations.LoopFrameCommandsComplete : Prop :=
  ∀ s : State, s.tablesWf = true → ∀ (lp : Nat) (west : Bool), loopRuns s lp = true →
  (∀ u no, (getLoop s lp).sourcing = true → endCycle lp (reachTime (nextBoundary s lp).1 s) = u → nextCycleNo s lp (nextBoundary s lp).2 = no →
    completes (.loopCycleStart lp) s fun t => t = assertLine (32 + lp) (incr (cLOOP_LOOP_CYCLES lp) (masterShare lp
      (sendSweeps lp (nextBoundary s lp).2 (setReg (rLOOP_CYCLE lp) (BitVec.ofNat 32 no)
        (setLoop lp { getLoop u lp with cycleAt := some u.now, cycleNo := no } u)))))) ∧
  (∀ f r, ((getLoop s lp).side west).lock = true → sweepGood f = true → (getLoop s lp).sourcing = false → loopAborted f = false →
    memberSweep lp west f (cutOwn lp ((getLoop s lp).outLane west) s) = r →
    completes (.sweepRx lp west f) s fun t => t = passOn lp west r.1 (setWrapped r.1) r.2) ∧
  (∀ f, ((getLoop s lp).side west).lock = true → sweepGood f = true → (getLoop s lp).sourcing = true →
    loopAborted f = false → (sweepTuple f).serial ≠ Config.serial.toNat → completes (.sweepRx lp west f) s fun t => t = masterConflict lp f s) ∧
  (∀ f, ((getLoop s lp).side west).lock = true → sweepGood f = false → (getLoop s lp).sourcing = true → loopAborted f = false →
    completes (.sweepRx lp west f) s fun t => getCtr t (cLOOP_CRC_ERR lp) = getCtr s (cLOOP_CRC_ERR lp) + 1 ∧ t.loops = s.loops) ∧
  (∀ f d y x, (getLoop s lp).sourcing = true → loopAborted f = false → sweepGood f = true → sweepTuple f = ownTuple s lp →
    (getLoop s lp).side (nbit (byteAt (sweepHeader f) 1) 0) = y → y.sentAt = some d → beAt (sweepHeader f) 4 2 = (getLoop s lp).cycleNo →
    s.now < d + cycleLen s lp → x = { getLoop s lp with breakSeen := (getLoop s lp).breakSeen || nbit (byteAt (sweepHeader f) 1) 1 } →
    completes (.sweepReturn lp west f) s fun t => t = forEach (takeAnswer lp (nbit (byteAt (sweepHeader f) 1) 0) f)
      (span 1 (min (loopNodes s lp) (beAt (sweepHeader f) 6 2 % 1024)))
      (setReg (if nbit (byteAt (sweepHeader f) 1) 0 then rLOOP_RING_W lp else rLOOP_RING_E lp) (putFld 0 20 (s.now - d))
        (setLoop lp (x.withSide (nbit (byteAt (sweepHeader f) 1) 0) { y with returned := some (nbit (byteAt (sweepHeader f) 1) 1) }) s))) ∧
  (((getLoop s lp).side west).lock = true → (getLoop s lp).sourcing = true → completes (.tokenRx lp west) s fun t =>
    getLoop t lp = { getLoop s lp with tokenOut := (getLoop s lp).tokenOut - 1 } ∧ t.out = s.out) ∧
  (((getLoop s lp).side west).lock = true → (getLoop s lp).sourcing = false → (getLoop s lp).txQueue = [] →
    ((getLoop s lp).side (!west)).lost = false → completes (.tokenRx lp west) s fun t =>
      t.out = s.out ++ [.loopSet lp (sideNo (!west)) 2 (sideNo (!west))] ∧ (getLoop t lp).txQueue = []) ∧
  (∀ fs rest c x, ((getLoop s lp).side west).lock = true → (getLoop s lp).sourcing = false → loopRole s lp ≠ 2 →
    takeShare (regFld s (rLOOP_BUDGET lp) 0 16) (getLoop s lp).txQueue = (fs, rest) → (getLoop s lp).cycleAt = some c →
    inTime (100 * (c + cycleLen s lp - 1000 - s.now)) fs = fs → ((getLoop s lp).side (!west)).lost = false →
    { getLoop s lp with txQueue := (getLoop s lp).txQueue.drop fs.length } = x →
    completes (.tokenRx lp west) s fun t => t = emit (.loopSet lp (sideNo (!west)) 2 (sideNo (!west))) (sendLoopFrames lp (!west) fs
      (setLoop lp (x.withSide (!west) { x.side (!west) with ownUntil := s.now + ceilDiv ((fs.map loopFrameTime).foldl (· + ·) 0) 100 }) s))) ∧
  (∀ f, ((getLoop s lp).side west).lock = true → byteAt f 1 = 3 → loopAborted f = false → loopFrameGood f = true →
    beAt f 10 2 % 1024 ≠ loopAddr s lp → loopMatches s lp (beAt f 8 2) = true → nbit (beAt f 8 2) 15 = false →
    completes (.loopFrameRx lp west f) s fun t => t = handleLoopFrame lp f (incr (cLOOP_FRAMES_RX lp) s)) ∧
  (∀ f, ((getLoop s lp).side west).lock = true → byteAt f 1 = 3 → loopAborted f = false → loopFrameGood f = true →
    beAt f 10 2 % 1024 ≠ loopAddr s lp → loopMatches s lp (beAt f 8 2) = false → (getLoop s lp).sourcing = false →
    completes (.loopFrameRx lp west f) s fun t => t = passOn lp west f f s) ∧
  (∀ f, ((getLoop s lp).side west).lock = true → loopAborted f = true →
    completes (.sweepRx lp west f) s fun t => t = if (getLoop s lp).sourcing then s else passOn lp west f f s)

/-- Sides, breaks, delays and tables of the Drevin loops (drawn from R333, R334, R340, R344, R346, R347, R349). Each clause: exec
answers a next state with the effect given, for every state and operands that meet its hypotheses. Readings of the model behind
the clauses: log entries 3, 46. -/
def Obligations.LoopPortCommandsComplete : Prop :=
  ∀ s : State, s.tablesWf = true → ∀ (lp : Nat) (west : Bool), loopRuns s lp = true →
  (∀ n, n ≤ 1023 → ((getLoop s lp).side west).lost = false → completes (.breakRx lp west n) s fun t =>
    (getLoop t lp).side west = { (getLoop s lp).side west with breakAt := some s.now, lost := true }
      ∧ (getLoop t lp).side (!west) = (getLoop s lp).side (!west) ∧ getCtr t (cLOOP_WRAPS lp) = getCtr s (cLOOP_WRAPS lp) + 1) ∧
  (((getLoop s lp).side west).lock = true → ((getLoop s lp).side west).lost = false → completes (.loopLockLoss lp west) s fun t =>
    (getLoop t lp).side west = { (getLoop s lp).side west with lock := false, lost := true }
      ∧ getCtr t (cLOOP_WRAPS lp) = getCtr s (cLOOP_WRAPS lp) + 1) ∧
  (((getLoop s lp).side west).lock = false → completes (.blockLockRegained lp west) s fun t =>
    (getLoop t lp).side west = { (getLoop s lp).side west with lock := true, lockSince := s.now }) ∧
  (((getLoop s lp).side west).lock = true → ((getLoop s lp).side west).lost = true → completes (.loopUnwrap lp west) s fun t =>
    (getLoop t lp).side west = { (getLoop s lp).side west with lost := false, breakAt := none }
      ∧ t.now = s.at_ (max ((getLoop s lp).side west).lockSince (((getLoop s lp).side west).breakAt.getD 0) + 10000000)) ∧
  (∀ p v, isCrater p = false → bit v 0 = true → completes (.loopWakeSend p lp v) s fun t =>
    (getLoop t lp).wakeUntil = some (max (s.now + 1000000) ((getLoop s lp).wakeUntil.getD 0)) ∧ (getLoop t lp).wakeReason = fld v 1 4) ∧
  (∀ d, (getLoop s lp).wakeUntil = some d → completes (.wakeSignallingEnd lp) s fun t =>
    (getLoop t lp).wakeUntil = none ∧ t.now = s.at_ d) ∧
  (((getLoop s lp).side west).lock = true → ((getLoop s lp).side west).lost = false → completes (.pdMeasure lp west) s fun t =>
    t.now = s.at_ ((getLoop s lp).side west).pdNext
      ∧ t.out = s.out ++ [.loopSet lp (sideNo west) 8 ((((getLoop s lp).side west).pdSeq + 1) % 256)]
      ∧ ((getLoop t lp).side west).pdSentAt = some t.now) ∧
  (∀ n, ((getLoop s lp).side west).lost = false → completes (.pdReqRx lp west n) s fun t =>
    t = emit (.loopSet lp (sideNo west) 9 (n % 256 + 256 * ((Config.freeDWord (takeFree s).1).toNat % 2 ^ 40))) (takeFree s).2) ∧
  (∀ n d, ((getLoop s lp).side west).pdSentAt = some d → n = ((getLoop s lp).side west).pdSeq → ∀ turn,
    completes (.pdRespRx lp west n turn) s fun t => (getLoop t lp).side west =
      { (getLoop s lp).side west with pdSentAt := none, delay := ((s.now - d) * 65536 - turn * 65536 / 1000) / 2 }) ∧
  (loopRole s lp = 0 → (getLoop s lp).sourcing = false → completes (.masterListenTimeout lp) s fun t =>
    (getLoop t lp).sourcing = true
      ∧ t.now = s.at_ ((getLoop s lp).listenFrom + 3 * cycleLen s lp + 1000 * (255 - regFld s (rLOOP_CFG lp) 14 8))
      ∧ getReg t (rLOOP_EPOCH lp) = BitVec.ofNat 32
        (1 + max (mget (fun _ => 0) s.crt.ret.loopEpochs lp).toNat (getReg s (rLOOP_EPOCH lp)).toNat)) ∧
  (∀ p, completes (.loopIndRead p lp) s fun t => t = showReply p (rLOOP_IND_CTL lp) (rLOOP_IND_DATA0 lp) 8 .read
    (loopRead lp (fld (getView s p (rLOOP_IND_ADDR lp)) 16 3) (fld (getView s p (rLOOP_IND_ADDR lp)) 0 12) s).1
    (loopRead lp (fld (getView s p (rLOOP_IND_ADDR lp)) 16 3) (fld (getView s p (rLOOP_IND_ADDR lp)) 0 12) s).2) ∧
  (∀ p, fld (getView s p (rLOOP_IND_ADDR lp)) 16 3 = 2 → completes (.loopIndWrite p lp) s fun t =>
    (getLoop t lp).staged = slice (viewBytes s p (rLOOP_IND_DATA0 lp) 8) 8 16 ∧ bit (getView t p (rLOOP_IND_CTL lp)) 30 = false)

/-- Mailboxes, doorbells and the SMBus port (drawn from R420–R427, R517, R532). Each clause: exec answers a next state with the
effect given, for every state and operands that meet its hypotheses. Readings of the model behind the clauses: log entries 26. -/
def Obligations.MailboxCommandsComplete : Prop :=
  ∀ s : State, s.tablesWf = true → ∀ (p : Party) (ch : Nat),
  (∀ hi, ch < 32 → endOf p = mbxSender ch → (getMbx s ch).full = false → completes (.mbxWordCommit p ch hi) s fun t =>
    getMbx t ch = { getMbx s ch with word := join64 hi (getMbx s ch).loNear, full := true }
      ∧ getCtr t cMBX_MSGS = getCtr s cMBX_MSGS + 1) ∧
  (∀ hi, ch < 32 → endOf p = mbxSender ch → (getMbx s ch).full = true → completes (.mbxWordCommit p ch hi) s fun t =>
    getMbx t ch = { getMbx s ch with err := true } ∧ getCtr t cMBX_OVERRUN = getCtr s cMBX_OVERRUN + 1) ∧
  (∀ hi, isSecure ch = true → endOf p = secureParty ch → (getMbx s ch).full = false → (getMbx s ch).turn = false →
    completes (.mbxWordCommit p ch hi) s fun t =>
      getMbx t ch = { getMbx s ch with word := join64 hi (getMbx s ch).loNear, full := true, turn := true }
        ∧ t.mbx.requests = s.mbx.requests ++ [ch]) ∧
  (ch < 32 → endOf p = mbxReceiver ch → (getMbx s ch).full = true → completes (.mbxRelease p ch) s fun t =>
    getMbx t ch = { getMbx s ch with full := false, empty := true } ∧ ∀ k, k ≠ ch → getMbx t k = getMbx s k) ∧
  (isSecure ch = true → endOf p = secureParty ch → holdsAnswer s ch = true → completes (.mbxRelease p ch) s fun t =>
    getMbx t ch = { getMbx s ch with full := false, turn := false }) ∧
  (∀ v, ch < 32 → endOf p = mbxSender ch → completes (.mbxDbSet p ch v) s fun t =>
    getMbx t ch = { getMbx s ch with db := (getMbx s ch).db ||| v }) ∧
  (∀ v, ch < 32 → endOf p = mbxReceiver ch → completes (.mbxDbMaskWrite p ch v) s fun t =>
    getMbx t ch = { getMbx s ch with dbMask := v }) ∧
  (ch < 32 → endOf p = mbxSender ch → completes (.emptyEnWrite p ch) s fun t => getMbx t ch = { getMbx s ch with emptyEn := true }) ∧
  (∀ w, smbAnswers s = true → (getMbx s 38).full = false → (getMbx s 38).turn = false → completes (.mctpWrite w) s fun t =>
    (getMbx t 38).word = w ∧ (getMbx t 38).full = true ∧ (getMbx t 38).turn = true ∧ t.mbx.requests = s.mbx.requests ++ [38]
      ∧ t.out = s.out ++ [.smbus [0]]) ∧
  (smbAnswers s = true → completes .mctpRead s fun t => getMbx t 38 = { getMbx s 38 with empty := false }
    ∧ t.out = s.out ++ [.smbus ([0, BitVec.ofNat 8 ((if (getMbx s 38).full then 1 else 0) + (if (getMbx s 38).turn then 2 else 0)
      + (if (getMbx s 38).empty then 4 else 0))] ++ toLe 8 (getMbx s 38).word.toNat)]) ∧
  (smbAnswers s = true → holdsAnswer s 38 = true → completes .mctpRelease s fun t =>
    getMbx t 38 = { getMbx s 38 with full := false, turn := false } ∧ t.out = s.out ++ [.smbus [0]]) ∧
  (smbAnswers s = true → completes .smbErrsrcRead s fun t =>
    t.mbx.smbErrsrc = 0 ∧ t.out = s.out ++ [.smbus [0, s.mbx.smbErrsrc]]) ∧
  (∀ bs, s.mbx.smbResponse = some bs → s.mbx.smbRetries < 3 → completes .smbArbitrationLost s fun t =>
    t.out = s.out ++ [.smbus bs] ∧ t.mbx.smbRetries = s.mbx.smbRetries + 1 ∧ t.mbx.smbErrsrc = s.mbx.smbErrsrc ||| 1) ∧
  (∀ bs, s.mbx.smbResponse = some bs → 3 ≤ s.mbx.smbRetries → completes .smbArbitrationLost s fun t =>
    t.out = s.out ∧ t.mbx.smbResponse = none ∧ t.mbx.smbErrsrc = s.mbx.smbErrsrc ||| 3) ∧
  (smbAnswers s = true → completes .smbSclTimeout s fun t =>
    t.mbx.smbResponse = none ∧ t.mbx.smbErrsrc = s.mbx.smbErrsrc ||| 4 ∧ t.out = s.out)

/-- Power requests and transitions, the wakes from P3, and the thermal monitor (drawn from R321, R349, R460–R464). Each clause:
exec answers a next state with the effect given, for every state and operands that meet its hypotheses. Readings of the model
behind the clauses: log entries 3, 51. -/
def Obligations.PowerCommandsComplete : Prop :=
  ∀ s : State, s.tablesWf = true →
  (∀ p, isPf p = true → isRunning s = true → powerRefusal s .p0 = 0 → s.pcr.fullOp = true → s.pcr.target = none →
    completes (.pwrCtlP0 p) s fun t => t.pcr = { s.pcr with target := some .p0, targetFrom := s.now } ∧ getReg t rPCR_PWR_CTL = 0) ∧
  (∀ p, isPf p = true → isRunning s = true → powerRefusal s .p1 = 0 → s.pcr.fullOp = true → s.pcr.target = none →
    completes (.pwrCtlP1 p) s fun t => t.pcr = { s.pcr with target := some .p1, targetFrom := s.now } ∧ getReg t rPCR_PWR_CTL = 0) ∧
  (∀ p, isPf p = true → isRunning s = true → powerRefusal s .p2 = 0 → s.pcr.fullOp = true → s.pcr.target = none →
    completes (.pwrCtlP2 p) s fun t => t.pcr = { s.pcr with target := some .p2, targetFrom := s.now } ∧ getReg t rPCR_PWR_CTL = 0) ∧
  (∀ p, isPf p = true → isRunning s = true → powerRefusal s .p3 = 0 → s.pcr.fullOp = true → s.pcr.target = none →
    completes (.pwrCtlP3 p) s fun t => t.pcr = { s.pcr with target := some .p3, targetFrom := s.now } ∧ getReg t rPCR_PWR_CTL = 0) ∧
  (∀ p, isPf p = true → isRunning s = true → s.alp.state ≠ .normal → completes (.pwrCtlP3 p) s fun t =>
    t.pcr = s.pcr ∧ fld (getReg t rPCR_PWR_CTL) 24 3 = 5 ∧ bit (getReg t rPCR_PWR_CTL) 30 = true) ∧
  (∀ n x, smbAnswers s = true → powerOf n = some x → powerRefusal s x = 0 → s.pcr.fullOp = true → s.pcr.target = none →
    completes (.mctpPowerState n) s fun t => t.pcr = { s.pcr with target := some x, targetFrom := s.now } ∧ t.out = s.out ++ [.smbus [0]]) ∧
  (∀ n x, smbAnswers s = true → powerOf n = some x → powerRefusal s x = 0 → s.pcr.fullOp = false →
    completes (.mctpPowerState n) s fun t => t.pcr = { s.pcr with queued := some x } ∧ t.out = s.out ++ [.smbus [0]]) ∧
  (∀ x, isRunning s = true → s.pcr.target = some x → x ≠ .p3 → s.pcr.queued = none → completes .powerTransitionDone s fun t =>
    t.pcr = { s.pcr with power := x, target := none } ∧ t.now = s.at_ (s.pcr.targetFrom + transitionTime s.pcr.power x)) ∧
  (isRunning s = true → s.pcr.target = some .p3 → completes .powerTransitionDone s fun t =>
    t.pcr.power = .p3 ∧ t.pcr.phase = .held ∧ t.pcr.target = none ∧ t.now = s.at_ (s.pcr.targetFrom + transitionTime s.pcr.power .p3)) ∧
  (∀ src, s.pcr.power = .p3 → s.pcr.phase = .held → s.pcr.wakeFrom = none → suppliesGood s = false → completes (.p3Wake src) s fun t =>
    t.pcr.wakeFrom = some src ∧ t.pcr.wakeOutLow = true ∧ t.pcr.phase = .held ∧ t.pcr.cause = 16) ∧
  (∀ src, s.pcr.power = .p3 → s.pcr.phase = .held → s.pcr.wakeFrom = none → suppliesGood s = true → completes (.p3Wake src) s fun t =>
    t.pcr.phase = .running ∧ t.pcr.cause = 16 ∧ t.pcr.power = .p0 ∧ t.pcr.startAt = s.now) ∧
  (∀ f mac, s.pcr.power = .p3 → s.pcr.phase = .held → s.pcr.wakeFrom = none → f.fcsGood = true →
    mac = ((mfind (getPort s 0).stations 0).map (fun (a : Station) => a.mac.toNat)).getD 0 → beAt f.bytes 0 6 = mac →
    bit (getReg s rETH_WAKE_CFG) 0 = true → bit (getReg s rETH_WAKE_CFG) 1 = false → hasPattern (magicBytes mac) (f.bytes.take 512) = true →
    completes (.wakePatternRx f) s fun t =>
      t = wakeDevice .ethernet (setReg rETH_WAKE_STATUS (setFld (setFld (getReg s rETH_WAKE_STATUS) 0 1 1) 1 1 0) s)) ∧
  (∀ lp west n r, lp < 4 → s.pcr.power = .p3 → s.pcr.phase = .held → s.pcr.wakeFrom = none → (getLoop s lp).on = true →
    completes (.wakeRx lp west n r) s fun t =>
      t = wakeDevice (.loop lp) (setReg (rLOOP_WAKE lp) (putFld 16 10 n ||| putFld 26 4 r ||| putBit 31 true) s)) ∧
  (∀ c : Int, s.pcr.phase ≠ .off → c < 105 → completes (.thermalSample c) s fun t =>
    t.pcr.tempC = c ∧ t.pcr.thermHold = s.pcr.thermHold ∧ t.pcr.thermCrit = false ∧ t.pcr.phase = s.pcr.phase
      ∧ t.pcr.coolFrom = if c < 100 then some (s.pcr.coolFrom.getD s.now) else none) ∧
  (∀ c : Int, s.pcr.phase ≠ .off → 105 ≤ c → c < 120 → completes (.thermalSample c) s fun t =>
    t.pcr.tempC = c ∧ t.pcr.thermHold = true ∧ t.pcr.coolFrom = none ∧ t.pcr.phase = s.pcr.phase ∧ t.pcr.thermCrit = decide (115 ≤ c)) ∧
  (∀ c : Int, isRunning s = true → 120 ≤ c → completes (.thermalSample c) s fun t => t.pcr.phase = .held ∧ t.pcr.cause = 10) ∧
  (∀ d, s.pcr.coolFrom = some d → s.pcr.thermHold = true → completes .thermalHoldEnd s fun t =>
    t.pcr.thermHold = false ∧ t.now = s.at_ (d + 10000000000)) ∧
  (∀ d, s.pcr.coolFrom = some d → s.pcr.phase = .held → s.pcr.cause = 10 → suppliesGood s = true → s.pcr.power ≠ .p3 →
    completes .thermalTripRelease s fun t => t.pcr.phase = .running ∧ t.pcr.thermHold = false ∧ t.pcr.startAt = s.at_ (d + 10000000000))

/-- The resets, the supplies and the PCI Express link (drawn from R215, R216, R393, R449–R454). Each clause: exec answers a next
state with the effect given, for every state and operands that meet its hypotheses. Readings of the model behind the clauses: log
entries 17, 19. -/
def Obligations.ResetCommandsComplete : Prop :=
  ∀ s : State, s.tablesWf = true →
  (∀ p, isPf p = true → isRunning s = true → completes (.swresetFull p 0x6400) s fun t =>
    t.pcr.phase = .held ∧ t.pcr.cause = 12 ∧ t.pcr.prevCause = s.pcr.cause ∧ t.pcr.releaseAt = some (s.now + 1002000) ∧ t.now = s.now + 2000) ∧
  (∀ p, isPf p = true → isRunning s = true → completes (.swresetService p 0x6400) s fun t =>
    t = serviceReset 13 s ∧ t.pcr.phase = .running ∧ t.pcr.cause = 13) ∧
  (∀ d, s.pcr.releaseAt = some d → s.pcr.phase = .held → suppliesGood s = true → s.pcr.power ≠ .p3 → completes .resetRelease s fun t =>
    t.pcr.phase = .running ∧ t.pcr.releaseAt = none ∧ t.pcr.startAt = s.at_ d ∧ t.now = s.at_ d) ∧
  (s.pcr.vin12 = false → s.pcr.phase = .held → s.pcr.vaux33 = true → s.pcr.releaseAt = none → s.pcr.cause ≠ 10 → s.pcr.power ≠ .p3 →
    completes .vin12Good s fun t => t.pcr.phase = .running ∧ t.pcr.vin12 = true ∧ t.pcr.startAt = s.now) ∧
  (s.pcr.vin12 = true → isRunning s = true → completes .vin12Lost s fun t =>
    t.pcr.vin12 = false ∧ t.pcr.phase = .held ∧ t.pcr.cause = 1 ∧ t.pcr.releaseAt = none ∧ t.now = s.now) ∧
  (s.pcr.vaux33 = false → s.pcr.vin12 = false → completes .vaux33Good s fun t =>
    t.pcr.vaux33 = true ∧ t.pcr.phase = .held ∧ t.now = 0 ∧ t.pcr.cause = 2) ∧
  (s.pcr.vaux33 = false → s.pcr.vin12 = true → completes .vaux33Good s fun t =>
    t.pcr.vaux33 = true ∧ t.pcr.phase = .running ∧ t.now = 0 ∧ t.pcr.cause = 2) ∧
  (s.pcr.vaux33 = true → completes .vaux33Lost s fun t =>
    t.pcr.vaux33 = false ∧ t.pcr.phase = .off ∧ t.regs = [] ∧ t.ctr = [] ∧ t.crt.ret.valid = false ∧ t.pcr.startFails = s.pcr.startFails
      ∧ t.crt.store = s.crt.store ∧ t.tim.log = s.tim.log ∧ t.mem.banks = s.mem.banks) ∧
  (∀ sp w f, isRunning s = true → s.ident.role ≠ .member → s.hep.perstHigh = true → s.pcr.refuge = false → s.pcr.recoveryHold = false →
    powerSchedule s ≠ .p3 → completes (.linkTrainingDone sp w f) s fun t =>
      t.hep.linkUp = true ∧ t.hep.speed = sp ∧ t.hep.width = w ∧ t.hep.flit = f
        ∧ t.now = s.at_ (s.pcr.startAt + 20000000)) ∧
  (s.hep.linkUp = true → isRunning s = true → completes .pcieLinkDown s fun t =>
    t = hostReset 4 s ∧ t.hep.linkUp = false ∧ t.pcr.cause = 4 ∧ t.pcr.phase = .running) ∧
  (s.hep.linkUp = true → isRunning s = true → completes .hotReset s fun t =>
    t = hostReset 4 s ∧ t.hep.linkUp = false ∧ t.pcr.cause = 4 ∧ t.pcr.phase = .running) ∧
  (s.ident.role ≠ .member → s.hep.perstHigh = true → isRunning s = true → completes .perstAssert s fun t =>
    t.hep.perstHigh = false ∧ t.hep.linkUp = false ∧ t.pcr.cause = 3 ∧ t.pcr.phase = .running) ∧
  (s.ident.role ≠ .member → s.hep.perstHigh = false → completes .perstDeassert s fun t =>
    t = { s with hep := { s.hep with perstHigh := true, readyFrom := s.now } }) ∧
  (hostReturns s = true → completes .configurationReady s fun t =>
    t.hep.cfgReady = true ∧ t.hep.operational = s.pcr.fullOp ∧ t.hep.inReset = false ∧ t.now = s.at_ (s.hep.readyFrom + 10000000)
      ∧ (s.hep.inReset = true → ∀ o ∈ eventRegs, getReg t o = regReset o)) ∧
  (∀ d, s.svc.ready = true → regFld s rSVC_WDOG 0 16 ≠ 0 → d = s.svc.kickAt + 1000000 * regFld s rSVC_WDOG 0 16 →
    completes .serviceWdogExpiry s fun t => t.now = s.at_ d ∧ t = evSvc 1 (incr cSVC_RESTARTS
      (logEvent .watchdog (toLe 4 (getReg s rSVC_WDOG).toNat) (serviceReset 9 (reachTime d s)))))

/-- The milestones of a start, and its failures (drawn from R400–R402, R431, R438–R442, R457). Each clause: exec answers a next
state with the effect given, for every state and operands that meet its hypotheses. Readings of the model behind the clauses: log
entries 3, 41, 43. -/
def Obligations.StartCommandsComplete : Prop :=
  ∀ s : State, s.tablesWf = true → startRuns s = true →
  (∀ u, s.pcr.imageVerified = false → beginStart (reachTime (s.pcr.startAt + 20000000) s) = u → bankFault (startBank u).2 (startBank u).1 = none →
    completes .imageVerified s fun t => t = takeImage (startBank u).1 (startBank u).2 ∧ t.pcr.imageVerified = true) ∧
  (∀ u f g, s.pcr.imageVerified = false → beginStart (reachTime (s.pcr.startAt + 20000000) s) = u →
    bankFault (startBank u).2 (startBank u).1 = some f → bankFault (startBank u).2 (!(startBank u).1) = some g →
    completes .imageVerified s fun t => t.pcr.recoveryHold = true ∧ t.pcr.failed = true) ∧
  (∀ u v, s.pcr.imageVerified = true → s.pcr.pathReady = false →
    applyKeys (loadDefaultPools (imageDefaults (reachTime (s.pcr.startAt + 30000000) s))) = (none, u) →
    applySections pathSections u = (none, v) → completes .emergencyPathReady s fun t => t = reachPathReady (if v.pcr.refuge then leaveDegraded v else v)) ∧
  (∀ u f, s.pcr.imageVerified = true → s.pcr.pathReady = false →
    applyKeys (loadDefaultPools (imageDefaults (reachTime (s.pcr.startAt + 30000000) s))) = (some f, u) →
    completes .emergencyPathReady s fun t => t = failStart f u) ∧
  (∀ u, s.pcr.pathReady = true → s.pcr.cfgReady = false → s.pcr.refuge = false →
    applySection 7 applySvccode (reachTime (s.pcr.startAt + 150000000) s) = (none, u) → completes .configurationReady s fun t =>
      t.pcr = { u.pcr with cfgReady := true } ∧ t.now = u.now) ∧
  (s.pcr.pathReady = true → s.pcr.storeReady = false → s.pcr.refuge = false → completes .storeReady s fun t =>
    t.pcr = { s.pcr with storeReady := true } ∧ t.now = s.at_ (s.pcr.startAt + 100000000)) ∧
  (s.pcr.cfgReady = true → s.pcr.storeReady = true → completes .fullOperation s fun t =>
    t.pcr.fullOp = true ∧ t.pcr.startFails = 0 ∧ t.pool.service = true ∧ t.hep.operational = s.hep.cfgReady
      ∧ t.now = s.at_ (s.pcr.startAt + 400000000)) ∧
  (∀ a r n, s.pcr.recoveryHold = false → 1 ≤ r → r ≤ 5 → completes (.startFailure a r n) s fun t =>
    t.pcr.recoveryHold = true ∧ t.pcr.failed = true ∧ t.img.failSection = BitVec.ofNat 8 a ∧ t.img.failReason = BitVec.ofNat 8 r) ∧
  (∀ a r n, s.pcr.recoveryHold = false → 6 ≤ r → completes (.startFailure a r n) s fun t =>
    t = failStart { sect := a, reason := r, record := n } (beginStart s) ∧ t.pcr.phase = .held ∧ t.pcr.cause = 14) ∧
  (s.pcr.recoveryHold = false → s.pcr.begun = true → s.pcr.refuge = false → completes .startDeadline s fun t =>
    t.pcr.phase = .held ∧ t.pcr.cause = 14 ∧ t.now = s.at_ (s.pcr.startAt + 30000000000) + 2000)

/-- The requests that Crater reads and answers (drawn from R412–R414, R422). Each clause: exec answers a next state with the
effect given, for every state and operands that meet its hypotheses. Readings of the model behind the clauses: log entries 26. -/
def Obligations.SecureRequestCommandsComplete : Prop :=
  ∀ s : State, s.tablesWf = true → s.crt.restarting = false → ∀ ch : Nat,
  (∀ rest, s.mbx.requests = ch :: rest → s.mbx.taken = [] → 1 ≤ reqOp (getMbx s ch).word → reqOp (getMbx s ch).word ≤ 4 →
    completes .craterRequestRead s fun t => t.mbx.requests = rest ∧ mfind t.mbx.taken ch = some (getMbx s ch).word
      ∧ getMbx t ch = { getMbx s ch with full := false, empty := true }) ∧
  (∀ rest, s.mbx.requests = ch :: rest → s.mbx.taken = [] → reqOp (getMbx s ch).word = 0 → s.mbx.discard = [] →
    completes .craterRequestRead s fun t => (getMbx t ch).word = answerWord (getMbx s ch).word .malformed 0 ∧ (getMbx t ch).full = true
      ∧ t.mbx.taken = []) ∧
  (∀ w, mfind s.mbx.taken ch = some w → reqOp w = 1 → completes (.secureState ch) s fun t =>
    t = answerRequest ch (answerWord w .ok (stateResult s)) s) ∧
  (∀ w, mfind s.mbx.taken ch = some w → reqOp w = 2 → secureParty ch ≠ .management → s.crt.sec ≠ .zeroised →
    completes (.secureSlotGen ch) s fun t => t = answerRequest ch (answerWord w .ok (slotGenResult s (reqArg w % 65536))) s) ∧
  (∀ w, mfind s.mbx.taken ch = some w → reqOp w = 2 → secureParty ch = .management → completes (.secureSlotGen ch) s fun t =>
    t = incr cCRT_MBS_REJECT (answerRequest ch (answerWord w .permission 0) s)) ∧
  (∀ w r rep u, mfind s.mbx.taken ch = some w → reqOp w = 3 → secureParty ch = .host → s.crt.sec ≠ .zeroised → attestDva w % 64 = 0 →
    (∀ e ∈ s.hep.tags, e.2.purpose ≠ .attest ch) → dtuRead .key pf (attestDva w) 32 r (.attest ch) s = (rep, u) →
    completes (.secureAttest ch r) s fun t => t = attestBack ch rep u) ∧
  (∀ w, mfind s.mbx.taken ch = some w → reqOp w = 4 → secureParty ch = .host → completes (.secureKeyopAck ch) s fun t =>
    t = answerRequest ch (answerWord w .ok 0) { s with crt := { s.crt with keyop := none } } ∧ t.crt.keyop = none)

/-- Register accesses, and the frames of a Gondola link that carry TLPs and slots (drawn from R8, R10, R370, R375, R539). Each
clause: exec answers a next state with the effect given, for every state and operands that meet its hypotheses. Readings of the
model behind the clauses: log entries 9, 13, 14, 15, 18. -/
def Obligations.RegisterCommandsComplete : Prop :=
  ∀ s : State, s.tablesWf = true →
  (∀ p off v, isRunning s = true → completes (.registerWrite p off v) s fun t => t = writeReg p off v s) ∧
  (∀ p e d v, e ∈ eventPairs → regAt e.2 = some d → mayWrite p e.2 d = true → isRunning s = true →
    completes (.registerWrite p e.2 v) s fun t => getReg t e.2 = getReg s e.2 &&& ~~~ (v &&& BitVec.ofNat 32 d.w1c)
      ∧ (∀ o, o ≠ e.2 → getReg t o = getReg s o) ∧ t.out = s.out ∧ t.now = s.now) ∧
  (∀ p off d v, regAt off = some d → off % 4 = 0 → maskOf off = none → d.perView = false → mayWrite p off d = true →
    writeWindow p off v s = plainWrite p off v s → isRunning s = true → completes (.registerWrite p off v) s fun t =>
      getReg t off = d.written s.pcr.cfgReady (getReg s off) v ∧ (∀ o, o ≠ off → getReg t o = getReg s o) ∧ t.out = s.out ∧ t.now = s.now) ∧
  (∀ p off d v, regAt off = some d → maskOf off = none → mayWrite p off d = false → writeWindow p off v s = plainWrite p off v s →
    isRunning s = true → completes (.registerWrite p off v) s fun t => t = s) ∧
  (∀ p off v ev, maskOf off = some ev → isRunning s = true → visible p off = true → completes (.eventMaskWrite p off v) s fun t =>
    t = writeMask p off ev v s) ∧
  (∀ p e d v w, e ∈ eventPairs → regAt e.1 = some d → mayWrite p e.1 d = true → isRunning s = true →
    d.written s.pcr.cfgReady (getReg s e.1) v = w → setFld w 16 16 0 &&& getReg s e.2 = 0 →
    completes (.eventMaskWrite p e.1 v) s fun t => getReg t e.1 = w ∧ (∀ o, o ≠ e.1 → getReg t o = getReg s o) ∧ t.out = s.out
      ∧ t.now = s.now) ∧
  (∀ p e d v w, e ∈ eventPairs → regAt e.1 = some d → mayWrite p e.1 d = true → isRunning s = true →
    d.written s.pcr.cfgReady (getReg s e.1) v = w → setFld w 16 16 0 &&& getReg s e.2 ≠ 0 →
    completes (.eventMaskWrite p e.1 v) s fun t => t = sendMsix pf (fld w 16 11) (setReg e.1 w s) ∧ getReg t e.1 = w
      ∧ getReg t e.2 = getReg s e.2) ∧
  (∀ p off, isRunning s = true → isWideLow off = true → completes (.counterLowRead p off) s fun t =>
    t = returnValue p off (readReg p off s).1 (readReg p off s).2) ∧
  (∀ p off, isRunning s = true → visible p off = true → off % 4 = 0 → isWideLow off = true → completes (.counterLowRead p off) s fun t =>
    t.out = s.out ++ [.readValue p off (lo32 (wideValue p off s))]
      ∧ mget (fun _ => 0) t.latch (viewKey p (off + 4)) = hi32 (wideValue p off s)
      ∧ (∀ k, k ≠ viewKey p (off + 4) → mget (fun _ => 0) t.latch k = mget (fun _ => 0) s.latch k) ∧ t.regs = s.regs ∧ t.ctr = s.ctr) ∧
  (∀ p off, isRunning s = true → visible p off = true → off % 4 = 0 → isCounter off = true → off ≠ cSTR_CID_HELD →
    completes (.counterLowRead p off) s fun t => t.out = s.out ++ [.readValue p off (lo32 (getCtr s off))]
      ∧ mget (fun _ => 0) t.latch (viewKey p (off + 4)) = hi32 (getCtr s off)) ∧
  (∀ g f r u, receiveLink g 2 f s = (some r, u) → isOwnCid u r.dst = true → completes (.tlpFrameRx g f) s fun t =>
    t = withMarkers (fun _ => tlpHere r.src r.payload u) s) ∧
  (∀ g f r u, receiveLink g 2 f s = (some r, u) → isOwnCid u r.dst = false → completes (.tlpFrameRx g f) s fun t =>
    t = withMarkers (fun _ => forwardTlp { type := 2, dst := r.dst, src := r.src, local_ := false, payload := r.payload }
      (memberEnd u r.src r.dst) u) s) ∧
  (∀ g f r u fn tag st l bs, parseLink f = some r → r.type = 2 → (getLink s g).state = .up →
    r.seq = (getChan (getLink s g) r.ch).expected → acceptSeq g r.ch (wireLen r.payload.length) s = u → isOwnCid u r.dst = true →
    u.ident.role = .head → parseTlp r.payload = some (.cpl fn tag st l bs) → mfind u.cas.hostReqs tag = some r.src →
    completes (.tlpFrameRx g f) s fun t => mfind t.cas.hostReqs tag = none ∧ t = withMarkers (fun _ => emit (.completion tag st bs)
      { u with cas := { u.cas with hostReqs := merase u.cas.hostReqs tag } }) s) ∧
  (∀ g f r u x, parseLink f = some r → r.type = 2 → (getLink s g).state = .up →
    r.seq = (getChan (getLink s g) r.ch).expected → acceptSeq g r.ch (wireLen r.payload.length) s = u → isOwnCid u r.dst = true →
    u.ident.role = .member → parseTlp r.payload = some x →
    completes (.tlpFrameRx g f) s fun t => t = withMarkers (fun _ => tlpAtMember x u) s) ∧
  (∀ g f r, parseLink f = some r → r.type = 2 → (getLink s g).state = .up → r.seq ≠ (getChan (getLink s g) r.ch).expected →
    1 ≤ ((getChan (getLink s g) r.ch).expected + 4096 - r.seq) % 4096 → ((getChan (getLink s g) r.ch).expected + 4096 - r.seq) % 4096 ≤ 2047 →
    completes (.tlpFrameRx g f) s fun t => getCtr t (cCAS_G_DUP_DROP g) = getCtr s (cCAS_G_DUP_DROP g) + 1
      ∧ t.cas = s.cas ∧ t.hep = s.hep) ∧
  (∀ g f r u v, parseLink f = some r → r.type = 5 → (getLink s g).state = .up → r.seq = (getChan (getLink s g) r.ch).expected →
    acceptSeq g r.ch (wireLen r.payload.length) s = u → isOwnCid u r.dst = true → u.ident.role = .member → byteAt r.payload 0 = v →
    nbit v 5 = false → completes (.slotFrameRx g f) s fun t =>
      t.cas.attnInd = v % 4 ∧ t.cas.pwrInd = v / 4 % 4 ∧ t.cas.fnHeld = nbit v 4) ∧
  (∀ g f r u v, parseLink f = some r → r.type = 5 → (getLink s g).state = .up → r.seq = (getChan (getLink s g) r.ch).expected →
    acceptSeq g r.ch (wireLen r.payload.length) s = u → isOwnCid u r.dst = true → u.ident.role = .member → byteAt r.payload 0 = v →
    nbit v 5 = true → isRunning s = true → completes (.slotFrameRx g f) s fun t => t.pcr.phase = .held ∧ t.pcr.cause = 5) ∧
  (∀ g f r u, parseLink f = some r → r.type = 5 → (getLink s g).state = .up → r.seq = (getChan (getLink s g) r.ch).expected →
    acceptSeq g r.ch (wireLen r.payload.length) s = u → isOwnCid u r.dst = true → u.ident.role = .head →
    nbit (byteAt r.payload 0) 0 = true → completes (.slotFrameRx g f) s fun t =>
      (getVsw t r.src).attnPressed = true ∧ bit (getReg t rCAS_EVENT) 8 = true) ∧
  (∀ g f r u, receiveLink g 5 f s = (some r, u) → isOwnCid u r.dst = true → u.ident.role = .member → completes (.slotFrameRx g f) s fun t =>
    t = withMarkers (fun _ => slotAtMember (byteAt r.payload 0) u) s) ∧
  (∀ g f r u, receiveLink g 5 f s = (some r, u) → isOwnCid u r.dst = true → u.ident.role = .head → completes (.slotFrameRx g f) s fun t =>
    t = withMarkers (fun _ => slotAtHead r.src (byteAt r.payload 0) u) s) ∧
  (∀ g f r u, receiveLink g 5 f s = (some r, u) → isOwnCid u r.dst = false → completes (.slotFrameRx g f) s fun t =>
    t = withMarkers (fun _ => sendSlot r.dst r.src (byteAt r.payload 0) (memberEnd u r.src r.dst) u) s)

/-- The instructions and traps of the hardware threads, and the ends of their waits (drawn from R379–R382, R384, R385, R387, R389,
R390). Each clause: exec answers a next state with the effect given, for every state and operands that meet its hypotheses.
Readings of the model behind the clauses: log entries 32, 33, 34. -/
def Obligations.ThreadInstructionCommandsComplete : Prop :=
  ∀ s : State, s.tablesWf = true → ∀ (g : Nat) (w : Nat),
  (nextWord s g = some w → isEvwait w = true → 0 < (getThread s g).wake → completes (.threadEvwait g) s fun t =>
    t = setThread g { ({ getThread s g with
      waitRd := nbits w 7 5
      waitUntil := if nbits w 15 5 = 0 then none else some ((getThread s g).xreg (nbits w 15 5)) } : Thread).leaveWait 1 with
        wake := (getThread s g).wake - 1 } s) ∧
  (nextWord s g = some w → isEvwait w = true → (getThread s g).wake = 0 → (getThread s g).eventEnabled = false → nbits w 15 5 = 0 →
    completes (.threadEvwait g) s fun t => getThread t g = { getThread s g with waitRd := nbits w 7 5, waitUntil := none, state := .evwait }) ∧
  (∀ d, (getThread s g).state = .evwait → (getThread s g).waitUntil = some d → completes (.evwaitDeadline g) s fun t =>
    getThread t g = (getThread s g).leaveWait 2 ∧ t.now = s.at_ d.toNat) ∧
  (∀ h, nextWord s g = some w → isEvpost w = true → nbit ((getThread s g).xreg (nbits w 15 5)).toNat 8 = false →
    ((getThread s g).xreg (nbits w 15 5)).toNat % 256 = h → h ≠ g → (getThread s h).state = .run → completes (.threadEvpost g) s fun t =>
      getThread t g = (getThread s g).next ∧ getThread t h = { getThread s h with wake := min 15 ((getThread s h).wake + 1) }) ∧
  (nextWord s g = some w → isEvpost w = true → nbit ((getThread s g).xreg (nbits w 15 5)).toNat 8 = true → completes (.threadEvpost g) s fun t =>
    t = forEach (fun h s => if h = g then s else postThread h s) (span (8 * (((getThread s g).xreg (nbits w 15 5)).toNat % 256 / 8)) 8)
      (setThread g (getThread s g).next s)) ∧
  (nextWord s g = some mretWord → (getThread s g).user = false → completes (.threadMret g) s fun t =>
    (getThread t g).pc = (getThread s g).csrAt csrMepc &&& ~~~ 1#64 ∧ (getThread t g).busy = false
      ∧ (getThread t g).user = !((getThread s g).csrAt csrMstatus).getLsbD 12 ∧ (getThread t g).x = (getThread s g).x) ∧
  ((getThread s g).state ≠ .off → (getThread s g).csrAt csrSvctimecmp ≠ 0 → completes (.svcTimerEvent g) s fun t =>
    t = raiseThread g 6 (reachTime ((getThread s g).csrAt csrSvctimecmp).toNat s)) ∧
  (∀ len i u, threadIssues s g = true → (getThread s g).interruptDue = false → (getThread s g).pc.getLsbD 0 = false →
    fetchAt s (getThread s g) (getThread s g).pc.toNat = some (len, w) → rvDecode len w = some i → rvExec g len w i s = .ok u →
    completes (.threadInstruction g) s fun t => t = u) ∧
  (∀ len f rd a b, threadIssues s g = true → (getThread s g).interruptDue = false → (getThread s g).pc.getLsbD 0 = false →
    fetchAt s (getThread s g) (getThread s g).pc.toNat = some (len, w) → rvDecode len w = some (.op f rd a b) →
    completes (.threadInstruction g) s fun t =>
      (getThread t g).pc = (getThread s g).pc + BitVec.ofNat 64 len ∧ t.mem = s.mem
        ∧ (getThread t g).x = ((getThread s g).setX rd (rvAlu f ((getThread s g).xreg a) ((getThread s g).xreg b))).x) ∧
  (∀ c v, threadIssues s g = true → (getThread s g).interruptDue = false → rvStep g s = .error (c, v) →
    completes (.threadTrap g) s fun t => t = takeTrap g c v s) ∧
  (threadIssues s g = true → (getThread s g).interruptDue = true → completes (.threadTrap g) s fun t =>
    t = takeTrap g externalInterrupt 0 s)

/-- Control of the threads, the fault FIFO and the watchdog (drawn from R388, R390–R393). Each clause: exec answers a next state
with the effect given, for every state and operands that meet its hypotheses. Readings of the model behind the clauses: log
entries 33. -/
def Obligations.ThreadControlCommandsComplete : Prop :=
  ∀ s : State, s.tablesWf = true → ∀ (b g : Nat), isMaster s b = true → mayCommand b g = true →
  ((getThread s g).state = .held → threadPowered s g = true → completes (.threadRelease b g) s fun t =>
    getThread t g = { getThread s g with state := .run } ∧ getView t (.service 0) rSVC_THREAD_CTL = 0) ∧
  ((getThread s g).state = .run → completes (.threadHalt b g) s fun t => getThread t g = { getThread s g with halting := true }) ∧
  ((getThread s g).state = .faulted → completes (.threadHalt b g) s fun t => getThread t g = { getThread s g with state := .held }) ∧
  ((getThread s g).halting = true → (getThread s g).state = .run → completes (.threadHeld g) s fun t =>
    getThread t g = { getThread s g with state := .held, halting := false, waitUntil := none }) ∧
  ((getThread s g).state ≠ .off → completes (.threadReset b g) s fun t => getThread t g = Thread.init g
    ∧ ∀ k, k ≠ g → getThread t k = getThread s k) ∧
  ((getThread s g).state = .faultedUnsaved → (getThread s g).tsbOk = true → completes (.threadResume b g) s fun t =>
    t = setThreadErr false (completeTrap g (getThread s g) (getThread s g).shadowPc (getThread s g).shadowCause (getThread s g).shadowTval s)) ∧
  ((getThread s g).state = .run → completes (.threadRelease b g) s fun t =>
    getThread t g = getThread s g ∧ bit (getView t (.service 0) rSVC_THREAD_CTL) 30 = true) ∧
  (∀ v, (getThread s g).state = .off → threadPowered s g = true → completes (.setupRegisterWrite b g rSVC_THREAD_PC v) s fun t =>
    getThread t g = { getThread s g with pc := v, state := .held }) ∧
  (∀ p e rest, s.svc.faults = e :: rest → completes (.faultFifoPop p) s fun t => t.svc.faults = rest
    ∧ t.out = s.out ++ [.readValue p rSVC_FAULT_FIFO (putFld 0 8 e.thread ||| putBit 8 e.unsaved ||| putBit 31 true)]) ∧
  (completes (.wdogKick (.service 0)) s fun t => t = { s with svc := { s.svc with kickAt := s.now } })

/-- PTP time, the event log and telemetry (drawn from R281, R476–R485). Each clause: exec answers a next state with the effect
given, for every state and operands that meet its hypotheses. Readings of the model behind the clauses: log entries 3, 39. -/
def Obligations.TimeCommandsComplete : Prop :=
  ∀ s : State, s.tablesWf = true →
  (∀ p v, isPf p = true → fld v 0 2 ≠ 3 → ptpSource (fld v 0 2) ≠ s.tim.src → completes (.timCfgWrite p v) s fun t =>
    t.tim.src = ptpSource (fld v 0 2) ∧ t.tim.locked = false ∧ t.tim.freewheel = false ∧ getReg t rTIM_CFG = putFld 0 2 (fld v 0 2) ||| putFld 4 2 (fld v 4 2)
      ∧ t.tim.ptpNs = ptpNow s ∧ t.tim.ptpAt = s.now) ∧
  (∀ p v, isPf p = true → s.tim.src = .ptp → completes (.ptpRateWrite p v) s fun t =>
    t.tim.rate = v.toInt ∧ getReg t rTIM_PTP_RATE = v ∧ t.tim.ptpNs = ptpNow s) ∧
  (∀ p v, isPf p = true → s.tim.src = .loop → s.tim.heldFrom = none → completes (.ptpRateWrite p v) s fun t =>
    t = { s with tim := { s.tim with wrErr := true } }) ∧
  (∀ p v, isPf p = true → s.tim.src ≠ .loop → anySourcing s = false → completes (.ptpStepWrite p v) s fun t =>
    t.tim.ptpNs = ptpNow s + (join64 v (getReg s rTIM_PTP_STEP_LO)).toInt * ptpUnit ∧ t.tim.slew = 0 ∧ t.tim.slewEnd = none
      ∧ getCtr t cTIM_TIME_STEPS = getCtr s cTIM_TIME_STEPS + 1) ∧
  (∀ p v, isPf p = true → s.tim.src ≠ .loop → anySourcing s = true → (join64 v (getReg s rTIM_PTP_STEP_LO)).toInt.natAbs ≤ 1000000 →
    completes (.ptpStepWrite p v) s fun t => t.tim.ptpNs = ptpNow s ∧ t.tim.slew = (join64 v (getReg s rTIM_PTP_STEP_LO)).toInt * ptpUnit
      ∧ t.tim.slewEnd = some (s.now + 1000 * (join64 v (getReg s rTIM_PTP_STEP_LO)).toInt.natAbs)) ∧
  (∀ d, s.tim.slewEnd = some d → completes .slewEnd s fun t => t.tim.slew = 0 ∧ t.tim.slewEnd = none ∧ t.now = s.at_ d
    ∧ t.tim.ptpNs = ptpNow (reachTime d s)) ∧
  (∀ p, completes (.ptpNsRead p) s fun t => t.out = s.out ++ [.readValue p rTIM_PTP_NS (BitVec.ofNat 32 (ptpNanos s))]
    ∧ mget (fun _ => 0) t.latch (viewKey p rTIM_PTP_SEC_LO) = BitVec.ofNat 32 (ptpSeconds s)
    ∧ mget (fun _ => 0) t.latch (viewKey p rTIM_PTP_SEC_HI) = BitVec.ofNat 32 (ptpSeconds s / 2 ^ 32)) ∧
  (s.tim.src = .loop → s.tim.freewheel = false → completes .freewheelTimeout s fun t =>
    t.tim.freewheel = true ∧ t.tim.locked = false ∧ t.now = s.at_ (s.tim.lastSweep + 10 * cycleNs s (regFld s rTIM_CFG 4 2))) ∧
  (∀ e rest, s.tim.queue = e :: rest → nbit (byteAt e 3) 1 = false → completes .eventLogWrite s fun t =>
    t.tim.queue = rest ∧ mfind t.tim.log s.tim.nextGeneral = some (logEntry e false) ∧ t.tim.pinnedUsed = s.tim.pinnedUsed
      ∧ t.tim.nextGeneral = (if s.tim.nextGeneral = 65535 then 4096 else s.tim.nextGeneral + 1)) ∧
  (∀ e rest, s.tim.queue = e :: rest → nbit (byteAt e 3) 1 = true → s.tim.pinnedUsed < 4096 → completes .eventLogWrite s fun t =>
    t.tim.queue = rest ∧ mfind t.tim.log s.tim.pinnedUsed = some (logEntry e true) ∧ t.tim.pinnedUsed = s.tim.pinnedUsed + 1
      ∧ t.tim.nextGeneral = s.tim.nextGeneral) ∧
  (∀ p n e, n < 65536 → mfind s.tim.log n = some e → completes (.logEntryLoad p n) s fun t =>
    viewBytes t p (rTIM_LOG_DATA 0) 16 = slice e 0 64 ∧ getView t p rTIM_LOG_VALID = putBit 0 (logValid e)
      ∧ getView t p rTIM_LOG_SEL = putFld 0 16 n) ∧
  (∀ r, completes (.telemetrySample r) s fun t => t = { s with tim := { s.tim with reading := r } }) ∧
  (∀ u d, regFld s rTIM_TELEM_CFG 0 1 = 1 → backgroundRuns s = true → d = s.at_ s.tim.snapDue →
    u = { reachTime d s with tim := { s.tim with snapDue := d + 1000000 * regFld s rTIM_TELEM_CFG 16 10 } } →
    (getReg u rTIM_TELEM_PROD - getReg u rTIM_TELEM_CONS).toNat < 2 ^ regFld s rTIM_TELEM_CFG 8 4 →
    completes .telemetrySnapshot s fun t =>
      t.mem = (svcStore none ((getReg64 u rTIM_TELEM_BASE_LO).toNat / 64 * 64
        + 64 * ((getReg u rTIM_TELEM_PROD).toNat % 2 ^ regFld s rTIM_TELEM_CFG 8 4)) (snapshotBytes u) u).mem
      ∧ getReg t rTIM_TELEM_PROD = getReg s rTIM_TELEM_PROD + 1 ∧ t.tim.snapshots = s.tim.snapshots + 1 ∧ t.now = d) ∧
  (∀ d, d = 1000000000 * (s.tim.seconds + 1) → completes .deviceTimeSecond s fun t => ∃ u : State,
    t = assertLine 36 u ∧ u.now = s.at_ d ∧ u.tim = { s.tim with seconds := s.tim.seconds + 1 } ∧ u.dma = s.dma)

/-- A step with a command at the front of its queue is that command's effect on the state with the rest of the queue; while no
command waits, a step lets 1 ns of device time pass, which runs while VAUX33 is good (the second is the model's choice, log entry
2). -/
def Obligations.StepRunsFrontCommand : Prop :=
  (∀ (c : Instr) (cs : List Instr) (s : State), step { s with pending := c :: cs } = exec c { s with pending := cs }) ∧
  ∀ s : State, s.pending = [] → ∃ t, step s = .next t ∧ t.pending = [] ∧ t.regs = s.regs ∧ t.out = s.out ∧ t.mem = s.mem
    ∧ t.now = s.now + (if s.pcr.vaux33 then 1 else 0) ∧ (s.pcr.vaux33 = false → t = s)

/-- Every command of the table completes in every state: none of them ends in a fault or a refusal. -/
def Obligations.EveryCommandCompletes : Prop :=
  ∀ (c : Instr) (s : State), ∃ t, exec c s = .next t

/-- A command leaves the queue of waiting commands alone, sends after what has been sent, takes no free value a second time, and
does not move device time back, but for the return of VAUX33, with which device time begins (R476). -/
def Obligations.CommandsKeepQueueTraceAndTime : Prop :=
  ∀ (c : Instr) (s t : State), exec c s = .next t →
    t.pending = s.pending ∧ s.out <+: t.out ∧ s.freeUsed ≤ t.freeUsed ∧ (c ≠ .vaux33Good → s.now ≤ t.now)

/-- Reset: the tables are well formed, the registers hold their reset values, and the counters 0 but for the reset of cause 2 that
FULL_RESETS has counted; the alarm state is NORMAL, and nothing waits. -/
def Obligations.ResetIsWellFormed : Prop :=
  State.reset.memoriesWf = true ∧ State.reset.registersWf = true ∧ State.reset.tablesWf = true
    ∧ (∀ o, getReg State.reset o = regReset o) ∧ (∀ o, getCtr State.reset o = if o = cPCR_FULL_RESETS then 1 else 0)
    ∧ State.reset.pcr.cause = 2 ∧ State.reset.alp.state = .normal
    ∧ getReg State.reset rPOOL_CTL = 0x1F4 ∧ getReg State.reset rSWC_SPILL_CFG = 0x4003F00 ∧ getReg State.reset rTMG_DWRR_CFG = 0x800
    ∧ State.reset.out = [] ∧ State.reset.pending = []

/-- Every step keeps the byte memories, the registers and the counters in their canonical form. -/
def Obligations.StepsKeepMemoriesAndRegisters : Prop :=
  ∀ s t : State, s.memoriesWf = true → s.registersWf = true → step s = .next t → t.memoriesWf = true ∧ t.registersWf = true

/-- Every step keeps each key once, in rising order, in the tables of registers, levels, Ethernet, ciphers, memories and the log.
-/
def Obligations.StepsKeepCoreTables : Prop :=
  ∀ s t : State, s.tablesWf = true → step s = .next t → t.coreTablesWf = true ∧ t.secureTablesWf = true

/-- The same of the tables of the host interface, the queues, the channels, the pools, storage, the loops and the Cascade. -/
def Obligations.StepsKeepHostAndLinkTables : Prop :=
  ∀ s t : State, s.tablesWf = true → step s = .next t → t.hostTablesWf = true ∧ t.linkTablesWf = true

/-- The same of the tables of the pipelines, the traffic manager and the switch core. -/
def Obligations.StepsKeepFlowAndSwitchTables : Prop :=
  ∀ s t : State, s.tablesWf = true → step s = .next t → t.flowTablesWf = true ∧ t.switchTablesWf = true

/-- The frame of the commands of the host side: no register but those of `regsOf`, no counter but those of `ctrsOf` and no part of
the state but those of `partsOf` changes; memory is compared byte by byte. -/
def Obligations.HostCommandFrames : Prop :=
  ∀ (c : Instr) (s t : State), sideOf c = .host → exec c s = .next t → frameHolds c s t

/-- The same frame for the commands of the ports, the pipelines, the switch core, the ciphers and the Gondola links. -/
def Obligations.FabricCommandFrames : Prop :=
  ∀ (c : Instr) (s t : State), sideOf c = .fabric → exec c s = .next t → frameHolds c s t

/-- The same frame for the commands of the alarm logic, Crater, the service cluster, storage, the loops, power and images. -/
def Obligations.PlatformCommandFrames : Prop :=
  ∀ (c : Instr) (s t : State), sideOf c = .platform → exec c s = .next t → frameHolds c s t

/-- A store changes the bytes it stores and no other: of service memory by a channel (R282) and by telemetry (R485), of a bank by
an image page (R446) and by recovery data (R447). What a channel stores in service memory reads back. -/
def Obligations.StoresTouchTheirBytesOnly : Prop :=
  (∀ (m : Map Byte) (a x : Nat) (bs : Bytes), msorted m = true →
    mget zeroByte (storeBytes m a bs) x = if a ≤ x ∧ x < a + bs.length then bs.getD (x - a) 0 else mget zeroByte m x) ∧
  (∀ (s t : State) (ch : Nat) (w : DWord) (a b : Nat), nextInsn s ch = some w →
    a = ((getCh s ch).creg (insnRb w) + insnSimm w).toNat → exec (.insnStore ch) s = .next t → (b < a ∨ a + 8 ≤ b) →
    svcLoad t b 1 = svcLoad s b 1 ∧ devbufLoad t b 1 = devbufLoad s b 1) ∧
  (∀ (s t : State) (ch b : Nat), exec (.insnStore ch) s = .next t →
    ((getCh s ch).dst ≠ 2 → svcLoad t b 1 = svcLoad s b 1) ∧ ((getCh s ch).dst ≠ 3 → devbufLoad t b 1 = devbufLoad s b 1)) ∧
  (∀ (s : State) (ch : Nat) (w : DWord) (a : Nat), s.memoriesWf = true → nextInsn s ch = some w → nbits w.toNat 0 8 = 6 →
    insnFOnly w 0 = true → a = ((getCh s ch).creg (insnRb w) + insnSimm w).toNat → a % 8 = 0 → (getCh s ch).dst = 2 →
    inSvcMemory s a 8 = true → completes (.insnStore ch) s fun t => svcLoad t a 8 = toLe 8 ((getCh s ch).creg (insnRa w)).toNat) ∧
  (∀ (s t : State) (a b : Nat), exec .telemetrySnapshot s = .next t →
    a = (getReg64 s rTIM_TELEM_BASE_LO).toNat / 64 * 64 + 64 * ((getReg s rTIM_TELEM_PROD).toNat % 2 ^ regFld s rTIM_TELEM_CFG 8 4) →
    (b < a ∨ a + 64 ≤ b) → svcLoad t b 1 = svcLoad s b 1) ∧
  (∀ (s t : State) (src len n x : Nat), exec .imgPageWrite s = .next t → s.img.job = some (.pages src len n) →
    (x < bankBase (!s.img.runB) + n ∨ bankBase (!s.img.runB) + n + min 4096 (len - n) ≤ x) →
    mget zeroByte t.mem.banks x = mget zeroByte s.mem.banks x) ∧
  (∀ (s t : State) (r : RecWrite) (o x : Nat) (bs : Bytes), exec (.recData o bs) s = .next t → s.img.rec_ = some r →
    (x < bankBase r.bankB + r.got ∨ bankBase r.bankB + r.got + bs.length ≤ x) →
    mget zeroByte t.mem.banks x = mget zeroByte s.mem.banks x)

/-- R11: a statistics counter is 64 bits wide and goes on past its highest value; the others stand. -/
def Obligations.CountersWrap : Prop :=
  ∀ (s : State) (o n : Nat), s.tablesWf = true →
    getCtr (addCtr o n s) o = getCtr s o + BitVec.ofNat 64 n ∧ (∀ k, k ≠ o → getCtr (addCtr o n s) k = getCtr s k)
      ∧ { addCtr o n s with ctr := s.ctr } = s

/-- R54: a message of any of the four kinds that fails a check is discarded, counted, recorded with its reason and its path, and
raises MSG_REJECT; the alarm state stands. (A copy of a relayed CLEAR that has been applied is no message to check, R374.) -/
def Obligations.FailedMessagesAreRejected : Prop :=
  ∀ (s u : State) (path : EmsgPath) (m : Bytes) (rx r k : Nat) (c : Instr), s.tablesWf = true →
    (k, c) ∈ [(1, Instr.emsgDeclare path m rx), (2, Instr.emsgClear path m rx), (3, Instr.emsgDrillStart path m rx),
      (4, Instr.emsgDrillEnd path m rx)] →
    rowKind k m = true → s.crt.restarting = false → s.alp.pathReady = true → emsgArrives path s = some u →
    alreadyApplied path m s = false → emsgReject s m = some r → completes c s fun t =>
      t.alp = s.alp ∧ t.crt.ret.emsgSeq = s.crt.ret.emsgSeq ∧ getCtr t cALP_MSG_REJECT = getCtr u cALP_MSG_REJECT + 1
        ∧ getReg t rALP_LAST_REJECT = putFld 0 4 r ||| putFld 4 4 (pathCode path) ∧ bit (getReg t rALP_EVENT) 8 = true

/-- R390: when the check of the save block fails, a trap parks the thread in FAULTED_UNSAVED with its state in the shadow
registers, writes no memory, and raises SVC_EV_TSBFAULT at SC0.T0; a trap while TSB_BUSY is 1 parks it in FAULTED in the same way.
-/
def Obligations.FailedTrapsParkTheThread : Prop :=
  (∀ x : Thread, x.tsbOk = true ↔
    x.tsb.toNat % 512 = 0 ∧ x.regionBase.toNat ≤ x.tsb.toNat ∧ x.tsb.toNat + 511 ≤ x.regionLimit.toNat) ∧
  ∀ (s : State) (g : Nat) (c v : DWord), s.tablesWf = true → threadIssues s g = true →
    ((getThread s g).interruptDue = true ∧ c = externalInterrupt ∧ v = 0
      ∨ (getThread s g).interruptDue = false ∧ rvStep g s = .error (c, v)) →
    ((getThread s g).busy = false → (getThread s g).tsbOk = false → completes (.threadTrap g) s fun t =>
      t.mem = s.mem ∧ t.svc.scratch = s.svc.scratch ∧ (getThread t g).state = .faultedUnsaved ∧ (getThread t g).x = (getThread s g).x
        ∧ (getThread t g).pc = (getThread s g).pc ∧ (getThread t g).shadowPc = (getThread s g).pc ∧ (getThread t g).shadowCause = c
        ∧ (getThread t g).shadowTval = v
        ∧ ((getThread s 0).state ≠ .off → ((getThread t 0).csrAt csrSvcev).getLsbD 2 = true)) ∧
    ((getThread s g).busy = true → completes (.threadTrap g) s fun t =>
      t.mem = s.mem ∧ t.svc.scratch = s.svc.scratch ∧ (getThread t g).state = .faulted ∧ (getThread t g).x = (getThread s g).x
        ∧ (getThread t g).pc = (getThread s g).pc ∧ (getThread t g).shadowPc = (getThread s g).pc ∧ (getThread t g).shadowCause = c
        ∧ (getThread t g).shadowTval = v
        ∧ ((getThread s 0).state ≠ .off → ((getThread t 0).csrAt csrSvcev).getLsbD 3 = true))

/-- R391: RESUME in FAULTED_UNSAVED completes the trap from the shadow state when the check passes by then, as a trap completes
whose check passes at once; else the thread stays parked and ERR is set. -/
def Obligations.ResumeCompletesTheTrap : Prop :=
  ∀ (s : State) (b g : Nat), s.tablesWf = true →
    (isMaster s b = true → mayCommand b g = true → (getThread s g).state = .faultedUnsaved → (getThread s g).tsbOk = true →
      completes (.threadResume b g) s fun t => t = setThreadErr false
        (completeTrap g (getThread s g) (getThread s g).shadowPc (getThread s g).shadowCause (getThread s g).shadowTval s)) ∧
    (isMaster s b = true → mayCommand b g = true → (getThread s g).state = .faultedUnsaved → (getThread s g).tsbOk = false →
      completes (.threadResume b g) s fun t => t.svc = s.svc ∧ t.mem = s.mem
        ∧ bit (getView t (.service 0) rSVC_THREAD_CTL) 30 = true) ∧
    (∀ c v, (getThread s g).busy = false → (getThread s g).tsbOk = true →
      takeTrap g c v s = completeTrap g (getThread s g) (getThread s g).pc c v s)

/-- R294: the first-choice pool is the lowest-numbered pool that serves the purpose and whose buffers are large enough; a request
takes one buffer (in Refuge only one of the core does, R459); where no pool qualifies it is refused with MALFORMED. -/
def Obligations.FirstChoicePool : Prop :=
  ∀ (s : State) (r : PoolReq), s.tablesWf = true →
    (∀ n, firstChoice s r.purpose r.len = some n ↔
      n < 16 ∧ ((getPool s n).use.getLsbD (useBit r.purpose) = true ∧ 0 < poolBytes (getPool s n).size ∧ r.len ≤ poolBytes (getPool s n).size)
        ∧ ∀ k, k < n → ¬ ((getPool s k).use.getLsbD (useBit r.purpose) = true ∧ 0 < poolBytes (getPool s k).size
          ∧ r.len ≤ poolBytes (getPool s k).size)) ∧
    (∀ n, firstChoice s r.purpose r.len = some n → (s.pcr.refuge = false ∨ r.purpose = .core) → judge s r n = .ok →
      completes (.poolRequest r) s fun t =>
      t.pool.held = minsert s.pool.held (2 ^ 24 * n + (getPool s n).head) { inst := r.inst, purpose := r.purpose, ls := r.ls }
        ∧ t.pool.replies = s.pool.replies ++ [{ id := r.id, answer := .granted n (getPool s n).head }]) ∧
    (firstChoice s r.purpose r.len = none → completes (.poolRequest r) s fun t =>
      t = { s with pool := { s.pool with replies := s.pool.replies ++ [{ id := r.id, answer := .malformed }] } })
end

