-- ==== Sys2Proof/Laws/Bytes.lean ====
section
/-! SUPPORT. Byte order: a number written as bytes reads back, and a field of a string made of parts is its part. -/

namespace Sys2Proof.Machine

@[simp] theorem toLe_length (n x : Nat) : (toLe n x).length = n := by
  induction n generalizing x with
  | zero => rfl
  | succ n ih => simp [toLe, ih]

@[simp] theorem toBe_length (n x : Nat) : (toBe n x).length = n := by simp [toBe]

@[simp] theorem slice_length (bs : Bytes) (o n : Nat) : (slice bs o n).length = n := by
  unfold slice
  simp only [List.length_append, List.length_replicate]
  have := List.length_take_le n (bs.drop o)
  omega

/-- A number in `n` bytes, little-endian, reads back modulo 256^n. -/
theorem leNat_toLe (n x : Nat) : leNat (toLe n x) = x % 256 ^ n := by
  induction n generalizing x with
  | zero => simp [toLe, leNat, Nat.mod_one]
  | succ n ih =>
    rw [toLe, leNat, ih, BitVec.toNat_ofNat]
    have h : (256 : Nat) ^ (n + 1) = 256 * 256 ^ n := by rw [Nat.pow_succ, Nat.mul_comm]
    rw [h, Nat.mod_mul]

theorem beNat_concat (bs : Bytes) (b : Byte) : beNat (bs ++ [b]) = beNat bs * 256 + b.toNat := by
  simp [beNat, List.foldl_append]

theorem beNat_reverse (bs : Bytes) : beNat bs.reverse = leNat bs := by
  induction bs with
  | nil => rfl
  | cons b bs ih => rw [List.reverse_cons, beNat_concat, ih, leNat]; omega

/-- A number in `n` bytes, big-endian, reads back modulo 256^n. -/
theorem beNat_toBe (n x : Nat) : beNat (toBe n x) = x % 256 ^ n := by rw [toBe, beNat_reverse, leNat_toLe]

/-- A field inside the first part of a string. -/
theorem slice_append_left (a b : Bytes) {o n : Nat} (h : o + n ≤ a.length) : slice (a ++ b) o n = slice a o n := by
  unfold slice
  rw [List.drop_append_of_le_length (by omega), List.take_append_of_le_length (by rw [List.length_drop]; omega)]

/-- A field inside the second part of a string. -/
theorem slice_append_right (a b : Bytes) {o n : Nat} (h : a.length ≤ o) : slice (a ++ b) o n = slice b (o - a.length) n := by
  unfold slice
  rw [List.drop_append, List.drop_eq_nil_of_le h, List.nil_append]

/-- The whole of a string. -/
theorem slice_self (a : Bytes) : slice a 0 a.length = a := by simp [slice]

/-- A string of its own length. -/
theorem slice_zero {a : Bytes} {n : Nat} (h : a.length = n) : slice a 0 n = a := by subst h; exact slice_self a

end Sys2Proof.Machine
end

