-- ==== Sys2Proof/Laws/State.lean ====
section
/-! SUPPORT. What each update of the state leaves as it is, and what the updated field holds: one lemma per field per update. -/

namespace Sys2Proof.Machine

@[simp] theorem setReg_now (o : Nat) (v : Word) (s : State) : (setReg o v s).now = s.now := rfl
@[simp] theorem setReg_ctr (o : Nat) (v : Word) (s : State) : (setReg o v s).ctr = s.ctr := rfl
@[simp] theorem setReg_latch (o : Nat) (v : Word) (s : State) : (setReg o v s).latch = s.latch := rfl
@[simp] theorem setReg_freeUsed (o : Nat) (v : Word) (s : State) : (setReg o v s).freeUsed = s.freeUsed := rfl
@[simp] theorem setReg_out (o : Nat) (v : Word) (s : State) : (setReg o v s).out = s.out := rfl
@[simp] theorem setReg_ident (o : Nat) (v : Word) (s : State) : (setReg o v s).ident = s.ident := rfl
@[simp] theorem setReg_alp (o : Nat) (v : Word) (s : State) : (setReg o v s).alp = s.alp := rfl
@[simp] theorem setReg_hep (o : Nat) (v : Word) (s : State) : (setReg o v s).hep = s.hep := rfl
@[simp] theorem setReg_vfm (o : Nat) (v : Word) (s : State) : (setReg o v s).vfm = s.vfm := rfl
@[simp] theorem setReg_wqm (o : Nat) (v : Word) (s : State) : (setReg o v s).wqm = s.wqm := rfl
@[simp] theorem setReg_dma (o : Nat) (v : Word) (s : State) : (setReg o v s).dma = s.dma := rfl
@[simp] theorem setReg_pool (o : Nat) (v : Word) (s : State) : (setReg o v s).pool = s.pool := rfl
@[simp] theorem setReg_eth (o : Nat) (v : Word) (s : State) : (setReg o v s).eth = s.eth := rfl
@[simp] theorem setReg_flp (o : Nat) (v : Word) (s : State) : (setReg o v s).flp = s.flp := rfl
@[simp] theorem setReg_tmg (o : Nat) (v : Word) (s : State) : (setReg o v s).tmg = s.tmg := rfl
@[simp] theorem setReg_swc (o : Nat) (v : Word) (s : State) : (setReg o v s).swc = s.swc := rfl
@[simp] theorem setReg_cph (o : Nat) (v : Word) (s : State) : (setReg o v s).cph = s.cph := rfl
@[simp] theorem setReg_str (o : Nat) (v : Word) (s : State) : (setReg o v s).str = s.str := rfl
@[simp] theorem setReg_loops (o : Nat) (v : Word) (s : State) : (setReg o v s).loops = s.loops := rfl
@[simp] theorem setReg_cas (o : Nat) (v : Word) (s : State) : (setReg o v s).cas = s.cas := rfl
@[simp] theorem setReg_svc (o : Nat) (v : Word) (s : State) : (setReg o v s).svc = s.svc := rfl
@[simp] theorem setReg_crt (o : Nat) (v : Word) (s : State) : (setReg o v s).crt = s.crt := rfl
@[simp] theorem setReg_mbx (o : Nat) (v : Word) (s : State) : (setReg o v s).mbx = s.mbx := rfl
@[simp] theorem setReg_pcr (o : Nat) (v : Word) (s : State) : (setReg o v s).pcr = s.pcr := rfl
@[simp] theorem setReg_img (o : Nat) (v : Word) (s : State) : (setReg o v s).img = s.img := rfl
@[simp] theorem setReg_mem (o : Nat) (v : Word) (s : State) : (setReg o v s).mem = s.mem := rfl
@[simp] theorem setReg_tim (o : Nat) (v : Word) (s : State) : (setReg o v s).tim = s.tim := rfl
@[simp] theorem setReg_sinks (o : Nat) (v : Word) (s : State) : (setReg o v s).sinks = s.sinks := rfl
@[simp] theorem setReg_pending (o : Nat) (v : Word) (s : State) : (setReg o v s).pending = s.pending := rfl

@[simp] theorem setView_now (p : Party) (o : Nat) (v : Word) (s : State) : (setView p o v s).now = s.now := setReg_now _ _ s
@[simp] theorem setView_ctr (p : Party) (o : Nat) (v : Word) (s : State) : (setView p o v s).ctr = s.ctr := setReg_ctr _ _ s
@[simp] theorem setView_latch (p : Party) (o : Nat) (v : Word) (s : State) : (setView p o v s).latch = s.latch := setReg_latch _ _ s
@[simp] theorem setView_freeUsed (p : Party) (o : Nat) (v : Word) (s : State) : (setView p o v s).freeUsed = s.freeUsed := setReg_freeUsed _ _ s
@[simp] theorem setView_out (p : Party) (o : Nat) (v : Word) (s : State) : (setView p o v s).out = s.out := setReg_out _ _ s
@[simp] theorem setView_ident (p : Party) (o : Nat) (v : Word) (s : State) : (setView p o v s).ident = s.ident := setReg_ident _ _ s
@[simp] theorem setView_alp (p : Party) (o : Nat) (v : Word) (s : State) : (setView p o v s).alp = s.alp := setReg_alp _ _ s
@[simp] theorem setView_hep (p : Party) (o : Nat) (v : Word) (s : State) : (setView p o v s).hep = s.hep := setReg_hep _ _ s
@[simp] theorem setView_vfm (p : Party) (o : Nat) (v : Word) (s : State) : (setView p o v s).vfm = s.vfm := setReg_vfm _ _ s
@[simp] theorem setView_wqm (p : Party) (o : Nat) (v : Word) (s : State) : (setView p o v s).wqm = s.wqm := setReg_wqm _ _ s
@[simp] theorem setView_dma (p : Party) (o : Nat) (v : Word) (s : State) : (setView p o v s).dma = s.dma := setReg_dma _ _ s
@[simp] theorem setView_pool (p : Party) (o : Nat) (v : Word) (s : State) : (setView p o v s).pool = s.pool := setReg_pool _ _ s
@[simp] theorem setView_eth (p : Party) (o : Nat) (v : Word) (s : State) : (setView p o v s).eth = s.eth := setReg_eth _ _ s
@[simp] theorem setView_flp (p : Party) (o : Nat) (v : Word) (s : State) : (setView p o v s).flp = s.flp := setReg_flp _ _ s
@[simp] theorem setView_tmg (p : Party) (o : Nat) (v : Word) (s : State) : (setView p o v s).tmg = s.tmg := setReg_tmg _ _ s
@[simp] theorem setView_swc (p : Party) (o : Nat) (v : Word) (s : State) : (setView p o v s).swc = s.swc := setReg_swc _ _ s
@[simp] theorem setView_cph (p : Party) (o : Nat) (v : Word) (s : State) : (setView p o v s).cph = s.cph := setReg_cph _ _ s
@[simp] theorem setView_str (p : Party) (o : Nat) (v : Word) (s : State) : (setView p o v s).str = s.str := setReg_str _ _ s
@[simp] theorem setView_loops (p : Party) (o : Nat) (v : Word) (s : State) : (setView p o v s).loops = s.loops := setReg_loops _ _ s
@[simp] theorem setView_cas (p : Party) (o : Nat) (v : Word) (s : State) : (setView p o v s).cas = s.cas := setReg_cas _ _ s
@[simp] theorem setView_svc (p : Party) (o : Nat) (v : Word) (s : State) : (setView p o v s).svc = s.svc := setReg_svc _ _ s
@[simp] theorem setView_crt (p : Party) (o : Nat) (v : Word) (s : State) : (setView p o v s).crt = s.crt := setReg_crt _ _ s
@[simp] theorem setView_mbx (p : Party) (o : Nat) (v : Word) (s : State) : (setView p o v s).mbx = s.mbx := setReg_mbx _ _ s
@[simp] theorem setView_pcr (p : Party) (o : Nat) (v : Word) (s : State) : (setView p o v s).pcr = s.pcr := setReg_pcr _ _ s
@[simp] theorem setView_img (p : Party) (o : Nat) (v : Word) (s : State) : (setView p o v s).img = s.img := setReg_img _ _ s
@[simp] theorem setView_mem (p : Party) (o : Nat) (v : Word) (s : State) : (setView p o v s).mem = s.mem := setReg_mem _ _ s
@[simp] theorem setView_tim (p : Party) (o : Nat) (v : Word) (s : State) : (setView p o v s).tim = s.tim := setReg_tim _ _ s
@[simp] theorem setView_sinks (p : Party) (o : Nat) (v : Word) (s : State) : (setView p o v s).sinks = s.sinks := setReg_sinks _ _ s
@[simp] theorem setView_pending (p : Party) (o : Nat) (v : Word) (s : State) : (setView p o v s).pending = s.pending := setReg_pending _ _ s

@[simp] theorem setRegFld_now (o lo w x : Nat) (s : State) : (setRegFld o lo w x s).now = s.now := setReg_now _ _ s
@[simp] theorem setRegFld_ctr (o lo w x : Nat) (s : State) : (setRegFld o lo w x s).ctr = s.ctr := setReg_ctr _ _ s
@[simp] theorem setRegFld_latch (o lo w x : Nat) (s : State) : (setRegFld o lo w x s).latch = s.latch := setReg_latch _ _ s
@[simp] theorem setRegFld_freeUsed (o lo w x : Nat) (s : State) : (setRegFld o lo w x s).freeUsed = s.freeUsed := setReg_freeUsed _ _ s
@[simp] theorem setRegFld_out (o lo w x : Nat) (s : State) : (setRegFld o lo w x s).out = s.out := setReg_out _ _ s
@[simp] theorem setRegFld_ident (o lo w x : Nat) (s : State) : (setRegFld o lo w x s).ident = s.ident := setReg_ident _ _ s
@[simp] theorem setRegFld_alp (o lo w x : Nat) (s : State) : (setRegFld o lo w x s).alp = s.alp := setReg_alp _ _ s
@[simp] theorem setRegFld_hep (o lo w x : Nat) (s : State) : (setRegFld o lo w x s).hep = s.hep := setReg_hep _ _ s
@[simp] theorem setRegFld_vfm (o lo w x : Nat) (s : State) : (setRegFld o lo w x s).vfm = s.vfm := setReg_vfm _ _ s
@[simp] theorem setRegFld_wqm (o lo w x : Nat) (s : State) : (setRegFld o lo w x s).wqm = s.wqm := setReg_wqm _ _ s
@[simp] theorem setRegFld_dma (o lo w x : Nat) (s : State) : (setRegFld o lo w x s).dma = s.dma := setReg_dma _ _ s
@[simp] theorem setRegFld_pool (o lo w x : Nat) (s : State) : (setRegFld o lo w x s).pool = s.pool := setReg_pool _ _ s
@[simp] theorem setRegFld_eth (o lo w x : Nat) (s : State) : (setRegFld o lo w x s).eth = s.eth := setReg_eth _ _ s
@[simp] theorem setRegFld_flp (o lo w x : Nat) (s : State) : (setRegFld o lo w x s).flp = s.flp := setReg_flp _ _ s
@[simp] theorem setRegFld_tmg (o lo w x : Nat) (s : State) : (setRegFld o lo w x s).tmg = s.tmg := setReg_tmg _ _ s
@[simp] theorem setRegFld_swc (o lo w x : Nat) (s : State) : (setRegFld o lo w x s).swc = s.swc := setReg_swc _ _ s
@[simp] theorem setRegFld_cph (o lo w x : Nat) (s : State) : (setRegFld o lo w x s).cph = s.cph := setReg_cph _ _ s
@[simp] theorem setRegFld_str (o lo w x : Nat) (s : State) : (setRegFld o lo w x s).str = s.str := setReg_str _ _ s
@[simp] theorem setRegFld_loops (o lo w x : Nat) (s : State) : (setRegFld o lo w x s).loops = s.loops := setReg_loops _ _ s
@[simp] theorem setRegFld_cas (o lo w x : Nat) (s : State) : (setRegFld o lo w x s).cas = s.cas := setReg_cas _ _ s
@[simp] theorem setRegFld_svc (o lo w x : Nat) (s : State) : (setRegFld o lo w x s).svc = s.svc := setReg_svc _ _ s
@[simp] theorem setRegFld_crt (o lo w x : Nat) (s : State) : (setRegFld o lo w x s).crt = s.crt := setReg_crt _ _ s
@[simp] theorem setRegFld_mbx (o lo w x : Nat) (s : State) : (setRegFld o lo w x s).mbx = s.mbx := setReg_mbx _ _ s
@[simp] theorem setRegFld_pcr (o lo w x : Nat) (s : State) : (setRegFld o lo w x s).pcr = s.pcr := setReg_pcr _ _ s
@[simp] theorem setRegFld_img (o lo w x : Nat) (s : State) : (setRegFld o lo w x s).img = s.img := setReg_img _ _ s
@[simp] theorem setRegFld_mem (o lo w x : Nat) (s : State) : (setRegFld o lo w x s).mem = s.mem := setReg_mem _ _ s
@[simp] theorem setRegFld_tim (o lo w x : Nat) (s : State) : (setRegFld o lo w x s).tim = s.tim := setReg_tim _ _ s
@[simp] theorem setRegFld_sinks (o lo w x : Nat) (s : State) : (setRegFld o lo w x s).sinks = s.sinks := setReg_sinks _ _ s
@[simp] theorem setRegFld_pending (o lo w x : Nat) (s : State) : (setRegFld o lo w x s).pending = s.pending := setReg_pending _ _ s

@[simp] theorem setReg64_now (o : Nat) (v : DWord) (s : State) : (setReg64 o v s).now = s.now := (setReg_now _ _ _).trans (setReg_now _ _ s)
@[simp] theorem setReg64_ctr (o : Nat) (v : DWord) (s : State) : (setReg64 o v s).ctr = s.ctr := (setReg_ctr _ _ _).trans (setReg_ctr _ _ s)
@[simp] theorem setReg64_latch (o : Nat) (v : DWord) (s : State) : (setReg64 o v s).latch = s.latch := (setReg_latch _ _ _).trans (setReg_latch _ _ s)
@[simp] theorem setReg64_freeUsed (o : Nat) (v : DWord) (s : State) : (setReg64 o v s).freeUsed = s.freeUsed := (setReg_freeUsed _ _ _).trans (setReg_freeUsed _ _ s)
@[simp] theorem setReg64_out (o : Nat) (v : DWord) (s : State) : (setReg64 o v s).out = s.out := (setReg_out _ _ _).trans (setReg_out _ _ s)
@[simp] theorem setReg64_ident (o : Nat) (v : DWord) (s : State) : (setReg64 o v s).ident = s.ident := (setReg_ident _ _ _).trans (setReg_ident _ _ s)
@[simp] theorem setReg64_alp (o : Nat) (v : DWord) (s : State) : (setReg64 o v s).alp = s.alp := (setReg_alp _ _ _).trans (setReg_alp _ _ s)
@[simp] theorem setReg64_hep (o : Nat) (v : DWord) (s : State) : (setReg64 o v s).hep = s.hep := (setReg_hep _ _ _).trans (setReg_hep _ _ s)
@[simp] theorem setReg64_vfm (o : Nat) (v : DWord) (s : State) : (setReg64 o v s).vfm = s.vfm := (setReg_vfm _ _ _).trans (setReg_vfm _ _ s)
@[simp] theorem setReg64_wqm (o : Nat) (v : DWord) (s : State) : (setReg64 o v s).wqm = s.wqm := (setReg_wqm _ _ _).trans (setReg_wqm _ _ s)
@[simp] theorem setReg64_dma (o : Nat) (v : DWord) (s : State) : (setReg64 o v s).dma = s.dma := (setReg_dma _ _ _).trans (setReg_dma _ _ s)
@[simp] theorem setReg64_pool (o : Nat) (v : DWord) (s : State) : (setReg64 o v s).pool = s.pool := (setReg_pool _ _ _).trans (setReg_pool _ _ s)
@[simp] theorem setReg64_eth (o : Nat) (v : DWord) (s : State) : (setReg64 o v s).eth = s.eth := (setReg_eth _ _ _).trans (setReg_eth _ _ s)
@[simp] theorem setReg64_flp (o : Nat) (v : DWord) (s : State) : (setReg64 o v s).flp = s.flp := (setReg_flp _ _ _).trans (setReg_flp _ _ s)
@[simp] theorem setReg64_tmg (o : Nat) (v : DWord) (s : State) : (setReg64 o v s).tmg = s.tmg := (setReg_tmg _ _ _).trans (setReg_tmg _ _ s)
@[simp] theorem setReg64_swc (o : Nat) (v : DWord) (s : State) : (setReg64 o v s).swc = s.swc := (setReg_swc _ _ _).trans (setReg_swc _ _ s)
@[simp] theorem setReg64_cph (o : Nat) (v : DWord) (s : State) : (setReg64 o v s).cph = s.cph := (setReg_cph _ _ _).trans (setReg_cph _ _ s)
@[simp] theorem setReg64_str (o : Nat) (v : DWord) (s : State) : (setReg64 o v s).str = s.str := (setReg_str _ _ _).trans (setReg_str _ _ s)
@[simp] theorem setReg64_loops (o : Nat) (v : DWord) (s : State) : (setReg64 o v s).loops = s.loops := (setReg_loops _ _ _).trans (setReg_loops _ _ s)
@[simp] theorem setReg64_cas (o : Nat) (v : DWord) (s : State) : (setReg64 o v s).cas = s.cas := (setReg_cas _ _ _).trans (setReg_cas _ _ s)
@[simp] theorem setReg64_svc (o : Nat) (v : DWord) (s : State) : (setReg64 o v s).svc = s.svc := (setReg_svc _ _ _).trans (setReg_svc _ _ s)
@[simp] theorem setReg64_crt (o : Nat) (v : DWord) (s : State) : (setReg64 o v s).crt = s.crt := (setReg_crt _ _ _).trans (setReg_crt _ _ s)
@[simp] theorem setReg64_mbx (o : Nat) (v : DWord) (s : State) : (setReg64 o v s).mbx = s.mbx := (setReg_mbx _ _ _).trans (setReg_mbx _ _ s)
@[simp] theorem setReg64_pcr (o : Nat) (v : DWord) (s : State) : (setReg64 o v s).pcr = s.pcr := (setReg_pcr _ _ _).trans (setReg_pcr _ _ s)
@[simp] theorem setReg64_img (o : Nat) (v : DWord) (s : State) : (setReg64 o v s).img = s.img := (setReg_img _ _ _).trans (setReg_img _ _ s)
@[simp] theorem setReg64_mem (o : Nat) (v : DWord) (s : State) : (setReg64 o v s).mem = s.mem := (setReg_mem _ _ _).trans (setReg_mem _ _ s)
@[simp] theorem setReg64_tim (o : Nat) (v : DWord) (s : State) : (setReg64 o v s).tim = s.tim := (setReg_tim _ _ _).trans (setReg_tim _ _ s)
@[simp] theorem setReg64_sinks (o : Nat) (v : DWord) (s : State) : (setReg64 o v s).sinks = s.sinks := (setReg_sinks _ _ _).trans (setReg_sinks _ _ s)
@[simp] theorem setReg64_pending (o : Nat) (v : DWord) (s : State) : (setReg64 o v s).pending = s.pending := (setReg_pending _ _ _).trans (setReg_pending _ _ s)

@[simp] theorem addCtr_now (o n : Nat) (s : State) : (addCtr o n s).now = s.now := rfl
@[simp] theorem addCtr_regs (o n : Nat) (s : State) : (addCtr o n s).regs = s.regs := rfl
@[simp] theorem addCtr_latch (o n : Nat) (s : State) : (addCtr o n s).latch = s.latch := rfl
@[simp] theorem addCtr_freeUsed (o n : Nat) (s : State) : (addCtr o n s).freeUsed = s.freeUsed := rfl
@[simp] theorem addCtr_out (o n : Nat) (s : State) : (addCtr o n s).out = s.out := rfl
@[simp] theorem addCtr_ident (o n : Nat) (s : State) : (addCtr o n s).ident = s.ident := rfl
@[simp] theorem addCtr_alp (o n : Nat) (s : State) : (addCtr o n s).alp = s.alp := rfl
@[simp] theorem addCtr_hep (o n : Nat) (s : State) : (addCtr o n s).hep = s.hep := rfl
@[simp] theorem addCtr_vfm (o n : Nat) (s : State) : (addCtr o n s).vfm = s.vfm := rfl
@[simp] theorem addCtr_wqm (o n : Nat) (s : State) : (addCtr o n s).wqm = s.wqm := rfl
@[simp] theorem addCtr_dma (o n : Nat) (s : State) : (addCtr o n s).dma = s.dma := rfl
@[simp] theorem addCtr_pool (o n : Nat) (s : State) : (addCtr o n s).pool = s.pool := rfl
@[simp] theorem addCtr_eth (o n : Nat) (s : State) : (addCtr o n s).eth = s.eth := rfl
@[simp] theorem addCtr_flp (o n : Nat) (s : State) : (addCtr o n s).flp = s.flp := rfl
@[simp] theorem addCtr_tmg (o n : Nat) (s : State) : (addCtr o n s).tmg = s.tmg := rfl
@[simp] theorem addCtr_swc (o n : Nat) (s : State) : (addCtr o n s).swc = s.swc := rfl
@[simp] theorem addCtr_cph (o n : Nat) (s : State) : (addCtr o n s).cph = s.cph := rfl
@[simp] theorem addCtr_str (o n : Nat) (s : State) : (addCtr o n s).str = s.str := rfl
@[simp] theorem addCtr_loops (o n : Nat) (s : State) : (addCtr o n s).loops = s.loops := rfl
@[simp] theorem addCtr_cas (o n : Nat) (s : State) : (addCtr o n s).cas = s.cas := rfl
@[simp] theorem addCtr_svc (o n : Nat) (s : State) : (addCtr o n s).svc = s.svc := rfl
@[simp] theorem addCtr_crt (o n : Nat) (s : State) : (addCtr o n s).crt = s.crt := rfl
@[simp] theorem addCtr_mbx (o n : Nat) (s : State) : (addCtr o n s).mbx = s.mbx := rfl
@[simp] theorem addCtr_pcr (o n : Nat) (s : State) : (addCtr o n s).pcr = s.pcr := rfl
@[simp] theorem addCtr_img (o n : Nat) (s : State) : (addCtr o n s).img = s.img := rfl
@[simp] theorem addCtr_mem (o n : Nat) (s : State) : (addCtr o n s).mem = s.mem := rfl
@[simp] theorem addCtr_tim (o n : Nat) (s : State) : (addCtr o n s).tim = s.tim := rfl
@[simp] theorem addCtr_sinks (o n : Nat) (s : State) : (addCtr o n s).sinks = s.sinks := rfl
@[simp] theorem addCtr_pending (o n : Nat) (s : State) : (addCtr o n s).pending = s.pending := rfl

@[simp] theorem incr_now (o : Nat) (s : State) : (incr o s).now = s.now := addCtr_now _ _ s
@[simp] theorem incr_regs (o : Nat) (s : State) : (incr o s).regs = s.regs := addCtr_regs _ _ s
@[simp] theorem incr_latch (o : Nat) (s : State) : (incr o s).latch = s.latch := addCtr_latch _ _ s
@[simp] theorem incr_freeUsed (o : Nat) (s : State) : (incr o s).freeUsed = s.freeUsed := addCtr_freeUsed _ _ s
@[simp] theorem incr_out (o : Nat) (s : State) : (incr o s).out = s.out := addCtr_out _ _ s
@[simp] theorem incr_ident (o : Nat) (s : State) : (incr o s).ident = s.ident := addCtr_ident _ _ s
@[simp] theorem incr_alp (o : Nat) (s : State) : (incr o s).alp = s.alp := addCtr_alp _ _ s
@[simp] theorem incr_hep (o : Nat) (s : State) : (incr o s).hep = s.hep := addCtr_hep _ _ s
@[simp] theorem incr_vfm (o : Nat) (s : State) : (incr o s).vfm = s.vfm := addCtr_vfm _ _ s
@[simp] theorem incr_wqm (o : Nat) (s : State) : (incr o s).wqm = s.wqm := addCtr_wqm _ _ s
@[simp] theorem incr_dma (o : Nat) (s : State) : (incr o s).dma = s.dma := addCtr_dma _ _ s
@[simp] theorem incr_pool (o : Nat) (s : State) : (incr o s).pool = s.pool := addCtr_pool _ _ s
@[simp] theorem incr_eth (o : Nat) (s : State) : (incr o s).eth = s.eth := addCtr_eth _ _ s
@[simp] theorem incr_flp (o : Nat) (s : State) : (incr o s).flp = s.flp := addCtr_flp _ _ s
@[simp] theorem incr_tmg (o : Nat) (s : State) : (incr o s).tmg = s.tmg := addCtr_tmg _ _ s
@[simp] theorem incr_swc (o : Nat) (s : State) : (incr o s).swc = s.swc := addCtr_swc _ _ s
@[simp] theorem incr_cph (o : Nat) (s : State) : (incr o s).cph = s.cph := addCtr_cph _ _ s
@[simp] theorem incr_str (o : Nat) (s : State) : (incr o s).str = s.str := addCtr_str _ _ s
@[simp] theorem incr_loops (o : Nat) (s : State) : (incr o s).loops = s.loops := addCtr_loops _ _ s
@[simp] theorem incr_cas (o : Nat) (s : State) : (incr o s).cas = s.cas := addCtr_cas _ _ s
@[simp] theorem incr_svc (o : Nat) (s : State) : (incr o s).svc = s.svc := addCtr_svc _ _ s
@[simp] theorem incr_crt (o : Nat) (s : State) : (incr o s).crt = s.crt := addCtr_crt _ _ s
@[simp] theorem incr_mbx (o : Nat) (s : State) : (incr o s).mbx = s.mbx := addCtr_mbx _ _ s
@[simp] theorem incr_pcr (o : Nat) (s : State) : (incr o s).pcr = s.pcr := addCtr_pcr _ _ s
@[simp] theorem incr_img (o : Nat) (s : State) : (incr o s).img = s.img := addCtr_img _ _ s
@[simp] theorem incr_mem (o : Nat) (s : State) : (incr o s).mem = s.mem := addCtr_mem _ _ s
@[simp] theorem incr_tim (o : Nat) (s : State) : (incr o s).tim = s.tim := addCtr_tim _ _ s
@[simp] theorem incr_sinks (o : Nat) (s : State) : (incr o s).sinks = s.sinks := addCtr_sinks _ _ s
@[simp] theorem incr_pending (o : Nat) (s : State) : (incr o s).pending = s.pending := addCtr_pending _ _ s

@[simp] theorem emit_now (x : Out) (s : State) : (emit x s).now = s.now := rfl
@[simp] theorem emit_regs (x : Out) (s : State) : (emit x s).regs = s.regs := rfl
@[simp] theorem emit_ctr (x : Out) (s : State) : (emit x s).ctr = s.ctr := rfl
@[simp] theorem emit_latch (x : Out) (s : State) : (emit x s).latch = s.latch := rfl
@[simp] theorem emit_freeUsed (x : Out) (s : State) : (emit x s).freeUsed = s.freeUsed := rfl
@[simp] theorem emit_ident (x : Out) (s : State) : (emit x s).ident = s.ident := rfl
@[simp] theorem emit_alp (x : Out) (s : State) : (emit x s).alp = s.alp := rfl
@[simp] theorem emit_hep (x : Out) (s : State) : (emit x s).hep = s.hep := rfl
@[simp] theorem emit_vfm (x : Out) (s : State) : (emit x s).vfm = s.vfm := rfl
@[simp] theorem emit_wqm (x : Out) (s : State) : (emit x s).wqm = s.wqm := rfl
@[simp] theorem emit_dma (x : Out) (s : State) : (emit x s).dma = s.dma := rfl
@[simp] theorem emit_pool (x : Out) (s : State) : (emit x s).pool = s.pool := rfl
@[simp] theorem emit_eth (x : Out) (s : State) : (emit x s).eth = s.eth := rfl
@[simp] theorem emit_flp (x : Out) (s : State) : (emit x s).flp = s.flp := rfl
@[simp] theorem emit_tmg (x : Out) (s : State) : (emit x s).tmg = s.tmg := rfl
@[simp] theorem emit_swc (x : Out) (s : State) : (emit x s).swc = s.swc := rfl
@[simp] theorem emit_cph (x : Out) (s : State) : (emit x s).cph = s.cph := rfl
@[simp] theorem emit_str (x : Out) (s : State) : (emit x s).str = s.str := rfl
@[simp] theorem emit_loops (x : Out) (s : State) : (emit x s).loops = s.loops := rfl
@[simp] theorem emit_cas (x : Out) (s : State) : (emit x s).cas = s.cas := rfl
@[simp] theorem emit_svc (x : Out) (s : State) : (emit x s).svc = s.svc := rfl
@[simp] theorem emit_crt (x : Out) (s : State) : (emit x s).crt = s.crt := rfl
@[simp] theorem emit_mbx (x : Out) (s : State) : (emit x s).mbx = s.mbx := rfl
@[simp] theorem emit_pcr (x : Out) (s : State) : (emit x s).pcr = s.pcr := rfl
@[simp] theorem emit_img (x : Out) (s : State) : (emit x s).img = s.img := rfl
@[simp] theorem emit_mem (x : Out) (s : State) : (emit x s).mem = s.mem := rfl
@[simp] theorem emit_tim (x : Out) (s : State) : (emit x s).tim = s.tim := rfl
@[simp] theorem emit_sinks (x : Out) (s : State) : (emit x s).sinks = s.sinks := rfl
@[simp] theorem emit_pending (x : Out) (s : State) : (emit x s).pending = s.pending := rfl

@[simp] theorem returnValue_now (p : Party) (o : Nat) (v : Word) (s : State) : (returnValue p o v s).now = s.now := emit_now _ s
@[simp] theorem returnValue_regs (p : Party) (o : Nat) (v : Word) (s : State) : (returnValue p o v s).regs = s.regs := emit_regs _ s
@[simp] theorem returnValue_ctr (p : Party) (o : Nat) (v : Word) (s : State) : (returnValue p o v s).ctr = s.ctr := emit_ctr _ s
@[simp] theorem returnValue_latch (p : Party) (o : Nat) (v : Word) (s : State) : (returnValue p o v s).latch = s.latch := emit_latch _ s
@[simp] theorem returnValue_freeUsed (p : Party) (o : Nat) (v : Word) (s : State) : (returnValue p o v s).freeUsed = s.freeUsed := emit_freeUsed _ s
@[simp] theorem returnValue_ident (p : Party) (o : Nat) (v : Word) (s : State) : (returnValue p o v s).ident = s.ident := emit_ident _ s
@[simp] theorem returnValue_alp (p : Party) (o : Nat) (v : Word) (s : State) : (returnValue p o v s).alp = s.alp := emit_alp _ s
@[simp] theorem returnValue_hep (p : Party) (o : Nat) (v : Word) (s : State) : (returnValue p o v s).hep = s.hep := emit_hep _ s
@[simp] theorem returnValue_vfm (p : Party) (o : Nat) (v : Word) (s : State) : (returnValue p o v s).vfm = s.vfm := emit_vfm _ s
@[simp] theorem returnValue_wqm (p : Party) (o : Nat) (v : Word) (s : State) : (returnValue p o v s).wqm = s.wqm := emit_wqm _ s
@[simp] theorem returnValue_dma (p : Party) (o : Nat) (v : Word) (s : State) : (returnValue p o v s).dma = s.dma := emit_dma _ s
@[simp] theorem returnValue_pool (p : Party) (o : Nat) (v : Word) (s : State) : (returnValue p o v s).pool = s.pool := emit_pool _ s
@[simp] theorem returnValue_eth (p : Party) (o : Nat) (v : Word) (s : State) : (returnValue p o v s).eth = s.eth := emit_eth _ s
@[simp] theorem returnValue_flp (p : Party) (o : Nat) (v : Word) (s : State) : (returnValue p o v s).flp = s.flp := emit_flp _ s
@[simp] theorem returnValue_tmg (p : Party) (o : Nat) (v : Word) (s : State) : (returnValue p o v s).tmg = s.tmg := emit_tmg _ s
@[simp] theorem returnValue_swc (p : Party) (o : Nat) (v : Word) (s : State) : (returnValue p o v s).swc = s.swc := emit_swc _ s
@[simp] theorem returnValue_cph (p : Party) (o : Nat) (v : Word) (s : State) : (returnValue p o v s).cph = s.cph := emit_cph _ s
@[simp] theorem returnValue_str (p : Party) (o : Nat) (v : Word) (s : State) : (returnValue p o v s).str = s.str := emit_str _ s
@[simp] theorem returnValue_loops (p : Party) (o : Nat) (v : Word) (s : State) : (returnValue p o v s).loops = s.loops := emit_loops _ s
@[simp] theorem returnValue_cas (p : Party) (o : Nat) (v : Word) (s : State) : (returnValue p o v s).cas = s.cas := emit_cas _ s
@[simp] theorem returnValue_svc (p : Party) (o : Nat) (v : Word) (s : State) : (returnValue p o v s).svc = s.svc := emit_svc _ s
@[simp] theorem returnValue_crt (p : Party) (o : Nat) (v : Word) (s : State) : (returnValue p o v s).crt = s.crt := emit_crt _ s
@[simp] theorem returnValue_mbx (p : Party) (o : Nat) (v : Word) (s : State) : (returnValue p o v s).mbx = s.mbx := emit_mbx _ s
@[simp] theorem returnValue_pcr (p : Party) (o : Nat) (v : Word) (s : State) : (returnValue p o v s).pcr = s.pcr := emit_pcr _ s
@[simp] theorem returnValue_img (p : Party) (o : Nat) (v : Word) (s : State) : (returnValue p o v s).img = s.img := emit_img _ s
@[simp] theorem returnValue_mem (p : Party) (o : Nat) (v : Word) (s : State) : (returnValue p o v s).mem = s.mem := emit_mem _ s
@[simp] theorem returnValue_tim (p : Party) (o : Nat) (v : Word) (s : State) : (returnValue p o v s).tim = s.tim := emit_tim _ s
@[simp] theorem returnValue_sinks (p : Party) (o : Nat) (v : Word) (s : State) : (returnValue p o v s).sinks = s.sinks := emit_sinks _ s
@[simp] theorem returnValue_pending (p : Party) (o : Nat) (v : Word) (s : State) : (returnValue p o v s).pending = s.pending := emit_pending _ s

@[simp] theorem devbufStore_now (a : Nat) (b : Bytes) (s : State) : (devbufStore a b s).now = s.now := rfl
@[simp] theorem devbufStore_regs (a : Nat) (b : Bytes) (s : State) : (devbufStore a b s).regs = s.regs := rfl
@[simp] theorem devbufStore_ctr (a : Nat) (b : Bytes) (s : State) : (devbufStore a b s).ctr = s.ctr := rfl
@[simp] theorem devbufStore_latch (a : Nat) (b : Bytes) (s : State) : (devbufStore a b s).latch = s.latch := rfl
@[simp] theorem devbufStore_freeUsed (a : Nat) (b : Bytes) (s : State) : (devbufStore a b s).freeUsed = s.freeUsed := rfl
@[simp] theorem devbufStore_out (a : Nat) (b : Bytes) (s : State) : (devbufStore a b s).out = s.out := rfl
@[simp] theorem devbufStore_ident (a : Nat) (b : Bytes) (s : State) : (devbufStore a b s).ident = s.ident := rfl
@[simp] theorem devbufStore_alp (a : Nat) (b : Bytes) (s : State) : (devbufStore a b s).alp = s.alp := rfl
@[simp] theorem devbufStore_hep (a : Nat) (b : Bytes) (s : State) : (devbufStore a b s).hep = s.hep := rfl
@[simp] theorem devbufStore_vfm (a : Nat) (b : Bytes) (s : State) : (devbufStore a b s).vfm = s.vfm := rfl
@[simp] theorem devbufStore_wqm (a : Nat) (b : Bytes) (s : State) : (devbufStore a b s).wqm = s.wqm := rfl
@[simp] theorem devbufStore_dma (a : Nat) (b : Bytes) (s : State) : (devbufStore a b s).dma = s.dma := rfl
@[simp] theorem devbufStore_pool (a : Nat) (b : Bytes) (s : State) : (devbufStore a b s).pool = s.pool := rfl
@[simp] theorem devbufStore_eth (a : Nat) (b : Bytes) (s : State) : (devbufStore a b s).eth = s.eth := rfl
@[simp] theorem devbufStore_flp (a : Nat) (b : Bytes) (s : State) : (devbufStore a b s).flp = s.flp := rfl
@[simp] theorem devbufStore_tmg (a : Nat) (b : Bytes) (s : State) : (devbufStore a b s).tmg = s.tmg := rfl
@[simp] theorem devbufStore_swc (a : Nat) (b : Bytes) (s : State) : (devbufStore a b s).swc = s.swc := rfl
@[simp] theorem devbufStore_cph (a : Nat) (b : Bytes) (s : State) : (devbufStore a b s).cph = s.cph := rfl
@[simp] theorem devbufStore_str (a : Nat) (b : Bytes) (s : State) : (devbufStore a b s).str = s.str := rfl
@[simp] theorem devbufStore_loops (a : Nat) (b : Bytes) (s : State) : (devbufStore a b s).loops = s.loops := rfl
@[simp] theorem devbufStore_cas (a : Nat) (b : Bytes) (s : State) : (devbufStore a b s).cas = s.cas := rfl
@[simp] theorem devbufStore_svc (a : Nat) (b : Bytes) (s : State) : (devbufStore a b s).svc = s.svc := rfl
@[simp] theorem devbufStore_crt (a : Nat) (b : Bytes) (s : State) : (devbufStore a b s).crt = s.crt := rfl
@[simp] theorem devbufStore_mbx (a : Nat) (b : Bytes) (s : State) : (devbufStore a b s).mbx = s.mbx := rfl
@[simp] theorem devbufStore_pcr (a : Nat) (b : Bytes) (s : State) : (devbufStore a b s).pcr = s.pcr := rfl
@[simp] theorem devbufStore_img (a : Nat) (b : Bytes) (s : State) : (devbufStore a b s).img = s.img := rfl
@[simp] theorem devbufStore_tim (a : Nat) (b : Bytes) (s : State) : (devbufStore a b s).tim = s.tim := rfl
@[simp] theorem devbufStore_sinks (a : Nat) (b : Bytes) (s : State) : (devbufStore a b s).sinks = s.sinks := rfl
@[simp] theorem devbufStore_pending (a : Nat) (b : Bytes) (s : State) : (devbufStore a b s).pending = s.pending := rfl

@[simp] theorem setRet_now (r : Retention) (s : State) : (setRet r s).now = s.now := rfl
@[simp] theorem setRet_regs (r : Retention) (s : State) : (setRet r s).regs = s.regs := rfl
@[simp] theorem setRet_ctr (r : Retention) (s : State) : (setRet r s).ctr = s.ctr := rfl
@[simp] theorem setRet_latch (r : Retention) (s : State) : (setRet r s).latch = s.latch := rfl
@[simp] theorem setRet_freeUsed (r : Retention) (s : State) : (setRet r s).freeUsed = s.freeUsed := rfl
@[simp] theorem setRet_out (r : Retention) (s : State) : (setRet r s).out = s.out := rfl
@[simp] theorem setRet_mem (r : Retention) (s : State) : (setRet r s).mem = s.mem := rfl
@[simp] theorem setRet_pending (r : Retention) (s : State) : (setRet r s).pending = s.pending := rfl

@[simp] theorem setPasses_now (m : Map Pass) (s : State) : (setPasses m s).now = s.now := rfl
@[simp] theorem setPasses_regs (m : Map Pass) (s : State) : (setPasses m s).regs = s.regs := rfl
@[simp] theorem setPasses_ctr (m : Map Pass) (s : State) : (setPasses m s).ctr = s.ctr := rfl
@[simp] theorem setPasses_latch (m : Map Pass) (s : State) : (setPasses m s).latch = s.latch := rfl
@[simp] theorem setPasses_freeUsed (m : Map Pass) (s : State) : (setPasses m s).freeUsed = s.freeUsed := rfl
@[simp] theorem setPasses_out (m : Map Pass) (s : State) : (setPasses m s).out = s.out := rfl
@[simp] theorem setPasses_mem (m : Map Pass) (s : State) : (setPasses m s).mem = s.mem := rfl
@[simp] theorem setPasses_pending (m : Map Pass) (s : State) : (setPasses m s).pending = s.pending := rfl

@[simp] theorem setCh_now (ch : Nat) (c : Channel) (s : State) : (setCh ch c s).now = s.now := rfl
@[simp] theorem setCh_regs (ch : Nat) (c : Channel) (s : State) : (setCh ch c s).regs = s.regs := rfl
@[simp] theorem setCh_ctr (ch : Nat) (c : Channel) (s : State) : (setCh ch c s).ctr = s.ctr := rfl
@[simp] theorem setCh_latch (ch : Nat) (c : Channel) (s : State) : (setCh ch c s).latch = s.latch := rfl
@[simp] theorem setCh_freeUsed (ch : Nat) (c : Channel) (s : State) : (setCh ch c s).freeUsed = s.freeUsed := rfl
@[simp] theorem setCh_out (ch : Nat) (c : Channel) (s : State) : (setCh ch c s).out = s.out := rfl
@[simp] theorem setCh_mem (ch : Nat) (c : Channel) (s : State) : (setCh ch c s).mem = s.mem := rfl
@[simp] theorem setCh_pending (ch : Nat) (c : Channel) (s : State) : (setCh ch c s).pending = s.pending := rfl

@[simp] theorem setReqCount_now (line n : Nat) (s : State) : (setReqCount line n s).now = s.now := rfl
@[simp] theorem setReqCount_regs (line n : Nat) (s : State) : (setReqCount line n s).regs = s.regs := rfl
@[simp] theorem setReqCount_ctr (line n : Nat) (s : State) : (setReqCount line n s).ctr = s.ctr := rfl
@[simp] theorem setReqCount_latch (line n : Nat) (s : State) : (setReqCount line n s).latch = s.latch := rfl
@[simp] theorem setReqCount_freeUsed (line n : Nat) (s : State) : (setReqCount line n s).freeUsed = s.freeUsed := rfl
@[simp] theorem setReqCount_out (line n : Nat) (s : State) : (setReqCount line n s).out = s.out := rfl
@[simp] theorem setReqCount_mem (line n : Nat) (s : State) : (setReqCount line n s).mem = s.mem := rfl
@[simp] theorem setReqCount_pending (line n : Nat) (s : State) : (setReqCount line n s).pending = s.pending := rfl

@[simp] theorem setPort_now (n : Nat) (p : EthPort) (s : State) : (setPort n p s).now = s.now := rfl
@[simp] theorem setPort_regs (n : Nat) (p : EthPort) (s : State) : (setPort n p s).regs = s.regs := rfl
@[simp] theorem setPort_ctr (n : Nat) (p : EthPort) (s : State) : (setPort n p s).ctr = s.ctr := rfl
@[simp] theorem setPort_latch (n : Nat) (p : EthPort) (s : State) : (setPort n p s).latch = s.latch := rfl
@[simp] theorem setPort_freeUsed (n : Nat) (p : EthPort) (s : State) : (setPort n p s).freeUsed = s.freeUsed := rfl
@[simp] theorem setPort_out (n : Nat) (p : EthPort) (s : State) : (setPort n p s).out = s.out := rfl
@[simp] theorem setPort_mem (n : Nat) (p : EthPort) (s : State) : (setPort n p s).mem = s.mem := rfl
@[simp] theorem setPort_pending (n : Nat) (p : EthPort) (s : State) : (setPort n p s).pending = s.pending := rfl

@[simp] theorem setLaneGroup_now (g : Nat) (x : EthGroup) (s : State) : (setLaneGroup g x s).now = s.now := rfl
@[simp] theorem setLaneGroup_regs (g : Nat) (x : EthGroup) (s : State) : (setLaneGroup g x s).regs = s.regs := rfl
@[simp] theorem setLaneGroup_ctr (g : Nat) (x : EthGroup) (s : State) : (setLaneGroup g x s).ctr = s.ctr := rfl
@[simp] theorem setLaneGroup_latch (g : Nat) (x : EthGroup) (s : State) : (setLaneGroup g x s).latch = s.latch := rfl
@[simp] theorem setLaneGroup_freeUsed (g : Nat) (x : EthGroup) (s : State) : (setLaneGroup g x s).freeUsed = s.freeUsed := rfl
@[simp] theorem setLaneGroup_out (g : Nat) (x : EthGroup) (s : State) : (setLaneGroup g x s).out = s.out := rfl
@[simp] theorem setLaneGroup_mem (g : Nat) (x : EthGroup) (s : State) : (setLaneGroup g x s).mem = s.mem := rfl
@[simp] theorem setLaneGroup_pending (g : Nat) (x : EthGroup) (s : State) : (setLaneGroup g x s).pending = s.pending := rfl

@[simp] theorem setProfState_now (n : Nat) (x : ProfState) (s : State) : (setProfState n x s).now = s.now := rfl
@[simp] theorem setProfState_regs (n : Nat) (x : ProfState) (s : State) : (setProfState n x s).regs = s.regs := rfl
@[simp] theorem setProfState_ctr (n : Nat) (x : ProfState) (s : State) : (setProfState n x s).ctr = s.ctr := rfl
@[simp] theorem setProfState_latch (n : Nat) (x : ProfState) (s : State) : (setProfState n x s).latch = s.latch := rfl
@[simp] theorem setProfState_freeUsed (n : Nat) (x : ProfState) (s : State) : (setProfState n x s).freeUsed = s.freeUsed := rfl
@[simp] theorem setProfState_out (n : Nat) (x : ProfState) (s : State) : (setProfState n x s).out = s.out := rfl
@[simp] theorem setProfState_mem (n : Nat) (x : ProfState) (s : State) : (setProfState n x s).mem = s.mem := rfl
@[simp] theorem setProfState_pending (n : Nat) (x : ProfState) (s : State) : (setProfState n x s).pending = s.pending := rfl

@[simp] theorem setWaiting_now (fp : Nat) (ws : List MissWait) (s : State) : (setWaiting fp ws s).now = s.now := rfl
@[simp] theorem setWaiting_regs (fp : Nat) (ws : List MissWait) (s : State) : (setWaiting fp ws s).regs = s.regs := rfl
@[simp] theorem setWaiting_ctr (fp : Nat) (ws : List MissWait) (s : State) : (setWaiting fp ws s).ctr = s.ctr := rfl
@[simp] theorem setWaiting_latch (fp : Nat) (ws : List MissWait) (s : State) : (setWaiting fp ws s).latch = s.latch := rfl
@[simp] theorem setWaiting_freeUsed (fp : Nat) (ws : List MissWait) (s : State) : (setWaiting fp ws s).freeUsed = s.freeUsed := rfl
@[simp] theorem setWaiting_out (fp : Nat) (ws : List MissWait) (s : State) : (setWaiting fp ws s).out = s.out := rfl
@[simp] theorem setWaiting_mem (fp : Nat) (ws : List MissWait) (s : State) : (setWaiting fp ws s).mem = s.mem := rfl
@[simp] theorem setWaiting_pending (fp : Nat) (ws : List MissWait) (s : State) : (setWaiting fp ws s).pending = s.pending := rfl

@[simp] theorem setGroup_now (g : Nat) (x : Group) (s : State) : (setGroup g x s).now = s.now := rfl
@[simp] theorem setGroup_regs (g : Nat) (x : Group) (s : State) : (setGroup g x s).regs = s.regs := rfl
@[simp] theorem setGroup_ctr (g : Nat) (x : Group) (s : State) : (setGroup g x s).ctr = s.ctr := rfl
@[simp] theorem setGroup_latch (g : Nat) (x : Group) (s : State) : (setGroup g x s).latch = s.latch := rfl
@[simp] theorem setGroup_freeUsed (g : Nat) (x : Group) (s : State) : (setGroup g x s).freeUsed = s.freeUsed := rfl
@[simp] theorem setGroup_out (g : Nat) (x : Group) (s : State) : (setGroup g x s).out = s.out := rfl
@[simp] theorem setGroup_mem (g : Nat) (x : Group) (s : State) : (setGroup g x s).mem = s.mem := rfl
@[simp] theorem setGroup_pending (g : Nat) (x : Group) (s : State) : (setGroup g x s).pending = s.pending := rfl

@[simp] theorem setImgJob_now (j : Option ImgJob) (s : State) : (setImgJob j s).now = s.now := rfl
@[simp] theorem setImgJob_regs (j : Option ImgJob) (s : State) : (setImgJob j s).regs = s.regs := rfl
@[simp] theorem setImgJob_ctr (j : Option ImgJob) (s : State) : (setImgJob j s).ctr = s.ctr := rfl
@[simp] theorem setImgJob_latch (j : Option ImgJob) (s : State) : (setImgJob j s).latch = s.latch := rfl
@[simp] theorem setImgJob_freeUsed (j : Option ImgJob) (s : State) : (setImgJob j s).freeUsed = s.freeUsed := rfl
@[simp] theorem setImgJob_out (j : Option ImgJob) (s : State) : (setImgJob j s).out = s.out := rfl
@[simp] theorem setImgJob_mem (j : Option ImgJob) (s : State) : (setImgJob j s).mem = s.mem := rfl
@[simp] theorem setImgJob_pending (j : Option ImgJob) (s : State) : (setImgJob j s).pending = s.pending := rfl

@[simp] theorem setOther_now (o : OtherBank) (ver : DWord) (s : State) : (setOther o ver s).now = s.now := rfl
@[simp] theorem setOther_regs (o : OtherBank) (ver : DWord) (s : State) : (setOther o ver s).regs = s.regs := rfl
@[simp] theorem setOther_ctr (o : OtherBank) (ver : DWord) (s : State) : (setOther o ver s).ctr = s.ctr := rfl
@[simp] theorem setOther_latch (o : OtherBank) (ver : DWord) (s : State) : (setOther o ver s).latch = s.latch := rfl
@[simp] theorem setOther_freeUsed (o : OtherBank) (ver : DWord) (s : State) : (setOther o ver s).freeUsed = s.freeUsed := rfl
@[simp] theorem setOther_out (o : OtherBank) (ver : DWord) (s : State) : (setOther o ver s).out = s.out := rfl
@[simp] theorem setOther_mem (o : OtherBank) (ver : DWord) (s : State) : (setOther o ver s).mem = s.mem := rfl
@[simp] theorem setOther_pending (o : OtherBank) (ver : DWord) (s : State) : (setOther o ver s).pending = s.pending := rfl

@[simp] theorem setFnS_now (inst : Nat) (f : Fn) (s : State) : (setFnS inst f s).now = s.now := rfl
@[simp] theorem setFnS_regs (inst : Nat) (f : Fn) (s : State) : (setFnS inst f s).regs = s.regs := rfl
@[simp] theorem setFnS_ctr (inst : Nat) (f : Fn) (s : State) : (setFnS inst f s).ctr = s.ctr := rfl
@[simp] theorem setFnS_latch (inst : Nat) (f : Fn) (s : State) : (setFnS inst f s).latch = s.latch := rfl
@[simp] theorem setFnS_freeUsed (inst : Nat) (f : Fn) (s : State) : (setFnS inst f s).freeUsed = s.freeUsed := rfl
@[simp] theorem setFnS_out (inst : Nat) (f : Fn) (s : State) : (setFnS inst f s).out = s.out := rfl
@[simp] theorem setFnS_mem (inst : Nat) (f : Fn) (s : State) : (setFnS inst f s).mem = s.mem := rfl
@[simp] theorem setFnS_pending (inst : Nat) (f : Fn) (s : State) : (setFnS inst f s).pending = s.pending := rfl

@[simp] theorem setSlot_now (n : Nat) (k : KeySlot) (s : State) : (setSlot n k s).now = s.now := rfl
@[simp] theorem setSlot_regs (n : Nat) (k : KeySlot) (s : State) : (setSlot n k s).regs = s.regs := rfl
@[simp] theorem setSlot_ctr (n : Nat) (k : KeySlot) (s : State) : (setSlot n k s).ctr = s.ctr := rfl
@[simp] theorem setSlot_latch (n : Nat) (k : KeySlot) (s : State) : (setSlot n k s).latch = s.latch := rfl
@[simp] theorem setSlot_freeUsed (n : Nat) (k : KeySlot) (s : State) : (setSlot n k s).freeUsed = s.freeUsed := rfl
@[simp] theorem setSlot_out (n : Nat) (k : KeySlot) (s : State) : (setSlot n k s).out = s.out := rfl
@[simp] theorem setSlot_mem (n : Nat) (k : KeySlot) (s : State) : (setSlot n k s).mem = s.mem := rfl
@[simp] theorem setSlot_pending (n : Nat) (k : KeySlot) (s : State) : (setSlot n k s).pending = s.pending := rfl

@[simp] theorem setStore_now (n : Nat) (x : StoreSlot) (s : State) : (setStore n x s).now = s.now := rfl
@[simp] theorem setStore_regs (n : Nat) (x : StoreSlot) (s : State) : (setStore n x s).regs = s.regs := rfl
@[simp] theorem setStore_ctr (n : Nat) (x : StoreSlot) (s : State) : (setStore n x s).ctr = s.ctr := rfl
@[simp] theorem setStore_latch (n : Nat) (x : StoreSlot) (s : State) : (setStore n x s).latch = s.latch := rfl
@[simp] theorem setStore_freeUsed (n : Nat) (x : StoreSlot) (s : State) : (setStore n x s).freeUsed = s.freeUsed := rfl
@[simp] theorem setStore_out (n : Nat) (x : StoreSlot) (s : State) : (setStore n x s).out = s.out := rfl
@[simp] theorem setStore_mem (n : Nat) (x : StoreSlot) (s : State) : (setStore n x s).mem = s.mem := rfl
@[simp] theorem setStore_pending (n : Nat) (x : StoreSlot) (s : State) : (setStore n x s).pending = s.pending := rfl

@[simp] theorem setLoop_now (lp : Nat) (x : LoopPort) (s : State) : (setLoop lp x s).now = s.now := rfl
@[simp] theorem setLoop_regs (lp : Nat) (x : LoopPort) (s : State) : (setLoop lp x s).regs = s.regs := rfl
@[simp] theorem setLoop_ctr (lp : Nat) (x : LoopPort) (s : State) : (setLoop lp x s).ctr = s.ctr := rfl
@[simp] theorem setLoop_latch (lp : Nat) (x : LoopPort) (s : State) : (setLoop lp x s).latch = s.latch := rfl
@[simp] theorem setLoop_freeUsed (lp : Nat) (x : LoopPort) (s : State) : (setLoop lp x s).freeUsed = s.freeUsed := rfl
@[simp] theorem setLoop_out (lp : Nat) (x : LoopPort) (s : State) : (setLoop lp x s).out = s.out := rfl
@[simp] theorem setLoop_mem (lp : Nat) (x : LoopPort) (s : State) : (setLoop lp x s).mem = s.mem := rfl
@[simp] theorem setLoop_pending (lp : Nat) (x : LoopPort) (s : State) : (setLoop lp x s).pending = s.pending := rfl

@[simp] theorem setMbx_now (ch : Nat) (c : MbxChan) (s : State) : (setMbx ch c s).now = s.now := rfl
@[simp] theorem setMbx_regs (ch : Nat) (c : MbxChan) (s : State) : (setMbx ch c s).regs = s.regs := rfl
@[simp] theorem setMbx_ctr (ch : Nat) (c : MbxChan) (s : State) : (setMbx ch c s).ctr = s.ctr := rfl
@[simp] theorem setMbx_latch (ch : Nat) (c : MbxChan) (s : State) : (setMbx ch c s).latch = s.latch := rfl
@[simp] theorem setMbx_freeUsed (ch : Nat) (c : MbxChan) (s : State) : (setMbx ch c s).freeUsed = s.freeUsed := rfl
@[simp] theorem setMbx_out (ch : Nat) (c : MbxChan) (s : State) : (setMbx ch c s).out = s.out := rfl
@[simp] theorem setMbx_mem (ch : Nat) (c : MbxChan) (s : State) : (setMbx ch c s).mem = s.mem := rfl
@[simp] theorem setMbx_pending (ch : Nat) (c : MbxChan) (s : State) : (setMbx ch c s).pending = s.pending := rfl

@[simp] theorem setCmd_now (k : Nat) (c : StorCmd) (s : State) : (setCmd k c s).now = s.now := rfl
@[simp] theorem setCmd_regs (k : Nat) (c : StorCmd) (s : State) : (setCmd k c s).regs = s.regs := rfl
@[simp] theorem setCmd_ctr (k : Nat) (c : StorCmd) (s : State) : (setCmd k c s).ctr = s.ctr := rfl
@[simp] theorem setCmd_latch (k : Nat) (c : StorCmd) (s : State) : (setCmd k c s).latch = s.latch := rfl
@[simp] theorem setCmd_freeUsed (k : Nat) (c : StorCmd) (s : State) : (setCmd k c s).freeUsed = s.freeUsed := rfl
@[simp] theorem setCmd_out (k : Nat) (c : StorCmd) (s : State) : (setCmd k c s).out = s.out := rfl
@[simp] theorem setCmd_mem (k : Nat) (c : StorCmd) (s : State) : (setCmd k c s).mem = s.mem := rfl
@[simp] theorem setCmd_pending (k : Nat) (c : StorCmd) (s : State) : (setCmd k c s).pending = s.pending := rfl

@[simp] theorem dropCmd_now (k : Nat) (s : State) : (dropCmd k s).now = s.now := rfl
@[simp] theorem dropCmd_regs (k : Nat) (s : State) : (dropCmd k s).regs = s.regs := rfl
@[simp] theorem dropCmd_ctr (k : Nat) (s : State) : (dropCmd k s).ctr = s.ctr := rfl
@[simp] theorem dropCmd_latch (k : Nat) (s : State) : (dropCmd k s).latch = s.latch := rfl
@[simp] theorem dropCmd_freeUsed (k : Nat) (s : State) : (dropCmd k s).freeUsed = s.freeUsed := rfl
@[simp] theorem dropCmd_out (k : Nat) (s : State) : (dropCmd k s).out = s.out := rfl
@[simp] theorem dropCmd_mem (k : Nat) (s : State) : (dropCmd k s).mem = s.mem := rfl
@[simp] theorem dropCmd_pending (k : Nat) (s : State) : (dropCmd k s).pending = s.pending := rfl

@[simp] theorem setFn_now (fn : Nat) (f : Func) (s : State) : (setFn fn f s).now = s.now := rfl
@[simp] theorem setFn_regs (fn : Nat) (f : Func) (s : State) : (setFn fn f s).regs = s.regs := rfl
@[simp] theorem setFn_ctr (fn : Nat) (f : Func) (s : State) : (setFn fn f s).ctr = s.ctr := rfl
@[simp] theorem setFn_latch (fn : Nat) (f : Func) (s : State) : (setFn fn f s).latch = s.latch := rfl
@[simp] theorem setFn_freeUsed (fn : Nat) (f : Func) (s : State) : (setFn fn f s).freeUsed = s.freeUsed := rfl
@[simp] theorem setFn_out (fn : Nat) (f : Func) (s : State) : (setFn fn f s).out = s.out := rfl
@[simp] theorem setFn_mem (fn : Nat) (f : Func) (s : State) : (setFn fn f s).mem = s.mem := rfl
@[simp] theorem setFn_pending (fn : Nat) (f : Func) (s : State) : (setFn fn f s).pending = s.pending := rfl

@[simp] theorem setPc_now (n : Nat) (c : PlayChannel) (s : State) : (setPc n c s).now = s.now := rfl
@[simp] theorem setPc_regs (n : Nat) (c : PlayChannel) (s : State) : (setPc n c s).regs = s.regs := rfl
@[simp] theorem setPc_ctr (n : Nat) (c : PlayChannel) (s : State) : (setPc n c s).ctr = s.ctr := rfl
@[simp] theorem setPc_latch (n : Nat) (c : PlayChannel) (s : State) : (setPc n c s).latch = s.latch := rfl
@[simp] theorem setPc_freeUsed (n : Nat) (c : PlayChannel) (s : State) : (setPc n c s).freeUsed = s.freeUsed := rfl
@[simp] theorem setPc_out (n : Nat) (c : PlayChannel) (s : State) : (setPc n c s).out = s.out := rfl
@[simp] theorem setPc_mem (n : Nat) (c : PlayChannel) (s : State) : (setPc n c s).mem = s.mem := rfl
@[simp] theorem setPc_pending (n : Nat) (c : PlayChannel) (s : State) : (setPc n c s).pending = s.pending := rfl

@[simp] theorem setPool_now (n : Nat) (p : Pool) (s : State) : (setPool n p s).now = s.now := rfl
@[simp] theorem setPool_regs (n : Nat) (p : Pool) (s : State) : (setPool n p s).regs = s.regs := rfl
@[simp] theorem setPool_ctr (n : Nat) (p : Pool) (s : State) : (setPool n p s).ctr = s.ctr := rfl
@[simp] theorem setPool_latch (n : Nat) (p : Pool) (s : State) : (setPool n p s).latch = s.latch := rfl
@[simp] theorem setPool_freeUsed (n : Nat) (p : Pool) (s : State) : (setPool n p s).freeUsed = s.freeUsed := rfl
@[simp] theorem setPool_out (n : Nat) (p : Pool) (s : State) : (setPool n p s).out = s.out := rfl
@[simp] theorem setPool_mem (n : Nat) (p : Pool) (s : State) : (setPool n p s).mem = s.mem := rfl
@[simp] theorem setPool_pending (n : Nat) (p : Pool) (s : State) : (setPool n p s).pending = s.pending := rfl

@[simp] theorem setQueue_now (qp : Nat) (q : Queue) (s : State) : (setQueue qp q s).now = s.now := rfl
@[simp] theorem setQueue_regs (qp : Nat) (q : Queue) (s : State) : (setQueue qp q s).regs = s.regs := rfl
@[simp] theorem setQueue_ctr (qp : Nat) (q : Queue) (s : State) : (setQueue qp q s).ctr = s.ctr := rfl
@[simp] theorem setQueue_latch (qp : Nat) (q : Queue) (s : State) : (setQueue qp q s).latch = s.latch := rfl
@[simp] theorem setQueue_freeUsed (qp : Nat) (q : Queue) (s : State) : (setQueue qp q s).freeUsed = s.freeUsed := rfl
@[simp] theorem setQueue_out (qp : Nat) (q : Queue) (s : State) : (setQueue qp q s).out = s.out := rfl
@[simp] theorem setQueue_mem (qp : Nat) (q : Queue) (s : State) : (setQueue qp q s).mem = s.mem := rfl
@[simp] theorem setQueue_pending (qp : Nat) (q : Queue) (s : State) : (setQueue qp q s).pending = s.pending := rfl

@[simp] theorem setRec_now (r : Recorder) (s : State) : (setRec r s).now = s.now := rfl
@[simp] theorem setRec_regs (r : Recorder) (s : State) : (setRec r s).regs = s.regs := rfl
@[simp] theorem setRec_ctr (r : Recorder) (s : State) : (setRec r s).ctr = s.ctr := rfl
@[simp] theorem setRec_latch (r : Recorder) (s : State) : (setRec r s).latch = s.latch := rfl
@[simp] theorem setRec_freeUsed (r : Recorder) (s : State) : (setRec r s).freeUsed = s.freeUsed := rfl
@[simp] theorem setRec_out (r : Recorder) (s : State) : (setRec r s).out = s.out := rfl
@[simp] theorem setRec_mem (r : Recorder) (s : State) : (setRec r s).mem = s.mem := rfl
@[simp] theorem setRec_pending (r : Recorder) (s : State) : (setRec r s).pending = s.pending := rfl

@[simp] theorem setLink_now (g : Nat) (l : Link) (s : State) : (setLink g l s).now = s.now := rfl
@[simp] theorem setLink_regs (g : Nat) (l : Link) (s : State) : (setLink g l s).regs = s.regs := rfl
@[simp] theorem setLink_ctr (g : Nat) (l : Link) (s : State) : (setLink g l s).ctr = s.ctr := rfl
@[simp] theorem setLink_latch (g : Nat) (l : Link) (s : State) : (setLink g l s).latch = s.latch := rfl
@[simp] theorem setLink_freeUsed (g : Nat) (l : Link) (s : State) : (setLink g l s).freeUsed = s.freeUsed := rfl
@[simp] theorem setLink_out (g : Nat) (l : Link) (s : State) : (setLink g l s).out = s.out := rfl
@[simp] theorem setLink_mem (g : Nat) (l : Link) (s : State) : (setLink g l s).mem = s.mem := rfl
@[simp] theorem setLink_pending (g : Nat) (l : Link) (s : State) : (setLink g l s).pending = s.pending := rfl

@[simp] theorem setVoq_now (i o c : Nat) (q : Voq) (s : State) : (setVoq i o c q s).now = s.now := rfl
@[simp] theorem setVoq_regs (i o c : Nat) (q : Voq) (s : State) : (setVoq i o c q s).regs = s.regs := rfl
@[simp] theorem setVoq_ctr (i o c : Nat) (q : Voq) (s : State) : (setVoq i o c q s).ctr = s.ctr := rfl
@[simp] theorem setVoq_latch (i o c : Nat) (q : Voq) (s : State) : (setVoq i o c q s).latch = s.latch := rfl
@[simp] theorem setVoq_freeUsed (i o c : Nat) (q : Voq) (s : State) : (setVoq i o c q s).freeUsed = s.freeUsed := rfl
@[simp] theorem setVoq_out (i o c : Nat) (q : Voq) (s : State) : (setVoq i o c q s).out = s.out := rfl
@[simp] theorem setVoq_mem (i o c : Nat) (q : Voq) (s : State) : (setVoq i o c q s).mem = s.mem := rfl
@[simp] theorem setVoq_pending (i o c : Nat) (q : Voq) (s : State) : (setVoq i o c q s).pending = s.pending := rfl

@[simp] theorem setMcq_now (i c : Nat) (q : List McStored) (s : State) : (setMcq i c q s).now = s.now := rfl
@[simp] theorem setMcq_regs (i c : Nat) (q : List McStored) (s : State) : (setMcq i c q s).regs = s.regs := rfl
@[simp] theorem setMcq_ctr (i c : Nat) (q : List McStored) (s : State) : (setMcq i c q s).ctr = s.ctr := rfl
@[simp] theorem setMcq_latch (i c : Nat) (q : List McStored) (s : State) : (setMcq i c q s).latch = s.latch := rfl
@[simp] theorem setMcq_freeUsed (i c : Nat) (q : List McStored) (s : State) : (setMcq i c q s).freeUsed = s.freeUsed := rfl
@[simp] theorem setMcq_out (i c : Nat) (q : List McStored) (s : State) : (setMcq i c q s).out = s.out := rfl
@[simp] theorem setMcq_mem (i c : Nat) (q : List McStored) (s : State) : (setMcq i c q s).mem = s.mem := rfl
@[simp] theorem setMcq_pending (i c : Nat) (q : List McStored) (s : State) : (setMcq i c q s).pending = s.pending := rfl

@[simp] theorem setMeter_now (o x : Nat) (s : State) : (setMeter o x s).now = s.now := rfl
@[simp] theorem setMeter_regs (o x : Nat) (s : State) : (setMeter o x s).regs = s.regs := rfl
@[simp] theorem setMeter_ctr (o x : Nat) (s : State) : (setMeter o x s).ctr = s.ctr := rfl
@[simp] theorem setMeter_latch (o x : Nat) (s : State) : (setMeter o x s).latch = s.latch := rfl
@[simp] theorem setMeter_freeUsed (o x : Nat) (s : State) : (setMeter o x s).freeUsed = s.freeUsed := rfl
@[simp] theorem setMeter_out (o x : Nat) (s : State) : (setMeter o x s).out = s.out := rfl
@[simp] theorem setMeter_mem (o x : Nat) (s : State) : (setMeter o x s).mem = s.mem := rfl
@[simp] theorem setMeter_pending (o x : Nat) (s : State) : (setMeter o x s).pending = s.pending := rfl

@[simp] theorem setConn_now (n : Nat) (c : Conn) (s : State) : (setConn n c s).now = s.now := rfl
@[simp] theorem setConn_regs (n : Nat) (c : Conn) (s : State) : (setConn n c s).regs = s.regs := rfl
@[simp] theorem setConn_ctr (n : Nat) (c : Conn) (s : State) : (setConn n c s).ctr = s.ctr := rfl
@[simp] theorem setConn_latch (n : Nat) (c : Conn) (s : State) : (setConn n c s).latch = s.latch := rfl
@[simp] theorem setConn_freeUsed (n : Nat) (c : Conn) (s : State) : (setConn n c s).freeUsed = s.freeUsed := rfl
@[simp] theorem setConn_out (n : Nat) (c : Conn) (s : State) : (setConn n c s).out = s.out := rfl
@[simp] theorem setConn_mem (n : Nat) (c : Conn) (s : State) : (setConn n c s).mem = s.mem := rfl
@[simp] theorem setConn_pending (n : Nat) (c : Conn) (s : State) : (setConn n c s).pending = s.pending := rfl

@[simp] theorem setThread_now (g : Nat) (t : Thread) (s : State) : (setThread g t s).now = s.now := rfl
@[simp] theorem setThread_regs (g : Nat) (t : Thread) (s : State) : (setThread g t s).regs = s.regs := rfl
@[simp] theorem setThread_ctr (g : Nat) (t : Thread) (s : State) : (setThread g t s).ctr = s.ctr := rfl
@[simp] theorem setThread_latch (g : Nat) (t : Thread) (s : State) : (setThread g t s).latch = s.latch := rfl
@[simp] theorem setThread_freeUsed (g : Nat) (t : Thread) (s : State) : (setThread g t s).freeUsed = s.freeUsed := rfl
@[simp] theorem setThread_out (g : Nat) (t : Thread) (s : State) : (setThread g t s).out = s.out := rfl
@[simp] theorem setThread_mem (g : Nat) (t : Thread) (s : State) : (setThread g t s).mem = s.mem := rfl
@[simp] theorem setThread_pending (g : Nat) (t : Thread) (s : State) : (setThread g t s).pending = s.pending := rfl

@[simp] theorem setShaper_now (n : Nat) (b : Bucket) (s : State) : (setShaper n b s).now = s.now := rfl
@[simp] theorem setShaper_regs (n : Nat) (b : Bucket) (s : State) : (setShaper n b s).regs = s.regs := rfl
@[simp] theorem setShaper_ctr (n : Nat) (b : Bucket) (s : State) : (setShaper n b s).ctr = s.ctr := rfl
@[simp] theorem setShaper_latch (n : Nat) (b : Bucket) (s : State) : (setShaper n b s).latch = s.latch := rfl
@[simp] theorem setShaper_freeUsed (n : Nat) (b : Bucket) (s : State) : (setShaper n b s).freeUsed = s.freeUsed := rfl
@[simp] theorem setShaper_out (n : Nat) (b : Bucket) (s : State) : (setShaper n b s).out = s.out := rfl
@[simp] theorem setShaper_mem (n : Nat) (b : Bucket) (s : State) : (setShaper n b s).mem = s.mem := rfl
@[simp] theorem setShaper_pending (n : Nat) (b : Bucket) (s : State) : (setShaper n b s).pending = s.pending := rfl

@[simp] theorem setPolicer_now (n : Nat) (b : Bucket) (s : State) : (setPolicer n b s).now = s.now := rfl
@[simp] theorem setPolicer_regs (n : Nat) (b : Bucket) (s : State) : (setPolicer n b s).regs = s.regs := rfl
@[simp] theorem setPolicer_ctr (n : Nat) (b : Bucket) (s : State) : (setPolicer n b s).ctr = s.ctr := rfl
@[simp] theorem setPolicer_latch (n : Nat) (b : Bucket) (s : State) : (setPolicer n b s).latch = s.latch := rfl
@[simp] theorem setPolicer_freeUsed (n : Nat) (b : Bucket) (s : State) : (setPolicer n b s).freeUsed = s.freeUsed := rfl
@[simp] theorem setPolicer_out (n : Nat) (b : Bucket) (s : State) : (setPolicer n b s).out = s.out := rfl
@[simp] theorem setPolicer_mem (n : Nat) (b : Bucket) (s : State) : (setPolicer n b s).mem = s.mem := rfl
@[simp] theorem setPolicer_pending (n : Nat) (b : Bucket) (s : State) : (setPolicer n b s).pending = s.pending := rfl

@[simp] theorem setReg_regs (o : Nat) (v : Word) (s : State) : (setReg o v s).regs = mset regReset s.regs o v := rfl
@[simp] theorem addCtr_ctr (o n : Nat) (s : State) : (addCtr o n s).ctr = mset zero64 s.ctr o (getCtr s o + BitVec.ofNat 64 n) := rfl
@[simp] theorem emit_out (x : Out) (s : State) : (emit x s).out = s.out ++ [x] := rfl
@[simp] theorem returnValue_out (p : Party) (o : Nat) (v : Word) (s : State) : (returnValue p o v s).out = s.out ++ [.readValue p o v] := rfl

end Sys2Proof.Machine
end

