-- ==== Sys2Proof/Laws/Store.lean ====
section
/-! SUPPORT. What the operations over sparse tables do: each of them keeps the keys rising, a table with defaults stays canonical,
and a read after a write gives the value written at its key and the old value at every other. -/

namespace Sys2Proof.Machine

variable {α : Type}

theorem mrising_mono {lo hi : Nat} {m : Map α} (h : lo ≤ hi) (r : mrising hi m = true) : mrising lo m = true := by
  cases m with
  | nil => rfl
  | cons e m => simp only [mrising, Bool.and_eq_true, decide_eq_true_eq] at r ⊢; exact ⟨by omega, r.2⟩

/-- A key below the bound of a table is not listed. -/
theorem mfind_below {lo k : Nat} {m : Map α} (r : mrising lo m = true) (h : k < lo) : mfind m k = none := by
  induction m generalizing lo with
  | nil => rfl
  | cons e m ih =>
    simp only [mrising, Bool.and_eq_true, decide_eq_true_eq] at r
    have := r.1
    rw [mfind, if_neg (by omega)]
    exact ih r.2 (by omega)

theorem mfind_minsert (m : Map α) (k j : Nat) (a : α) : mfind (minsert m k a) j = if k = j then some a else mfind m j := by
  induction m with
  | nil => simp [minsert, mfind]
  | cons e m ih =>
    unfold minsert
    split
    · rfl
    · split
      · rename_i h; subst h; simp only [mfind]; split <;> rfl
      · rename_i h; simp only [mfind, ih]; split
        · rename_i hj; subst hj; rw [if_neg h]
        · rfl

theorem mfind_merase_ne (m : Map α) {k j : Nat} (h : j ≠ k) : mfind (merase m k) j = mfind m j := by
  induction m with
  | nil => rfl
  | cons e m ih =>
    unfold merase
    split
    · rename_i e1; rw [mfind, if_neg (by omega)]
    · simp only [mfind, ih]

theorem mfind_merase_self {lo k : Nat} {m : Map α} (r : mrising lo m = true) : mfind (merase m k) k = none := by
  induction m generalizing lo with
  | nil => rfl
  | cons e m ih =>
    simp only [mrising, Bool.and_eq_true, decide_eq_true_eq] at r
    unfold merase
    split
    · rename_i e1; exact mfind_below r.2 (by omega)
    · rename_i h; rw [mfind, if_neg h]; exact ih r.2

theorem mrising_minsert {lo k : Nat} {m : Map α} {a : α} (r : mrising lo m = true) (h : lo ≤ k) : mrising lo (minsert m k a) = true := by
  induction m generalizing lo with
  | nil => simp [minsert, mrising, h]
  | cons e m ih =>
    simp only [mrising, Bool.and_eq_true, decide_eq_true_eq] at r
    unfold minsert
    split
    · simp only [mrising, Bool.and_eq_true, decide_eq_true_eq]; exact ⟨h, by omega, r.2⟩
    · split
      · rename_i e1; subst e1; simp only [mrising, Bool.and_eq_true, decide_eq_true_eq]; exact ⟨h, r.2⟩
      · simp only [mrising, Bool.and_eq_true, decide_eq_true_eq]; exact ⟨r.1, ih r.2 (by omega)⟩

theorem mrising_merase {lo k : Nat} {m : Map α} (r : mrising lo m = true) : mrising lo (merase m k) = true := by
  induction m generalizing lo with
  | nil => rfl
  | cons e m ih =>
    simp only [mrising, Bool.and_eq_true, decide_eq_true_eq] at r
    unfold merase
    split
    · exact mrising_mono (by omega) r.2
    · simp only [mrising, Bool.and_eq_true, decide_eq_true_eq]; exact ⟨r.1, ih r.2⟩

theorem mrising_mmodify {lo k : Nat} {m : Map α} {f : α → α} (r : mrising lo m = true) : mrising lo (mmodify m k f) = true := by
  induction m generalizing lo with
  | nil => rfl
  | cons e m ih =>
    simp only [mrising, Bool.and_eq_true, decide_eq_true_eq] at r
    unfold mmodify
    split
    · simp only [mrising, Bool.and_eq_true, decide_eq_true_eq]; exact r
    · simp only [mrising, Bool.and_eq_true, decide_eq_true_eq]; exact ⟨r.1, ih r.2⟩

theorem mrising_mfilter {lo : Nat} {m : Map α} {p : Nat → α → Bool} (r : mrising lo m = true) : mrising lo (mfilter p m) = true := by
  induction m generalizing lo with
  | nil => rfl
  | cons e m ih =>
    simp only [mrising, Bool.and_eq_true, decide_eq_true_eq] at r
    unfold mfilter
    split
    · simp only [mrising, Bool.and_eq_true, decide_eq_true_eq]; exact ⟨r.1, ih r.2⟩
    · exact mrising_mono (by omega) (ih r.2)

theorem mrising_mmap {lo : Nat} {m : Map α} {f : Nat → α → α} (r : mrising lo m = true) : mrising lo (mmap f m) = true := by
  induction m generalizing lo with
  | nil => rfl
  | cons e m ih =>
    simp only [mrising, Bool.and_eq_true, decide_eq_true_eq] at r
    simp only [mmap, mrising, Bool.and_eq_true, decide_eq_true_eq]; exact ⟨r.1, ih r.2⟩

theorem msorted_minsert {m : Map α} {k : Nat} {a : α} (h : msorted m = true) : msorted (minsert m k a) = true :=
  mrising_minsert h (Nat.zero_le k)

theorem msorted_merase {m : Map α} {k : Nat} (h : msorted m = true) : msorted (merase m k) = true := mrising_merase h

theorem msorted_mmodify {m : Map α} {k : Nat} {f : α → α} (h : msorted m = true) : msorted (mmodify m k f) = true := mrising_mmodify h

theorem msorted_mfilter {m : Map α} {p : Nat → α → Bool} (h : msorted m = true) : msorted (mfilter p m) = true := mrising_mfilter h

theorem msorted_mmap {m : Map α} {f : Nat → α → α} (h : msorted m = true) : msorted (mmap f m) = true := mrising_mmap h

theorem msorted_mset [DecidableEq α] {d : Nat → α} {m : Map α} {k : Nat} {a : α} (h : msorted m = true) :
    msorted (mset d m k a) = true := by
  unfold mset
  split
  · exact msorted_merase h
  · exact msorted_minsert h

theorem mproper_minsert [DecidableEq α] {d : Nat → α} {m : Map α} {k : Nat} {a : α} (h : mproper d m = true) (n : a ≠ d k) :
    mproper d (minsert m k a) = true := by
  induction m with
  | nil => simp [minsert, mproper, n]
  | cons e m ih =>
    simp only [mproper, Bool.and_eq_true, decide_eq_true_eq] at h
    unfold minsert
    split
    · simp [mproper, n, h.1, h.2]
    · split
      · simp [mproper, n, h.2]
      · simp [mproper, h.1, ih h.2]

theorem mproper_merase [DecidableEq α] {d : Nat → α} {m : Map α} {k : Nat} (h : mproper d m = true) : mproper d (merase m k) = true := by
  induction m with
  | nil => rfl
  | cons e m ih =>
    simp only [mproper, Bool.and_eq_true, decide_eq_true_eq] at h
    unfold merase
    split
    · exact h.2
    · simp [mproper, h.1, ih h.2]

/-- Writing keeps the canonical form. -/
theorem mwf_mset [DecidableEq α] {d : Nat → α} {m : Map α} {k : Nat} {a : α} (h : mwf d m = true) : mwf d (mset d m k a) = true := by
  simp only [mwf, Bool.and_eq_true] at h ⊢
  refine ⟨msorted_mset h.1, ?_⟩
  unfold mset
  split
  · exact mproper_merase h.2
  · exact mproper_minsert h.2 (by assumption)

/-- A read at another key than the one written. -/
theorem mget_mset_ne [DecidableEq α] {d : Nat → α} {m : Map α} {k j : Nat} {a : α} (h : j ≠ k) :
    mget d (mset d m k a) j = mget d m j := by
  unfold mget mset
  split
  · rw [mfind_merase_ne m h]
  · rw [mfind_minsert, if_neg (by omega)]

/-- A read at the key written. -/
theorem mget_mset_self [DecidableEq α] {d : Nat → α} {m : Map α} {k : Nat} {a : α} (h : msorted m = true) :
    mget d (mset d m k a) k = a := by
  unfold mget mset
  split
  · rename_i e; rw [mfind_merase_self h]; exact e.symm
  · rw [mfind_minsert, if_pos rfl]; rfl

end Sys2Proof.Machine
end

