-- ==== Sys2Proof/Laws/Memory.lean ====
section
/-! SUPPORT. The byte memories: every store keeps their canonical form, and a sorted memory can be read in one pass. -/

namespace Sys2Proof.Machine

/-- A store keeps a byte memory canonical. -/
theorem mwf_storeBytes {m : Map Byte} {a : Nat} {bs : Bytes} (h : mwf zeroByte m = true) : mwf zeroByte (storeBytes m a bs) = true := by
  induction bs generalizing m a with
  | nil => exact h
  | cons b bs ih => exact ih (mwf_mset h)

@[simp] theorem loadBytes_length (m : Map Byte) (a n : Nat) : (loadBytes m a n).length = n := by
  induction n generalizing a with
  | zero => rfl
  | succ n ih => simp [loadBytes, ih]

/-- A store to the memory of the service cluster changes its two memories and the threads that watch them, and nothing else. -/
theorem svcStore_frame (w : Option Nat) (a : Nat) (bs : Bytes) (s : State) :
    (svcStore w a bs s).regs = s.regs ∧ (svcStore w a bs s).ctr = s.ctr ∧ (svcStore w a bs s).out = s.out
      ∧ (svcStore w a bs s).now = s.now ∧ (svcStore w a bs s).pending = s.pending ∧ (svcStore w a bs s).freeUsed = s.freeUsed
      ∧ (svcStore w a bs s).mem.devbuf = s.mem.devbuf ∧ (svcStore w a bs s).mem.banks = s.mem.banks := by
  unfold svcStore; split <;> exact ⟨rfl, rfl, rfl, rfl, rfl, rfl, rfl, rfl⟩

/-- A store to the memory of the service cluster keeps every byte memory canonical. -/
theorem svcStore_memoriesWf (w : Option Nat) (a : Nat) (bs : Bytes) {s : State} (h : s.memoriesWf = true) :
    (svcStore w a bs s).memoriesWf = true := by
  simp only [State.memoriesWf, Bool.and_eq_true] at h ⊢
  obtain ⟨⟨⟨h1, h2⟩, h3⟩, h4⟩ := h
  unfold svcStore
  split
  · exact ⟨⟨⟨h1, h2⟩, mwf_storeBytes h3⟩, h4⟩
  · exact ⟨⟨⟨mwf_storeBytes h1, h2⟩, h3⟩, h4⟩

/-- A store to DEVBUF keeps every byte memory canonical. -/
theorem devbufStore_memoriesWf (a : Nat) (bs : Bytes) {s : State} (h : s.memoriesWf = true) : (devbufStore a bs s).memoriesWf = true := by
  simp only [State.memoriesWf, Bool.and_eq_true] at h ⊢
  obtain ⟨⟨⟨h1, h2⟩, h3⟩, h4⟩ := h
  exact ⟨⟨⟨h1, mwf_storeBytes h2⟩, h3⟩, h4⟩

/-- A store to an image bank keeps every byte memory canonical. -/
theorem storeBank_memoriesWf (b : Bool) (o : Nat) (bs : Bytes) {s : State} (h : s.memoriesWf = true) : (storeBank b o bs s).memoriesWf = true := by
  simp only [State.memoriesWf, Bool.and_eq_true] at h ⊢
  obtain ⟨⟨⟨h1, h2⟩, h3⟩, h4⟩ := h
  exact ⟨⟨⟨h1, h2⟩, h3⟩, mwf_storeBytes h4⟩

/-- The entries from key `a` on. -/
def mskip (m : Map Byte) (a : Nat) : Map Byte := m.dropWhile (fun e => decide (e.1 < a))

/-- `n` bytes from an address, in one pass over the memory. -/
def loadRun : Nat → Nat → Map Byte → Bytes
  | 0, _, _ => []
  | n + 1, a, m =>
    match mskip m a with
    | [] => 0 :: loadRun n (a + 1) []
    | (j, b) :: r => if j = a then b :: loadRun n (a + 1) r else 0 :: loadRun n (a + 1) ((j, b) :: r)

theorem mrising_mskip {lo a : Nat} {m : Map Byte} (r : mrising lo m = true) : mrising a (mskip m a) = true := by
  induction m generalizing lo with
  | nil => rfl
  | cons e m ih =>
    simp only [mrising, Bool.and_eq_true, decide_eq_true_eq] at r
    unfold mskip
    rw [List.dropWhile_cons]
    split
    · exact ih r.2
    · rename_i h; simp only [decide_eq_true_eq] at h
      simp only [mrising, Bool.and_eq_true, decide_eq_true_eq]; exact ⟨by omega, r.2⟩

theorem mfind_mskip {a k : Nat} (m : Map Byte) (h : a ≤ k) : mfind (mskip m a) k = mfind m k := by
  induction m with
  | nil => rfl
  | cons e m ih =>
    unfold mskip
    rw [List.dropWhile_cons]
    split
    · rename_i h1; simp only [decide_eq_true_eq] at h1; rw [mfind, if_neg (by omega)]; exact ih
    · rfl

theorem loadBytes_congr {m m2 : Map Byte} {a : Nat} (n : Nat) (h : ∀ k, a ≤ k → mfind m k = mfind m2 k) :
    loadBytes m a n = loadBytes m2 a n := by
  induction n generalizing a with
  | zero => rfl
  | succ n ih => simp only [loadBytes, mget, h a (Nat.le_refl a)]; rw [ih (fun k hk => h k (by omega))]

/-- Reading a sorted memory in one pass gives its bytes. -/
theorem loadRun_eq {lo : Nat} (n a : Nat) {m : Map Byte} (r : mrising lo m = true) : loadRun n a m = loadBytes m a n := by
  induction n generalizing a lo m with
  | zero => rfl
  | succ n ih =>
    have rs := mrising_mskip (a := a) r
    have hf := fun k (hk : a ≤ k) => mfind_mskip (a := a) (k := k) m hk
    unfold loadRun loadBytes
    rw [← loadBytes_congr (m := mskip m a) n (fun k hk => hf k (by omega)), mget, ← hf a (Nat.le_refl a)]
    split
    · rename_i e
      rw [e, ih (lo := 0) (a + 1) rfl]; rfl
    · rename_i j b q e
      rw [e] at rs ⊢
      simp only [mrising, Bool.and_eq_true, decide_eq_true_eq] at rs
      split
      · rename_i hj
        subst hj
        rw [ih (j + 1) rs.2]
        simp only [mfind, if_pos]
        rw [Option.getD_some]
        congr 1
        exact loadBytes_congr n (fun k hk => by rw [mfind, if_neg (by omega)])
      · rename_i hj
        rw [ih (lo := j) (a + 1) (by simp [mrising, rs.2])]
        rw [show mfind ((j, b) :: q) a = none from by rw [mfind, if_neg hj]; exact mfind_below rs.2 (by omega)]
        rfl

end Sys2Proof.Machine
end

