-- ==== Sys2Proof/Laws/Ops.lean ====
section
/-! SUPPORT. What the shared operations leave as it is: sending to the host, raising an event flag, letting device time pass.
Each is said once, as an equation of the state without the parts that the operation may change; a field of the rest follows by
congruence. -/

namespace Sys2Proof.Machine

/-- The state without the trace, the counters and the Cascade controller. -/
def State.sansLink (s : State) : State := { s with out := [], ctr := [], cas := State.reset.cas }

/-- The state without what sending to the host may change. -/
def State.sansHost (s : State) : State := { s with out := [], ctr := [], cas := State.reset.cas, hep := State.reset.hep }

/-- The state without what raising an event flag may change. -/
def State.sansEvent (s : State) : State :=
  { s with out := [], ctr := [], cas := State.reset.cas, hep := State.reset.hep, regs := [] }

/-- The state without device time and the counters. -/
def State.sansTime (s : State) : State := { s with now := 0, ctr := [] }

/-- A fold over a list keeps what each of its steps keeps. -/
theorem forEach_keeps {α β : Type} {f : α → State → State} (g : State → β) (h : ∀ a s, g (f a s) = g s) (l : List α) (s : State) :
    g (forEach f l s) = g s := by
  induction l generalizing s with
  | nil => rfl
  | cons a l ih => rw [forEach, ih, h]

theorem addCtr_sansLink (o n : Nat) (s : State) : (addCtr o n s).sansLink = s.sansLink := rfl

theorem emit_sansLink (o : Out) (s : State) : (emit o s).sansLink = s.sansLink := rfl

theorem setLink_sansLink (g : Nat) (l : Link) (s : State) : (setLink g l s).sansLink = s.sansLink := rfl

theorem wireFrame_sansLink (g ch seq : Nat) (f : LinkFrame) (s : State) : (wireFrame g ch seq f s).sansLink = s.sansLink := by
  rw [wireFrame, addCtr_sansLink, incr, addCtr_sansLink, emit_sansLink]

theorem pumpChannel_sansLink (g ch n : Nat) (s : State) : (pumpChannel g ch n s).sansLink = s.sansLink := by
  induction n generalizing s with
  | zero => rfl
  | succ n ih =>
    rw [pumpChannel]
    dsimp only
    split
    · rfl
    · split
      · rfl
      · rw [ih, wireFrame_sansLink, setLink_sansLink]

theorem sendLink_sansLink (g ch : Nat) (f : LinkFrame) (s : State) : (sendLink g ch f s).sansLink = s.sansLink := by
  rw [sendLink, pump, pumpChannel_sansLink, setLink_sansLink]

theorem sendTlp_sansLink (d : Nat) (p : Bytes) (s : State) : (sendTlp d p s).sansLink = s.sansLink := by
  rw [sendTlp]
  dsimp only
  split
  · rfl
  · rw [forwardTlp]
    split
    · rw [incr, incr, addCtr_sansLink, addCtr_sansLink]
    · split
      · rw [incr, addCtr_sansLink]
      · rw [sendLink_sansLink]

/-- Sending to the host changes the trace, or the counters and the Cascade controller of a member. -/
theorem hostOut_sansLink (o : Out) (s : State) : (hostOut o s).sansLink = s.sansLink := by
  rw [hostOut]
  split
  · split
    · exact forEach_keeps State.sansLink (fun t s => sendTlp_sansLink _ _ s) _ s
    · rfl
  · rfl

theorem sansHost_of_sansLink {s t : State} (h : s.sansLink = t.sansLink) : s.sansHost = t.sansHost :=
  (congrArg (fun x : State => { x with hep := State.reset.hep }) h :)

theorem sansEvent_of_sansHost {s t : State} (h : s.sansHost = t.sansHost) : s.sansEvent = t.sansEvent :=
  (congrArg (fun x : State => { x with regs := [] }) h :)

theorem hostOut_sansHost (o : Out) (s : State) : (hostOut o s).sansHost = s.sansHost := sansHost_of_sansLink (hostOut_sansLink o s)

theorem setFn_sansHost (n : Nat) (f : Func) (s : State) : (setFn n f s).sansHost = s.sansHost := rfl

theorem holdOut_sansHost (n : Nat) (h : HeldOut) (s : State) : (holdOut n h s).sansHost = s.sansHost := by
  rw [holdOut, setFn_sansHost, incr]; rfl

/-- Asking for a message changes the trace, the counters, the functions and the Cascade controller. -/
theorem sendMsix_sansHost (fn vec : Nat) (s : State) : (sendMsix fn vec s).sansHost = s.sansHost := by
  rw [sendMsix]
  split
  · rfl
  · split
    · rfl
    · split
      · rw [hostOut_sansHost]
      · rfl

/-- A posted write changes the trace, the counters, the functions and the Cascade controller. -/
theorem hostWrite_sansHost (fn a : Nat) (bs : Bytes) (ro : Bool) (s : State) : (hostWrite fn a bs ro s).sansHost = s.sansHost := by
  rw [hostWrite, dtuWrite]
  split
  · rfl
  · split
    · rw [hostOut_sansHost]
    · rw [holdOut_sansHost]

/-- Raising event flags changes the event register besides what asking for a message changes. -/
theorem raiseBits_sansEvent (ev mask : Nat) (set : Word) (s : State) : (raiseBits ev mask set s).sansEvent = s.sansEvent := by
  rw [raiseBits]
  split
  · rfl
  · rw [sansEvent_of_sansHost (sendMsix_sansHost _ _ _)]; rfl

theorem raise_sansEvent (ev mask n : Nat) (s : State) : (raise ev mask n s).sansEvent = s.sansEvent := raiseBits_sansEvent ev mask _ s

@[simp] theorem raise_now (ev mask n : Nat) (s : State) : (raise ev mask n s).now = s.now := (congrArg State.now (raise_sansEvent ev mask n s) :)
@[simp] theorem raise_freeUsed (ev mask n : Nat) (s : State) : (raise ev mask n s).freeUsed = s.freeUsed :=
  (congrArg State.freeUsed (raise_sansEvent ev mask n s) :)
@[simp] theorem raise_pending (ev mask n : Nat) (s : State) : (raise ev mask n s).pending = s.pending :=
  (congrArg State.pending (raise_sansEvent ev mask n s) :)
@[simp] theorem raise_mem (ev mask n : Nat) (s : State) : (raise ev mask n s).mem = s.mem := (congrArg State.mem (raise_sansEvent ev mask n s) :)
@[simp] theorem raise_alp (ev mask n : Nat) (s : State) : (raise ev mask n s).alp = s.alp := (congrArg State.alp (raise_sansEvent ev mask n s) :)
@[simp] theorem raise_svc (ev mask n : Nat) (s : State) : (raise ev mask n s).svc = s.svc := (congrArg State.svc (raise_sansEvent ev mask n s) :)
@[simp] theorem raise_crt (ev mask n : Nat) (s : State) : (raise ev mask n s).crt = s.crt := (congrArg State.crt (raise_sansEvent ev mask n s) :)

theorem addTime_sansTime (off n d : Nat) (s : State) : (addTime off n d s).sansTime = s.sansTime := by
  rw [addTime]; split <;> rfl

/-- Passing time moves device time and the counters that sum it. -/
theorem elapse_sansTime (d : Nat) (s : State) : (elapse d s).sansTime = s.sansTime := by
  have h (x : State) : ({ x with now := s.now + d } : State).sansTime = x.sansTime := rfl
  unfold elapse
  refine (h _).trans ((forEach_keeps State.sansTime (fun _ _ => addTime_sansTime _ _ _ _) _ _).trans ?_)
  iterate 4 refine (forEach_keeps State.sansTime (fun _ _ => addTime_sansTime _ _ _ _) _ _).trans ?_
  exact (addTime_sansTime _ _ _ _).trans ((addTime_sansTime _ _ _ _).trans ((addTime_sansTime _ _ _ _).trans (addTime_sansTime _ _ _ _)))

theorem reachTime_sansTime (t : Nat) (s : State) : (reachTime t s).sansTime = s.sansTime := elapse_sansTime _ s

@[simp] theorem elapse_now (d : Nat) (s : State) : (elapse d s).now = s.now + d := by unfold elapse; exact Eq.refl (s.now + d)

/-- Time reached is the later of the present and the time asked for. -/
@[simp] theorem reachTime_now (t : Nat) (s : State) : (reachTime t s).now = max s.now t := by
  rw [reachTime, elapse_now]; omega

@[simp] theorem elapse_regs (d : Nat) (s : State) : (elapse d s).regs = s.regs := (congrArg State.regs (elapse_sansTime d s) :)
@[simp] theorem elapse_out (d : Nat) (s : State) : (elapse d s).out = s.out := (congrArg State.out (elapse_sansTime d s) :)
@[simp] theorem elapse_mem (d : Nat) (s : State) : (elapse d s).mem = s.mem := (congrArg State.mem (elapse_sansTime d s) :)
@[simp] theorem elapse_freeUsed (d : Nat) (s : State) : (elapse d s).freeUsed = s.freeUsed := (congrArg State.freeUsed (elapse_sansTime d s) :)
@[simp] theorem elapse_pending (d : Nat) (s : State) : (elapse d s).pending = s.pending := (congrArg State.pending (elapse_sansTime d s) :)
@[simp] theorem elapse_svc (d : Nat) (s : State) : (elapse d s).svc = s.svc := (congrArg State.svc (elapse_sansTime d s) :)

/-- A write of a register keeps registers and counters canonical. -/
theorem mwf_setReg {o : Nat} {v : Word} {s : State} (h : mwf regReset s.regs = true) : mwf regReset (setReg o v s).regs = true := mwf_mset h

/-- Counting keeps the counters canonical. -/
theorem mwf_addCtr {o n : Nat} {s : State} (h : mwf zero64 s.ctr = true) : mwf zero64 (addCtr o n s).ctr = true := mwf_mset h

/-- A register other than the one written. -/
theorem getReg_setReg_ne {o k : Nat} {v : Word} {s : State} (h : k ≠ o) : getReg (setReg o v s) k = getReg s k := mget_mset_ne h

/-- The register written. -/
theorem getReg_setReg_self {o : Nat} {v : Word} {s : State} (h : msorted s.regs = true) : getReg (setReg o v s) o = v := mget_mset_self h

end Sys2Proof.Machine
end

