-- ==== Sys2Proof/WellFormed.lean ====
section
/-! DEFINITION. Which commands are well-formed: every operand that names a unit of the device lies in the range that the spec gives
the unit (01_architecture.md and the chapter of each unit). A command outside these ranges names nothing that exists. -/

namespace Sys2Proof

/-- A service access names one of the 256 threads (R378). -/
def Party.wf : Party → Bool
  | .host => true
  | .service thread => decide (thread < 256)
  | .crater => true

/-- Loops LP0–LP3 and links G0–G3. -/
def EmsgPath.wf : EmsgPath → Bool
  | .loop n => decide (n < 4)
  | .eth => true
  | .cascade g => decide (g < 4)

/-- VFs 0–4,095 and Cascade IDs 0–63 (R207, R229). -/
def CfgTarget.wf : CfgTarget → Bool
  | .pf => true
  | .vf n => decide (n < 4096)
  | .upstream => true
  | .downstream k => decide (k < 64)
  | .member k fn => decide (k < 64) && decide (fn < 8192)

/-- VFs 0–4,095 and Cascade IDs 0–63. -/
def MemTarget.wf : MemTarget → Bool
  | .bar0 => true
  | .bar2 => true
  | .bar4 => true
  | .vfBar0 n => decide (n < 4096)
  | .portBar k => decide (k < 64)
  | .member k => decide (k < 64)

/-- A tag has 14 bits; a write carries its bytes and asks for none. -/
def MemReq.wf (r : MemReq) : Bool := r.target.wf && decide (r.tag < 16384) && (!r.write || decide (r.len = 0))

/-- Loops LP0–LP3. -/
def WakeSource.wf : WakeSource → Bool
  | .input => true
  | .ethernet => true
  | .loop n => decide (n < 4)
  | .tamper => true

/-- Switch ports SP0–SP25 and host ports H0 and H1. -/
def EgressFrom.wf : EgressFrom → Bool
  | .output sp => decide (sp < 26)
  | .outputLs sp => decide (sp < 26)
  | .host h => decide (h < 2)

/-- Flow pipelines FP0–FP3. -/
def CipherFrom.wf : CipherFrom → Bool
  | .decrypt _ => true
  | .handover fp _ => decide (fp < 4)
  | .parked _ => true
  | .lsEntryLost => true

/-- Instances 0–4,102 (R234). -/
def PoolReq.wf (r : PoolReq) : Bool := decide (r.inst < 4103)

/-- The twenty windows of R498, in 4-byte registers. -/
def registerOffset (off : Nat) : Bool := decide (off < 0x1400000) && decide (off % 4 = 0)

/-- The numbers by which the model knows PCI functions: VFs 0–4,095, the PF 4,096, the upstream port 8,191, the downstream ports
from 8,192 on (log entry 4). -/
def functionNumber (fn : Nat) : Bool := decide (fn ≤ 4096) || (decide (8191 ≤ fn) && decide (fn < 8256))

/-- The numbers of requesters: the functions of this device, and on a head function `fn` of member k as 65,536 (k + 1) + fn (log
entry 4). -/
def requesterNumber (fn : Nat) : Bool := functionNumber (fn % 65536) && decide (fn < 65 * 65536)

/-- Whether a command names only units that exist. -/
def Instr.wf : Instr → Bool
  | .registerWrite p off _ => p.wf && registerOffset off
  | .counterLowRead p off => p.wf && registerOffset off
  | .eventMaskWrite p off _ => p.wf && registerOffset off
  | .inputCombinationAccept _ _ _ => true
  | .emsgDeclare path _ _ => path.wf
  | .emsgClear path _ _ => path.wf
  | .emsgDrillStart path _ _ => path.wf
  | .emsgDrillEnd path _ _ => path.wf
  | .holdoverExpiry => true
  | .drillCtlStart p => p.wf
  | .drillCtlStop p => p.wf
  | .drillTimeout => true
  | .precedenceLevelArrive _ => true
  | .entryDone => true
  | .parameterSweep lost => lost.all (fun i => decide (i < 4097))
  | .ethFrameReceive port _ => decide (port < 16)
  | .pfcFrameRx port _ _ => decide (port < 16)
  | .pfcPauseExpiry port => decide (port < 16)
  | .pfcXoffRepeat port => decide (port < 16)
  | .ingressLookup fp _ => decide (fp < 4)
  | .cacheMissReturn fp _ _ => decide (fp < 4)
  | .switchAdmit inputs => inputs.all (fun i => decide (i < 26))
  | .spillReadbackSelect inp out cls => decide (inp < 26) && decide (out < 26) && decide (cls < 8)
  | .spillReadReturn inp out cls _ => decide (inp < 26) && decide (out < 26) && decide (cls < 8)
  | .slalomCellTime tags => tags.all (fun e => decide (e.output < 26))
  | .lsStagingHead o _ => decide (o < 26)
  | .outputFrameBoundary o _ => decide (o < 26)
  | .shaperConform o cls inst _ => decide (o < 26) && decide (cls < 8) && decide (inst < 4103)
  | .egressPass q _ => q.wf
  | .tephraEntryWrite => true
  | .tephraCfgWrite p _ => p.wf
  | .cipherDispatch src => src.wf
  | .lsPassDispatch => true
  | .passResume engine => decide (engine < 256)
  | .cipherPassComplete engine => decide (engine < 256)
  | .resultRelease _ => true
  | .preemptAbandon engine => decide (engine < 256)
  | .keyLoad slot _ => decide (slot < 65536)
  | .ckptCommit slot => decide (slot < 65536)
  | .engineKatDone engine _ => decide (engine < 256)
  | .workingCopyRestore slot => decide (slot < 65536)
  | .txholdLimit port => decide (port < 16)
  | .recalDue group => decide (group < 4)
  | .recalStart group => decide (group < 4)
  | .recalVerified group => decide (group < 4)
  | .recalTimeout group => decide (group < 4)
  | .recalDeferExpiry group => decide (group < 4)
  | .synthLock group => decide (group < 4)
  | .synthLockTimeout group => decide (group < 4)
  | .synthRelockAttempt group => decide (group < 4)
  | .ethLinkChange port _ => decide (port < 16)
  | .stationEntryWrite p _ => p.wf
  | .stnLoRead p => p.wf
  | .tsInfoPop p port => p.wf && decide (port < 16)
  | .wakePatternRx _ => true
  | .flpIndRead p => p.wf
  | .flpIndWrite p => p.wf
  | .memberBlocksReturn => true
  | .flpInsert p => p.wf
  | .flpDelete p => p.wf
  | .profileQuiesce p profile => p.wf && decide (profile < 64)
  | .profileRun p profile => p.wf && decide (profile < 64)
  | .profileStopped profile => decide (profile < 64)
  | .agingScanBucket => true
  | .ageFifoPop p => p.wf
  | .tmgIndRead p => p.wf
  | .tmgIndWrite p => p.wf
  | .cphIndRead p => p.wf
  | .nearFifoPop p => p.wf
  | .storCmdExecute qp _ _ => decide (qp < 65536)
  | .tcpSegmentRx => true
  | .rtoExpiry conn => decide (conn < 1024)
  | .delayedAckExpiry conn => decide (conn < 1024)
  | .keepaliveProbe conn => decide (conn < 1024)
  | .icrespRx conn => decide (conn < 1024)
  | .pduR2tRx conn => decide (conn < 1024)
  | .c2hdataRx conn => decide (conn < 1024)
  | .capsuleRespRx conn => decide (conn < 1024)
  | .c2htermreqRx conn => decide (conn < 1024)
  | .storCmdTimeout cmd => decide (cmd < 65536)
  | .connectOpenTimeout conn => decide (conn < 1024)
  | .connectionClosed conn => decide (conn < 1024)
  | .journalRecordForm stream => decide (stream < 8192)
  | .journalFlush => true
  | .journalWriteDone => true
  | .anchorCommit => true
  | .autoPlayStart pc => decide (pc < 32)
  | .playBlockOutput pc => decide (pc < 32)
  | .playRepeatEnd pc => decide (pc < 32)
  | .playFadeEnd pc => decide (pc < 32)
  | .strIndRead p => p.wf
  | .strIndWrite p => p.wf
  | .configRequest t _ _ reg _ _ tag => t.wf && decide (reg < 1024) && decide (tag < 16384)
  | .memoryRequest r => r.wf
  | .vendorMessageRx fn _ => functionNumber fn
  | .bmeClear fn => functionNumber fn
  | .bmeSet fn => functionNumber fn
  | .mseWrite fn _ => functionNumber fn
  | .d3hotEntry fn => functionNumber fn
  | .d0Return fn => functionNumber fn
  | .vfFlr vf => decide (vf < 4096)
  | .pfFlr => true
  | .flrComplete fn => functionNumber fn
  | .flrTagQuarantine fn => functionNumber fn
  | .vfEnableSet => true
  | .vfEnableClear => true
  | .numvfsWrite _ => true
  | .slotControlWrite k _ => decide (k < 64)
  | .readCompletionRx fn tag _ => requesterNumber fn && decide (tag < 16384)
  | .completionTimeout tag => decide (tag < 16384)
  | .msixMaskWrite fn vec _ => functionNumber fn && decide (vec < 2048)
  | .linkTrainingDone _ _ _ => true
  | .pcieLinkDown => true
  | .perstAssert => true
  | .perstDeassert => true
  | .hotReset => true
  | .vfmIndRead p _ => p.wf
  | .vfmIndWrite p => p.wf
  | .fnCtlQuiesce p inst => p.wf && decide (inst < 4103)
  | .fnCtlRun p inst => p.wf && decide (inst < 4103)
  | .functionStopped inst => decide (inst < 4103)
  | .quiesceTimeout inst => decide (inst < 4103)
  | .dtuMissFill _ inst _ _ _ _ => decide (inst < 4103)
  | .dtuUnmapComplete inst => decide (inst < 4103)
  | .sqTailWrite fn qp _ => functionNumber fn && decide (qp < 65536)
  | .cqHeadWrite fn qp _ => functionNumber fn && decide (qp < 65536)
  | .cqArmWrite fn qp _ => functionNumber fn && decide (qp < 65536)
  | .geyserWrite fn qp _ => functionNumber fn && decide (qp < 65536)
  | .descriptorFetch qp _ _ => decide (qp < 65537)
  | .txFrame qp _ => decide (qp < 65536)
  | .rxFrameDeliver hport => decide (hport < 2)
  | .descNop qp => decide (qp < 65537)
  | .moderationTimerExpiry qp => decide (qp < 65537)
  | .qctlResetMode0 p qp => p.wf && decide (qp < 65536)
  | .qctlResetMode1 p qp => p.wf && decide (qp < 65536)
  | .queueResetDrained qp _ => decide (qp < 65537)
  | .adminCfgWrite p _ _ => p.wf
  | .adminQueueConfig _ => true
  | .adminQueueReset _ => true
  | .adminVfConfig _ _ => true
  | .adminVfStateQuiesce _ => true
  | .adminVfStateRun _ => true
  | .adminDtuMap _ => true
  | .adminDtuUnmap _ => true
  | .adminTableWrite _ _ => true
  | .adminTableRead _ => true
  | .adminKeyInstall _ _ => true
  | .adminKeyRetire _ _ => true
  | .keyCommitDone => true
  | .adminStorConnect _ _ => true
  | .adminStorDisconnect _ => true
  | .adminStorRaw _ _ _ => true
  | .adminJnlRead _ _ => true
  | .adminPlay _ => true
  | .adminPlayStop _ => true
  | .lsQueueRestore qp => decide (qp < 65536)
  | .channelStart p ch => p.wf && decide (ch < 512)
  | .channelResume p ch => p.wf && decide (ch < 512)
  | .channelAbort p ch => p.wf && decide (ch < 512)
  | .channelAbortDone ch => decide (ch < 512)
  | .channelPauseSet p ch => p.wf && decide (ch < 512)
  | .channelPaused ch => decide (ch < 512)
  | .channelPauseClear p ch => p.wf && decide (ch < 512)
  | .insnNop ch => decide (ch < 512)
  | .insnMove ch => decide (ch < 512)
  | .insnFill ch => decide (ch < 512)
  | .dmaBurstComplete ch _ => decide (ch < 512)
  | .insnLoadi ch => decide (ch < 512)
  | .insnAdd ch => decide (ch < 512)
  | .insnLoad ch _ => decide (ch < 512)
  | .insnStore ch => decide (ch < 512)
  | .insnLoop ch => decide (ch < 512)
  | .insnBranch ch => decide (ch < 512)
  | .insnWait ch => decide (ch < 512)
  | .waitTimeExpiry ch => decide (ch < 512)
  | .insnSignal ch => decide (ch < 512)
  | .insnMode ch => decide (ch < 512)
  | .insnFence ch => decide (ch < 512)
  | .fenceDone ch _ => decide (ch < 512)
  | .insnHalt ch => decide (ch < 512)
  | .haltDone ch => decide (ch < 512)
  | .dmaTimerExpiry n => decide (n < 32)
  | .reqSetWrite p line => p.wf && decide (line < 256)
  | .pmemWordWrite p _ => p.wf
  | .pmemHiRead p => p.wf
  | .poolRequest r => r.wf
  | .poolWaitExpiry _ => true
  | .bufferFree pool _ => decide (pool < 16)
  | .poolRebuild p pool => p.wf && decide (pool < 16)
  | .rebuildDone pool => decide (pool < 16)
  | .poolIndRead p => p.wf
  | .poolIndWrite p => p.wf
  | .loopCycleStart lp => decide (lp < 4)
  | .sweepRx lp _ _ => decide (lp < 4)
  | .sweepReturn lp _ _ => decide (lp < 4)
  | .tokenRx lp _ => decide (lp < 4)
  | .loopFrameRx lp _ _ => decide (lp < 4)
  | .mgmtPlay lp _ => decide (lp < 4)
  | .mgmtPlayStop lp _ => decide (lp < 4)
  | .mgmtReset lp _ => decide (lp < 4)
  | .breakRx lp _ sender => decide (lp < 4) && decide (sender < 1024)
  | .wakeRx lp _ sender _ => decide (lp < 4) && decide (sender < 1024)
  | .pdReqRx lp _ _ => decide (lp < 4)
  | .pdRespRx lp _ _ _ => decide (lp < 4)
  | .pdMeasure lp _ => decide (lp < 4)
  | .loopLockLoss lp _ => decide (lp < 4)
  | .loopUnwrap lp _ => decide (lp < 4)
  | .masterListenTimeout lp => decide (lp < 4)
  | .loopWakeSend p lp _ => p.wf && decide (lp < 4)
  | .loopIndRead p lp => p.wf && decide (lp < 4)
  | .loopIndWrite p lp => p.wf && decide (lp < 4)
  | .gondolaMarkerRx g _ => decide (g < 4)
  | .markerLockLoss g => decide (g < 4)
  | .fabricFrameRx g _ => decide (g < 4)
  | .tlpFrameRx g _ => decide (g < 4)
  | .topoRx g _ => decide (g < 4)
  | .slotFrameRx g _ => decide (g < 4)
  | .replayTimerExpiry g ch => decide (g < 4) && decide (ch < 2)
  | .retrainTimeout g => decide (g < 4)
  | .retrainRelock g => decide (g < 4)
  | .peerDetect g => decide (g < 4)
  | .trainingLock g => decide (g < 4)
  | .trainingTimeout g => decide (g < 4)
  | .verifyTimeout g => decide (g < 4)
  | .verifyRetry g => decide (g < 4)
  | .topoPeriodicSend => true
  | .mapHoldExpiry k => decide (k < 64)
  | .tlpHoldExpiry dst => decide (dst < 64)
  | .casRemoveReq p => p.wf
  | .casMemberReset p member => p.wf && decide (member < 64)
  | .threadInstruction g => decide (g < 256)
  | .threadEvwait g => decide (g < 256)
  | .evwaitDeadline g => decide (g < 256)
  | .threadEvpost g => decide (g < 256)
  | .threadTrap g => decide (g < 256)
  | .threadMret g => decide (g < 256)
  | .svcTimerEvent g => decide (g < 256)
  | .threadRelease by_ target => decide (by_ < 256) && decide (target < 256)
  | .threadHalt by_ target => decide (by_ < 256) && decide (target < 256)
  | .threadHeld g => decide (g < 256)
  | .threadReset by_ target => decide (by_ < 256) && decide (target < 256)
  | .threadResume by_ target => decide (by_ < 256) && decide (target < 256)
  | .setupRegisterWrite by_ target off _ => decide (by_ < 256) && decide (target < 256) && registerOffset off
  | .faultFifoPop p => p.wf
  | .wdogKick p => p.wf
  | .serviceWdogExpiry => true
  | .craterWatchdogExpiry => true
  | .lockstepMismatch => true
  | .doubleTrap => true
  | .craterResume => true
  | .secureState ch => decide (ch < 40)
  | .secureSlotGen ch => decide (ch < 40)
  | .secureAttest ch _ => decide (ch < 40)
  | .secureKeyopAck ch => decide (ch < 40)
  | .tamperAccept => true
  | .zeroiseComplete => true
  | .mbxWordCommit p ch _ => p.wf && decide (ch < 40)
  | .mbxRelease p ch => p.wf && decide (ch < 40)
  | .mbxDbSet p ch _ => p.wf && decide (ch < 40)
  | .mbxDbMaskWrite p ch _ => p.wf && decide (ch < 40)
  | .emptyEnWrite p ch => p.wf && decide (ch < 40)
  | .craterRequestRead => true
  | .mctpWrite _ => true
  | .mctpRead => true
  | .mctpRelease => true
  | .recBegin _ _ => true
  | .recData _ _ => true
  | .recFinish => true
  | .recActivate => true
  | .recStatus => true
  | .mctpSignedReset _ => true
  | .mctpPowerState _ => true
  | .smbErrsrcRead => true
  | .smbArbitrationLost => true
  | .smbSclTimeout => true
  | .imgWrite p => p.wf
  | .imgStagedChecked => true
  | .imgPageWrite => true
  | .imgVerifyDone => true
  | .imgActivate p => p.wf
  | .imgDeactivate p => p.wf
  | .imgVerify p => p.wf
  | .imgConfirm p => p.wf
  | .imgAbort p => p.wf
  | .imageVerified => true
  | .emergencyPathReady => true
  | .configurationReady => true
  | .storeReady => true
  | .fullOperation => true
  | .startFailure _ _ _ => true
  | .startDeadline => true
  | .vin12Good => true
  | .vin12Lost => true
  | .vaux33Good => true
  | .vaux33Lost => true
  | .resetRelease => true
  | .swresetFull p _ => p.wf
  | .swresetService p _ => p.wf
  | .pwrCtlP0 p => p.wf
  | .pwrCtlP1 p => p.wf
  | .pwrCtlP2 p => p.wf
  | .pwrCtlP3 p => p.wf
  | .powerTransitionDone => true
  | .p3Wake source => source.wf
  | .thermalSample _ => true
  | .thermalHoldEnd => true
  | .thermalTripRelease => true
  | .islandClockFault island => decide (island < 108)
  | .scrubSegmentDue => true
  | .scrubLineRead _ _ _ => true
  | .nvmLineWrite _ line _ => decide (line < 256)
  | .owedMoveTick => true
  | .timCfgWrite p _ => p.wf
  | .ptpRateWrite p _ => p.wf
  | .ptpStepWrite p _ => p.wf
  | .slewEnd => true
  | .ptpNsRead p => p.wf
  | .freewheelTimeout => true
  | .eventLogWrite => true
  | .logEntryLoad p _ => p.wf
  | .telemetrySample _ => true
  | .telemetrySnapshot => true
  | .swcIndWrite p => p.wf
  | .swcIndRead p => p.wf
  | .deviceTimeSecond => true
  | .blockLockRegained lp _ => decide (lp < 4)
  | .wakeSignallingEnd lp => decide (lp < 4)
  | .tamperTripCondition source _ => decide (source < 5)

end Sys2Proof
end

