-- ==== Sys2Proof/Tests/Slice0.lean ====
section
/-! SUPPORT. Tests: ill-formed commands that the checks refuse, known answers and worked examples of the spec, and for every statement
with hypotheses a state and operands that meet them. -/

open Sys2Proof Sys2Proof.Machine
namespace Sys2Proof.Tests

set_option maxRecDepth 20000
set_option linter.unusedVariables false
set_option Elab.async false

/-- The subsystems. -/
def tSubs : List Subsystem := [.hep, .vfm, .wqm, .dma, .pool, .swc, .flp, .tmg, .cph, .str, .eth, .loop, .cas, .svc, .crt, .pcr]



/-- A record of the state replaced. -/
def tIdent (f : Ident → Ident) (s : State) : State := { s with ident := f s.ident }
/-- A record of the state replaced. -/
def tAlp (f : Alp → Alp) (s : State) : State := { s with alp := f s.alp }
/-- A record of the state replaced. -/
def tHep (f : Hep → Hep) (s : State) : State := { s with hep := f s.hep }
/-- A record of the state replaced. -/
def tVfm (f : Vfm → Vfm) (s : State) : State := { s with vfm := f s.vfm }
/-- A record of the state replaced. -/
def tWqm (f : Wqm → Wqm) (s : State) : State := { s with wqm := f s.wqm }
/-- A record of the state replaced. -/
def tDma (f : Dma → Dma) (s : State) : State := { s with dma := f s.dma }
/-- A record of the state replaced. -/
def tPool (f : PoolMgr → PoolMgr) (s : State) : State := { s with pool := f s.pool }
/-- A record of the state replaced. -/
def tEth (f : Eth → Eth) (s : State) : State := { s with eth := f s.eth }
/-- A record of the state replaced. -/
def tFlp (f : Flp → Flp) (s : State) : State := { s with flp := f s.flp }

/-- A record of the state replaced. -/
def tSwc (f : Swc → Swc) (s : State) : State := { s with swc := f s.swc }
/-- A record of the state replaced. -/
def tCph (f : Cph → Cph) (s : State) : State := { s with cph := f s.cph }
/-- A record of the state replaced. -/
def tStr (f : Str → Str) (s : State) : State := { s with str := f s.str }
/-- A record of the state replaced. -/
def tLoops (f : LoopBlock → LoopBlock) (s : State) : State := { s with loops := f s.loops }
/-- A record of the state replaced. -/
def tCas (f : Cas → Cas) (s : State) : State := { s with cas := f s.cas }
/-- A record of the state replaced. -/
def tSvc (f : Svc → Svc) (s : State) : State := { s with svc := f s.svc }
/-- A record of the state replaced. -/
def tCrt (f : Crt → Crt) (s : State) : State := { s with crt := f s.crt }
/-- A record of the state replaced. -/
def tMbx (f : Mbx → Mbx) (s : State) : State := { s with mbx := f s.mbx }
/-- A record of the state replaced. -/
def tPcr (f : Pcr → Pcr) (s : State) : State := { s with pcr := f s.pcr }

/-- A record of the state replaced. -/
def tMem (f : Mem → Mem) (s : State) : State := { s with mem := f s.mem }
/-- A record of the state replaced. -/
def tTim (f : Tim → Tim) (s : State) : State := { s with tim := f s.tim }

/-- A running device whose alarm logic, ports and blocks are ready, at 1,000 ns. -/
def tRun : State :=
  { State.reset with now := 1000 } |> tAlp (fun a => { a with pathReady := true }) |> tEth (fun e => { e with ready := true })

/-- Port 15, in use, with link. -/
def tPort (f : EthPort → EthPort) : State :=
  tRun |> setPort 15 (f { EthPort.init with inUse := true, powered := true, link := true })

/-- Lane group 3 in use. -/
def tGroup (f : EthGroup → EthGroup) : State :=
  tRun |> tEth (fun e => { e with groups := mset (fun _ => EthGroup.init) e.groups 3 (f { EthGroup.init with mode := .four100, imageMode := .four100 }) })

/-- A frame of `n` bytes of 7. -/
def tFrame (n : Nat) : Frame := newFrame (List.replicate n 7) 0 5 false 900

/-- A lookup without memory errors. -/
def tEcc : LookupEcc := { bucket := .clean, dflt := .clean, credit := .clean }

/-- Profile 63, where a frame goes that does not parse: its default result sends to SP24. -/
def tLookup (f : Flp → Flp) : State :=
  tRun |> tFlp (fun p => f { p with ready := true, defaults := [(63, [1, 0, 0x28, 0] ++ List.replicate 12 0 ++ [1, 24, 0, 0] ++ List.replicate 12 0)] })

/-- Profile 63 looks up bytes 0–3 of the metadata word. -/
def tExact : List (Nat × List Extract) := [(63, [{ layer := 15, off := 0, len := 4, ternary := false }])]

/-- A view's words. -/
def tWords (p : Party) (off : Nat) (ws : List Word) (s : State) : State := setViewWords p off ws s

/-- A stored frame of one cell in the VOQ of input 25, output 3 and class 5. -/
def tVoq (p : Place) : State :=
  tRun |> tSwc (fun w => { w with
    spillUsed := 1
    voqs := mset (fun _ => Voq.empty) [] (voqKey 25 3 5) { spill := true, frames := [{ frame := tFrame 60, cells := 1, sent := 0, place := p, bad := false, spilled := false, since := 500, arr := 0 }] } })

/-- A key slot for ESP, generation 1. -/
def tSlot : KeySlot :=
  { proto := 3, key256 := false, tx := true, ls := false, near := false, stopped := false, pinned := false, integrity := false,
    limitLog2 := 44, generation := 1, invocations := 0, pn := 0, param := 0, replayWin := 64, seen := 0, anySeen := false,
    high := 16777216, ckpt := false, damaged := false, key := List.replicate 32 1, salt := List.replicate 12 2, passes := 0,
    authFail := 0, replayDrop := 0, limitDrop := 0 }

/-- A tunnel descriptor of a type that ciphers with slot 9. -/
def tDesc (type : Byte) : Bytes := [type, 0, 9, 0] ++ List.replicate 60 0

/-- A frame that waits for a cipher pass. -/
def tWork : CipherWork := { frame := tFrame 60, desc := tDesc 3, enc := true, next := .egress 3 }

/-- A pass on slot 9. -/
def tPass (st : PassState) : Pass :=
  { slot := 9, generation := 1, bound := true, proto := 3, enc := true, ls := false, key := List.replicate 16 1,
    salt := List.replicate 12 2, integrity := false, param := 0, number := 1, frame := tFrame 60, payload := 32, desc := tDesc 3,
    next := .egress 3, state := st, started := 700, suspensions := 0 }

/-- A device whose ciphers run, with slot 9. -/
def tCipher (f : Cph → Cph) : State :=
  tRun |> tCrt (fun c => { c with sec := .operational }) |> tCph (fun c => f { c with ready := true, keysReady := true, slots := [(9, tSlot)] })

/-- A device whose recorder runs. -/
def tRecorder (f : Recorder → Recorder) : State :=
  tRun |> tStr (fun x => { x with ready := true, rec_ := f { Recorder.reset with on := true, nextSeq := 10, high := 100 } })

/-- Play channel 63. -/
def tPlay (f : PlayChannel → PlayChannel) : State :=
  tRun |> tStr (fun x => { x with ready := true, chans := [(63, f PlayChannel.init)] })

/-- A directory entry for message 3: 96 samples, the repeat count and the gap given. -/
def tMsg (repeats gap : Byte) (s : State) : State :=
  s |> tStr (fun x => { x with directory := [(3, List.replicate 8 0 ++ [96, 0, 0, 0, repeats, 0, gap, 0] ++ List.replicate 48 0)] })

/-- Connection 7. -/
def tConn (f : Conn → Conn) : State :=
  tRun |> tStr (fun x => { x with ready := true, conns := [(7, f { Conn.init with state := .ready, tcp := { Tcp.init with established := true } })] })



/-- A storage job of queue pair 100: a read of one block of namespace 1. -/
def tStorJob : Job :=
  { lastPos := 0, descs := [[3, 0x10, 0, 0, 0, 2, 0, 0] ++ List.replicate 24 0 ++ [1, 0, 0, 0, 0, 1] ++ List.replicate 26 0], phase := .waiting,
    data := [], barrier := false }

/-- Function 5 runs, and queue pair 100 is its, with a job in front. -/
def tQueue (f : Queue → Queue) : State :=
  tRun |> tHep (fun h => { h with operational := true, linkUp := true, vfEnable := true, numVfs := 8, fns := [(5, { Func.init with bme := true })] })
    |> tWqm (fun w => { w with queues := [(100, f { Queue.init with state := .run, kind := .stor, inst := 5 })] })

/-- Namespace 1 of function 5 on connection 7. -/
def tNamespace (s : State) : State :=
  s |> tStr (fun x => { x with
    ready := true
    namespaces := [(0, [5, 0x20, 0, 1, 0, 0, 0, 0, 1, 0, 0, 0, 0, 0, 0, 0])]
    map := [(0, [1, 0, 0, 0, 0, 0, 0, 0])]
    bindings := [(0, [7, 0, 0xFF, 0xFF, 0xFF, 0xFF, 0xFF, 0xFF, 1, 0, 0, 0, 9, 0, 0, 0])]
    conns := [(7, { Conn.init with state := .ready, tcp := { Tcp.init with established := true } })] })

/-- A storage command that started at 500 ns. -/
def tCmd (o : CmdOwner) : StorCmd :=
  { owner := o, inst := 5, write := false, nsid := 1, slba := 0, keySlot := 0, dva := 0, len := 512, ro := false, subs := [], wire := [],
    ready := true, plain := none, startedAt := some 500, lastByte := none }

/-- A host with the link up and configuration ready, functions enabled. -/
def tHost (f : Hep → Hep) : State :=
  tRun |> tHep (fun h => f { h with
    linkUp := true, cfgReady := true, operational := true, vfEnable := true, numVfs := 8, perstHigh := true, speed := 6, width := 16
    fns := [(5, { Func.init with bme := true, mse := true }), (pf, { Func.init with bme := true, mse := true })] })

/-- A read of the host under tag 77, for channel 3. -/
def tTag : TagEntry :=
  { fn := 5, purpose := .load 3, len := 8, upTo := 8, got := [], rest := [], issued := 900, timeout := some 50000, abandoned := false, quarantined := false, segs := [], old := false }

/-- A memory request to BAR0. -/
def tMemReq (write : Bool) : MemReq :=
  { target := .bar0, offset := 4, len := 4, write := write, data := if write then [1, 2, 3, 4] else [], poisoned := false, unsupported := false,
    tag := 9 }

/-- A tenant's resource record: queue pairs 100–103, 16 reads. -/
def tRes : ResRecord := { ResRecord.vfDefault with queueBase := 100, queueCount := 4, maxReads := 16, maxTokens := 16, storCmds := 16, storqCount := 1 }

/-- Function 5 may ring the doorbells of queue pair 100 and issue reads. -/
def tRing (f : Queue → Queue) : State :=
  tQueue f |> tHep (fun h => { h with fns := [(5, { Func.init with bme := true, mse := true }), (pf, { Func.init with bme := true, mse := true })] })
    |> setCfg pf 94 0x8 |> tVfm (fun v => { v with records := [(5, tRes)] })

/-- A job with one descriptor. -/
def tJob (d : Bytes) : Job := { lastPos := 0, descs := [slice d 0 64], phase := .waiting, data := [], barrier := false }

/-- A frame of class 6 for function 5. -/
def tRx : Frame := { newFrame (List.replicate 60 7) 0 5 false 900 with cls := 5, qsel := 0 }

/-- A pool of one buffer of 256 bytes for network use. -/
def tPoolOne : Pool :=
  { size := 1, hbm := false, fallback := 0, noFallback := true, use := 1, count := 2, lsMin := 0, coreMin := 0, svcMin := 0,
    stack := [1], fresh := 2, lost := 0 }

/-- A request of function 5 for a receive buffer. -/
def tPoolReq : PoolReq := { id := 9, purpose := .netRx, inst := 5, len := 256, ls := false, link := .clean }

/-- Pool 3 configured. -/
def tPools (p : Pool) (f : PoolMgr → PoolMgr) : State :=
  tRun |> tPool (fun m => f { m with ready := true, pools := [(3, p)] })

/-- An admin descriptor: its opcode, length, address and the bytes from byte 16 on. -/
def tD (op len addr : Nat) (rest : Bytes) : Bytes :=
  slice ([BitVec.ofNat 8 op, 0, 0, 0] ++ toLe 4 len ++ toLe 8 addr ++ rest) 0 64

/-- The admin ring of the host (false) or of the service cores (true) with a command in front, and a second command in execution. -/
def tAdmin (g : Bool) (d : Bytes) : State :=
  tHost id |> tWqm (fun w => { w with queues := [(adminQp g, { Queue.init with
      state := .run, kind := .admin, inst := if g then 4098 else pf, jobs := [tJob d] })] })
    |> tVfm (fun v => { v with records := [(5, tRes), (pf, { tRes with queueBase := 0, queueCount := 4 })], segments := [(64 * pf + 2,
      { dva := 8192, len := 4096, host := 0x200000, read := true, write := true, valid := true, engines := 15, damaged := false })] })
    |> tMem (fun m => { m with svcMib := 1 })

/-- The STR engine is ready with connection 7. -/
def tAdminStor (c : Conn → Conn) (s : State) : State :=
  s |> tStr (fun x => { x with
    ready := true
    directory := [(3, [5, 0, 0, 0, 0, 0, 0, 0, 96, 0, 0, 0] ++ List.replicate 52 0)]
    chans := [(31, { PlayChannel.init with output := 1 })]
    conns := [(7, c { Conn.init with state := .ready, qsize := 8, tcp := { Tcp.init with established := true } })] })

/-- An instruction word: opcode, Ra, Rb, Rc, the F field from bit 17 on and IMM. -/
def tInsn (op ra rb rc f imm : Nat) : DWord :=
  BitVec.ofNat 64 (op + 256 * ra + 2048 * rb + 16384 * rc + 131072 * f + 2 ^ 32 * imm)

/-- Service channel 447 runs at word 2,048, which holds the instruction given; its area reaches to word 2,051. -/
def tCh (w : DWord) (f : Channel → Channel) : State :=
  tRun |> tMem (fun m => { m with svcMib := 1 }) |> tDma (fun d => { d with
    pmem := [(2048, w)]
    chans := [(447, f { Channel.init 447 with state := .run, base := 2048, last := 2051, pc := 2048, c := [4096, 8192, 16777216, 5, 0, 0, 0, 4] })] })

/-- Channel 900 of function 5 runs at word 6,144, which holds the instruction given, and reads and writes host memory. -/
def tHostCh (w : DWord) (f : Channel → Channel) : State :=
  let seg := { dva := 8192, len := 4096, host := 0x200000, read := true, write := true, valid := true, engines := 15, damaged := false }
  let c := { Channel.init 900 with state := .run, inst := 5, base := 6144, last := 6147, pc := 6144, c := [8192, 12288, 0, 0, 0, 0, 0, 4] }
  tHost id |> tVfm (fun v => { v with records := [(5, tRes)], segments := [(64 * 5 + 2, seg)] })
    |> tDma (fun d => { d with pmem := [(6144, w)], chans := [(900, f c)] })

/-- A burst transfer that has not begun. -/
def tXfer (fill : Bool) : Transfer :=
  { fill := fill, bsz := 2, pace := none, sfix := false, dfix := false, ro := false, granted := false, issued := false, data := none }

/-- The bytes of a message under its tag: the first two, the kind, the origin 7, the sequence number 5 and bytes 20 to 27 (R51, R339). -/
def tBody (magic : Nat) (kind : Byte) (fields : Bytes) : Bytes :=
  toBe 2 magic ++ [1, kind] ++ toBe 8 7 ++ [0, 0, 0, 0] ++ toBe 4 5 ++ slice fields 0 8 ++ List.replicate 20 0

/-- A signed message: its tag is that of the key of slot 9. -/
def tSigned (magic : Nat) (kind : Byte) (fields : Bytes) : Bytes :=
  let body := tBody magic kind fields
  body ++ gmac (List.replicate 32 1) (slice body 4 8 ++ slice body 16 4) body

/-- A device that knows originator 7 of emergency messages and of management messages; slot 9 has the key of both. -/
def tSigning : State :=
  tCipher (fun c => { c with slots := [(9, { tSlot with key256 := true })] })
    |> tAlp (fun a => { a with emsgSlot := 9, originators := [{ origin := 7, mayDeclare := true, mayClear := true, mayDrill := true }] })
    |> tCrt (fun c => { c with roles := { c.roles with management := 9 }, mgmtOriginators := [(7, 3)] })
    |> tAdminStor id

/-- A head, Cascade ID 2 of 8 devices, with link 3 as given. -/
def tLink (f : Link → Link) : State :=
  tRun |> tCrt (fun c => { c with sec := .operational }) |> tIdent (fun i => { i with role := .head, cid := 2, devices := 8, tag := 77 })
    |> tCas (fun c => { c with ready := true, links := mset (fun _ => Link.down) [] 3 (f { Link.down with state := .up }) })

/-- A frame that this end has sent and the far end has not acknowledged. -/
def tLinkFrame : LinkFrame := { type := 2, dst := 5, src := 2, local_ := false, payload := [1, 2, 3, 4] }

/-- A marker beat with a good CRC. -/
def tBeat : Bytes :=
  let b := [0xC0, 5, 0, 0, 0, 0xFF, 0x0F, 0, 0xC1, 0, 0, 0, 0, 0, 0, 0, 0xC2, 0, 0xFF, 0x0F, 0, 0, 0, 0, 0xC3, 0, 0, 0, 0, 0]
  b ++ toLe 2 (crc16 b).toNat

/-- The image update as given, on a device with 8 MiB of DEVBUF. -/
def tImage (f : Img → Img) : State :=
  { setRegFld rDMA_DEVBUF_CFG 0 13 8 tRun with img := f State.reset.img }

/-- Selector: bank A runs, a trial of bank B is committed and not used. -/
def tLine : SelectorLine := { activeB := true, trial := true, trialUsed := false, sseq := 4, svnMin := 1 }

/-- A recovery hold that has begun to write bank B. -/
def tRecovery (f : Img → Img) : State :=
  tImage (fun i => f { i with rec_ := some { bankB := true, len := 4352, got := 4348 }, other := .writing })
    |> tPcr (fun p => { p with recoveryHold := true })

/-- Loop port 3 runs. -/
def tLoop (f : LoopPort → LoopPort) : State :=
  tRun |> tLoops (fun l => { l with ports := mset (fun _ => LoopPort.init) [] 3 (f { LoopPort.init with
    on := true, east := { LoopSide.init with lock := true }, west := { LoopSide.init with lock := true } }) })

/-- A sweep from its header fields: bytes 0 to 7, the serial number, and bytes 16 on. -/
def tSweep (a : Bytes) (serial : Nat) (b : Bytes) : Bytes :=
  List.replicate 8 0 ++ sealHeader (slice a 0 8 ++ toBe 8 serial ++ slice b 0 44) ++ List.replicate 56 0

/-- A loop frame to the destination given, from address 2. -/
def tLoopFrame (dst : Nat) : Bytes :=
  let b := toBe 2 dst ++ toBe 2 2 ++ [0, 0] ++ toBe 2 8 ++ List.replicate 8 9
  [0, 3, 0, 0, 0, 0, 0, 0] ++ b ++ toBe 4 (crc32c b).toNat ++ List.replicate 12 0

/-- A mailbox channel as given. -/
def tMail (ch : Nat) (f : MbxChan → MbxChan) : State :=
  tRun |> tMbx (fun m => { m with chans := mset (fun _ => MbxChan.init) [] ch (f MbxChan.init) })

/-- P-384's generator: the public key of the private key 1. -/
def tOwner : Bytes := toBe 48 gx384 ++ toBe 48 gy384

/-- The nonzero bytes of a signed body of 1,280 bytes: IMAGE_VER 7, and the six sections that every image has, of length 0. -/
def tImageBody : Map Byte :=
  [(0, 77), (1, 69), (2, 86), (3, 79), (4, 1), (7, 1), (8, 7), (21, 5), (36, 6), (256, 1), (258, 1), (272, 2), (274, 1), (288, 3),
   (290, 1), (304, 4), (306, 1), (320, 5), (322, 1), (336, 7), (338, 1)]

/-- The signature block over that body. -/
def tImageSig : Bytes :=
  toLe 4 0x4749534D ++ tOwner
    ++ toBe 48 0x8d999057ba3d2d969260045c55b97f089025959a6f434d651d207d19fb96e9e4fe0e86ebe0e64f85b96a9c75295df61
    ++ toBe 48 0x44c2523b7d77ac2b8be77a54d17c501ae4b1ab51af926b78ff9bec93e768cb8ff7395f93a9f6c500195cfbf2f9926ad2

/-- Bank A holds that image, and OTP names its owner key. -/
def tSigned384 (s : State) : State :=
  s |> tMem (fun m => { m with banks := tImageBody ++ ((List.range 196).map (fun k => (4096 + k, tImageSig.getD k 0))).filter (fun e => e.2 ≠ 0) })
    |> tCrt (fun c => { c with ownerKeys := [toBe 48 0xa19d4db171b582eb8052b0cfe555e17894aa22d1c8a9770950697dd8f796d2fa4bf0a56ad80006b7ea08e1191f814b65] })

/-- The power and reset unit as given. -/
def tPower (f : Pcr → Pcr) : State := tPcr (fun p => f { p with fullOp := true }) tRun

/-- P3, held. -/
def tP3 : State := tPower (fun p => { p with power := .p3, phase := .held })

/-- A start under way. -/
def tStart (f : Pcr → Pcr) : State := tRun |> tPcr f

/-- A secure channel whose request Crater has taken. -/
def tTaken (ch : Nat) (w : DWord) (s : State) : State := tMbx (fun m => { m with taken := [(ch, w)] }) s

/-- Thread 255 runs at address 256, where the code region holds the word given; thread 8 is a master and thread 9 runs. -/
def tThread (w : Nat) (f : Thread → Thread) : State :=
  tRun |> tMem (fun m => { m with svcMib := 1, svc := storeBytes [] 256 (toLe 4 w) }) |> tSvc (fun v => { v with
    ready := true
    codeEnd := 4096
    threads := [(8, { Thread.init 8 with state := .run, master := true }), (9, { Thread.init 9 with state := .run, pc := 512 }),
      (255, f { Thread.init 255 with state := .run, pc := 256, tsb := 0x8000, x := [(6, 5), (7, 0xFFFFFFFFFFFFFFFF)] })] })

/-- An event log entry: its flags. -/
def tEntry (flags : Byte) : Bytes := [5, 0, 0, flags] ++ List.replicate 60 0


/-- A frame of no bytes. -/
def emptyRx : RxFrame := { bytes := [], fcsGood := true, fecCorr := 0, fecUncorr := false, at_ := 0 }

/-- A request of the PF. -/
def corePoolReq : PoolReq := { id := 0, purpose := .core, inst := 4096, len := 0, ls := false, link := .clean }

/-- A read of BAR0. -/
def bar0Read : MemReq :=
  { target := .bar0, offset := 0, len := 4, write := false, data := [], poisoned := false, unsupported := false, tag := 0 }

/-- The checks of the operands' types. -/
theorem test_wf_operands : (Party.wf (.service 256) || EmsgPath.wf (.loop 4) || EmsgPath.wf (.cascade 4) || CfgTarget.wf (.vf 4096)
    || CfgTarget.wf (.downstream 64) || CfgTarget.wf (.member 64 0) || CfgTarget.wf (.member 0 8192) || MemTarget.wf (.vfBar0 4096)
    || MemTarget.wf (.member 64) || MemReq.wf { bar0Read with tag := 16384 } || MemReq.wf { bar0Read with write := true }
    || MemReq.wf { bar0Read with target := .member 64 } || WakeSource.wf (.loop 4) || EgressFrom.wf (.output 26)
    || EgressFrom.wf (.outputLs 26) || EgressFrom.wf (.host 2) || CipherFrom.wf (.handover 4 .clean) || PoolReq.wf { corePoolReq with inst := 4103 }
    || registerOffset 0x1400000 || registerOffset 2 || functionNumber 4097 || functionNumber 8190 || functionNumber 8256 || requesterNumber 4259840 || requesterNumber 69633) = false
    ∧ (Party.wf (.service 255) && EmsgPath.wf (.loop 3) && CfgTarget.wf (.member 63 8191) && MemReq.wf bar0Read && WakeSource.wf (.loop 3)
    && EgressFrom.wf (.host 1) && PoolReq.wf { corePoolReq with inst := 4102 } && registerOffset 0x13FFFFC && functionNumber 8255 && requesterNumber 4202559) = true := by decide

/-- A command with one operand out of its range is refused. -/
theorem test_ill_formed_1 : ([
    .registerWrite (.service 256) 0 0, .registerWrite .host 2 0, .counterLowRead (.service 256) 0, .counterLowRead .host 2,
    .eventMaskWrite (.service 256) 0 0, .eventMaskWrite .host 2 0, .emsgDeclare (.cascade 4) [] 0, .emsgClear (.cascade 4) [] 0,
    .emsgDrillStart (.cascade 4) [] 0, .emsgDrillEnd (.cascade 4) [] 0, .drillCtlStart (.service 256),
    .drillCtlStop (.service 256), .parameterSweep [4097], .ethFrameReceive 16 emptyRx, .pfcFrameRx 16 0 [], .pfcPauseExpiry 16,
    .pfcXoffRepeat 16, .ingressLookup 4 tEcc, .cacheMissReturn 4 0 tEcc, .switchAdmit [26], .spillReadbackSelect 26 0 0,
    .spillReadbackSelect 0 26 0, .spillReadbackSelect 0 0 8, .spillReadReturn 26 0 0 .clean, .spillReadReturn 0 26 0 .clean,
    .spillReadReturn 0 0 8 .clean, .slalomCellTime [{ output := 26, ecc := .clean }], .lsStagingHead 26 [],
    .outputFrameBoundary 26 [], .shaperConform 26 0 0 [], .shaperConform 0 8 0 [], .shaperConform 0 0 4103 [],
    .egressPass (.host 2) tEcc, .tephraCfgWrite (.service 256) 0, .cipherDispatch (.handover 4 .clean), .passResume 256,
    .cipherPassComplete 256, .preemptAbandon 256, .keyLoad 65536 .clean, .ckptCommit 65536, .engineKatDone 256 true,
    .workingCopyRestore 65536, .txholdLimit 16, .recalDue 4, .recalStart 4, .recalVerified 4, .recalTimeout 4,
    .recalDeferExpiry 4, .synthLock 4, .synthLockTimeout 4] : List Instr).all (fun c => !c.wf) = true := by decide

/-- A command with one operand out of its range is refused. -/
theorem test_ill_formed_2 : ([
    .synthRelockAttempt 4, .ethLinkChange 16 true, .stationEntryWrite (.service 256) 0, .stnLoRead (.service 256),
    .tsInfoPop (.service 256) 0, .tsInfoPop .host 16, .flpIndRead (.service 256), .flpIndWrite (.service 256),
    .flpInsert (.service 256), .flpDelete (.service 256), .profileQuiesce (.service 256) 0, .profileQuiesce .host 64,
    .profileRun (.service 256) 0, .profileRun .host 64, .profileStopped 64, .ageFifoPop (.service 256),
    .tmgIndRead (.service 256), .tmgIndWrite (.service 256), .cphIndRead (.service 256), .nearFifoPop (.service 256),
    .storCmdExecute 65536 .ur .clean, .rtoExpiry 1024, .delayedAckExpiry 1024, .keepaliveProbe 1024, .icrespRx 1024,
    .pduR2tRx 1024, .c2hdataRx 1024, .capsuleRespRx 1024, .c2htermreqRx 1024, .storCmdTimeout 65536, .connectOpenTimeout 1024,
    .connectionClosed 1024, .journalRecordForm 8192, .autoPlayStart 32, .playBlockOutput 32, .playRepeatEnd 32, .playFadeEnd 32,
    .strIndRead (.service 256), .strIndWrite (.service 256), .configRequest (.vf 4096) true true 0 0 0 0,
    .configRequest .pf true true 1024 0 0 0, .configRequest .pf true true 0 0 0 16384,
    .memoryRequest { bar0Read with tag := 16384 }, .vendorMessageRx 4097 true, .bmeClear 4097, .bmeSet 4097, .mseWrite 4097 true,
    .d3hotEntry 4097, .d0Return 4097, .vfFlr 4096] : List Instr).all (fun c => !c.wf) = true := by decide

/-- A command with one operand out of its range is refused. -/
theorem test_ill_formed_3 : ([
    .flrComplete 4097, .flrTagQuarantine 4097, .slotControlWrite 64 0, .readCompletionRx 4259840 0 .ur,
    .readCompletionRx 0 16384 .ur, .completionTimeout 16384, .msixMaskWrite 4097 0 true, .msixMaskWrite 0 2048 true,
    .vfmIndRead (.service 256) .clean, .vfmIndWrite (.service 256), .fnCtlQuiesce (.service 256) 0, .fnCtlQuiesce .host 4103,
    .fnCtlRun (.service 256) 0, .fnCtlRun .host 4103, .functionStopped 4103, .quiesceTimeout 4103,
    .dtuMissFill .key 4103 0 0 true .clean, .dtuUnmapComplete 4103, .sqTailWrite 4097 0 0, .sqTailWrite 0 65536 0,
    .cqHeadWrite 4097 0 0, .cqHeadWrite 0 65536 0, .cqArmWrite 4097 0 0, .cqArmWrite 0 65536 0, .geyserWrite 4097 0 [],
    .geyserWrite 0 65536 [], .descriptorFetch 65537 .ur .clean, .txFrame 65536 .ur, .rxFrameDeliver 2, .descNop 65537,
    .moderationTimerExpiry 65537, .qctlResetMode0 (.service 256) 0, .qctlResetMode0 .host 65536, .qctlResetMode1 (.service 256) 0,
    .qctlResetMode1 .host 65536, .queueResetDrained 65537 [], .adminCfgWrite (.service 256) true 0, .lsQueueRestore 65536,
    .channelStart (.service 256) 0, .channelStart .host 512, .channelResume (.service 256) 0, .channelResume .host 512,
    .channelAbort (.service 256) 0, .channelAbort .host 512, .channelAbortDone 512, .channelPauseSet (.service 256) 0,
    .channelPauseSet .host 512, .channelPaused 512, .channelPauseClear (.service 256) 0, .channelPauseClear .host 512] : List Instr).all (fun c => !c.wf) = true := by decide

/-- A command with one operand out of its range is refused. -/
theorem test_ill_formed_4 : ([
    .insnNop 512, .insnMove 512, .insnFill 512, .dmaBurstComplete 512 .ur, .insnLoadi 512, .insnAdd 512, .insnLoad 512 .ur,
    .insnStore 512, .insnLoop 512, .insnBranch 512, .insnWait 512, .waitTimeExpiry 512, .insnSignal 512, .insnMode 512,
    .insnFence 512, .fenceDone 512 .ur, .insnHalt 512, .haltDone 512, .dmaTimerExpiry 32, .reqSetWrite (.service 256) 0,
    .reqSetWrite .host 256, .pmemWordWrite (.service 256) 0, .pmemHiRead (.service 256),
    .poolRequest { corePoolReq with inst := 4103 }, .bufferFree 16 0, .poolRebuild (.service 256) 0, .poolRebuild .host 16,
    .rebuildDone 16, .poolIndRead (.service 256), .poolIndWrite (.service 256), .loopCycleStart 4, .sweepRx 4 true [],
    .sweepReturn 4 true [], .tokenRx 4 true, .loopFrameRx 4 true [], .mgmtPlay 4 [], .mgmtPlayStop 4 [], .mgmtReset 4 [],
    .breakRx 4 true 0, .breakRx 0 true 1024, .wakeRx 4 true 0 0, .wakeRx 0 true 1024 0, .pdReqRx 4 true 0, .pdRespRx 4 true 0 0,
    .pdMeasure 4 true, .loopLockLoss 4 true, .loopUnwrap 4 true, .masterListenTimeout 4, .loopWakeSend (.service 256) 0 0,
    .loopWakeSend .host 4 0] : List Instr).all (fun c => !c.wf) = true := by decide

/-- A command with one operand out of its range is refused. -/
theorem test_ill_formed_5 : ([
    .loopIndRead (.service 256) 0, .loopIndRead .host 4, .loopIndWrite (.service 256) 0, .loopIndWrite .host 4,
    .gondolaMarkerRx 4 [], .markerLockLoss 4, .fabricFrameRx 4 [], .tlpFrameRx 4 [], .topoRx 4 [], .slotFrameRx 4 [],
    .replayTimerExpiry 4 0, .replayTimerExpiry 0 2, .retrainTimeout 4, .retrainRelock 4, .peerDetect 4, .trainingLock 4,
    .trainingTimeout 4, .verifyTimeout 4, .verifyRetry 4, .mapHoldExpiry 64, .tlpHoldExpiry 64, .casRemoveReq (.service 256),
    .casMemberReset (.service 256) 0, .casMemberReset .host 64, .threadInstruction 256, .threadEvwait 256, .evwaitDeadline 256,
    .threadEvpost 256, .threadTrap 256, .threadMret 256, .svcTimerEvent 256, .threadRelease 256 0, .threadRelease 0 256,
    .threadHalt 256 0, .threadHalt 0 256, .threadHeld 256, .threadReset 256 0, .threadReset 0 256, .threadResume 256 0,
    .threadResume 0 256, .setupRegisterWrite 256 0 0 0, .setupRegisterWrite 0 256 0 0, .setupRegisterWrite 0 0 2 0,
    .faultFifoPop (.service 256), .wdogKick (.service 256), .secureState 40, .secureSlotGen 40, .secureAttest 40 .ur,
    .secureKeyopAck 40, .mbxWordCommit (.service 256) 0 0] : List Instr).all (fun c => !c.wf) = true := by decide

/-- A command with one operand out of its range is refused. -/
theorem test_ill_formed_6 : ([
    .mbxWordCommit .host 40 0, .mbxRelease (.service 256) 0, .mbxRelease .host 40, .mbxDbSet (.service 256) 0 0,
    .mbxDbSet .host 40 0, .mbxDbMaskWrite (.service 256) 0 0, .mbxDbMaskWrite .host 40 0, .emptyEnWrite (.service 256) 0,
    .emptyEnWrite .host 40, .imgWrite (.service 256), .imgActivate (.service 256), .imgDeactivate (.service 256),
    .imgVerify (.service 256), .imgConfirm (.service 256), .imgAbort (.service 256), .swresetFull (.service 256) 0,
    .swresetService (.service 256) 0, .pwrCtlP0 (.service 256), .pwrCtlP1 (.service 256), .pwrCtlP2 (.service 256),
    .pwrCtlP3 (.service 256), .p3Wake (.loop 4), .islandClockFault 108, .nvmLineWrite .system 256 0,
    .timCfgWrite (.service 256) 0, .ptpRateWrite (.service 256) 0, .ptpStepWrite (.service 256) 0, .ptpNsRead (.service 256),
    .logEntryLoad (.service 256) 0, .swcIndWrite (.service 256), .swcIndRead (.service 256), .blockLockRegained 4 true,
    .wakeSignallingEnd 4, .tamperTripCondition 5 true] : List Instr).all (fun c => !c.wf) = true := by decide

theorem gmac_length (k iv d : Bytes) : (gmac k iv d).length = 16 := by rw [gmac, gcmTag, toBe_length]

theorem tBody_length (magic : Nat) (kind : Byte) (fields : Bytes) : (tBody magic kind fields).length = 48 := by simp [tBody]

/-- The tag of a signed message verifies where slot 9's key is the one of the tests. -/
theorem tSigned_good {s : State} {slot : Nat} (magic : Nat) (kind : Byte) (fields : Bytes) (h : slotKey s slot = some (List.replicate 32 1)) :
    tagGood s slot (tSigned magic kind fields) = true := by
  have hl := tBody_length magic kind fields
  have h1 (o n : Nat) (hn : o + n ≤ 48) : slice (tSigned magic kind fields) o n = slice (tBody magic kind fields) o n :=
    slice_append_left _ _ (by omega)
  have h2 : slice (tSigned magic kind fields) 48 16
      = gmac (List.replicate 32 1) (slice (tBody magic kind fields) 4 8 ++ slice (tBody magic kind fields) 16 4) (tBody magic kind fields) := by
    unfold tSigned
    rw [slice_append_right _ _ (by omega), hl]
    exact slice_zero (gmac_length _ _ _)
  unfold tagGood
  rw [h, h2, h1 4 8 (by omega), h1 16 4 (by omega), h1 0 48 (by omega), slice_zero hl]
  exact decide_eq_true rfl

theorem tSigning_key : slotKey tSigning tSigning.alp.emsgSlot = some (List.replicate 32 1)
    ∧ slotKey tSigning tSigning.crt.roles.management = some (List.replicate 32 1) := by decide +kernel


theorem tSweep_header (a : Bytes) (serial : Nat) (b : Bytes) :
    sweepHeader (tSweep a serial b) = sealHeader (slice a 0 8 ++ toBe 8 serial ++ slice b 0 44) := by
  unfold sweepHeader tSweep
  rw [slice_append_left _ _ (by simp [sealHeader]), slice_append_right _ _ (by simp)]
  exact slice_zero (by simp [sealHeader])

theorem sealHeader_body {x : Bytes} (h : x.length = 60) : sealHeader x = x ++ toBe 4 (crc32c x).toNat := by
  unfold sealHeader; rw [slice_zero h]

/-- A sealed header carries its CRC. -/
theorem sealHeader_crc {x : Bytes} (h : x.length = 60) :
    beAt (sealHeader x) 60 4 = (crc32c (slice (sealHeader x) 0 60)).toNat := by
  rw [sealHeader_body h]
  unfold beAt
  rw [slice_append_right _ _ (by omega), h, slice_append_left _ _ (by omega), slice_zero h, slice_zero (toBe_length _ _), beNat_toBe]
  have := (crc32c x).isLt
  omega

theorem tSweep_serial (a : Bytes) (serial : Nat) (b : Bytes) (h : serial < 2 ^ 64) :
    beAt (sweepHeader (tSweep a serial b)) 8 8 = serial := by
  rw [tSweep_header, sealHeader_body (by simp)]
  unfold beAt
  rw [slice_append_left _ _ (by simp), slice_append_left _ _ (by simp), slice_append_right _ _ (by simp), slice_length]
  rw [slice_zero (by simp), beNat_toBe]
  omega

theorem tSweep_good {a : Bytes} {serial : Nat} {b : Bytes} (h0 : byteAt (sweepHeader (tSweep a serial b)) 0 = 1)
    (h1 : slotOffset (tSweep a serial b) (beAt (sweepHeader (tSweep a serial b)) 6 2 % 1024 + 1) + 8 ≤ (tSweep a serial b).length) :
    sweepGood (tSweep a serial b) = true := by
  have h2 := sealHeader_crc (x := slice a 0 8 ++ toBe 8 serial ++ slice b 0 44) (by simp)
  rw [← tSweep_header] at h2
  simp only [sweepGood, h0, h1, h2, decide_true, Bool.and_true]

/-- A loop port that sources cycle 5 and has sent its sweep east. -/
def tSource : State := tLoop (fun x => { x with sourcing := true, cycleNo := 5, east := { x.east with sentAt := some 900 } })

/-- Its own sweep as it comes back. -/
def tOwnSweep : Bytes := tSweep [1, 0, 0, 0, 0, 5, 0, 1] Config.serial.toNat []


theorem test_meets_AlarmStateCommandsComplete_entryDone :
    let levels := tSubs.foldl (fun m b => mset (fun _ => .normal) m (subsystemNumber b) .drill) []
    let s := tRun |> tAlp (fun a => { a with state := .drill, entryOwed := true, levels := levels })
    s.tablesWf = true ∧ s.alp.entryOwed = true ∧ s.alp.state ≠ .normal ∧ s.crt.restarting = false ∧ ∀ b, levelAt s b = s.alp.state := by
  refine ⟨by decide +kernel, by decide +kernel, by decide +kernel, by decide +kernel, fun b => ?_⟩
  cases b <;> decide +kernel

theorem test_meets_SignedMessageCommandsComplete :
    (tSigning.tablesWf = true ∧ tSigning.crt.restarting = false ∧ tSigning.alp.pathReady = true ∧ isRunning tSigning = true
      ∧ smbAnswers tSigning = true ∧ emsgArrives .eth tSigning = some tSigning) ∧
    (∀ k ∈ ([1, 2, 3, 4] : List Byte), emsgReject tSigning (tSigned 0xE5A1 k []) = none ∧ emsgKind (tSigned 0xE5A1 k []) = k.toNat) ∧
    (let s := tSigning |> tAlp (fun a => { a with originators := [] }); let m := tSigned 0xE5A1 1 []
      s.tablesWf = true ∧ s.crt.restarting = false ∧ s.alp.pathReady = true ∧ emsgArrives .eth s = some s ∧ emsgReject s m = some 2
        ∧ emsgKind m = 1) ∧
    (let m := tSigned 0xE5A2 1 [31, 0, 0, 3];
      mgmtRejected tSigning m = false ∧ mgmtKind m = 1
        ∧ playRefusal (keepMgmtSeq m tSigning) (byteAt m 20) (beAt m 22 2) = none) ∧
    (let m := tSigned 0xE5A2 2 [31, 0, 0, 0];
      mgmtRejected tSigning m = false ∧ mgmtKind m = 2 ∧ stopRefusal (keepMgmtSeq m tSigning) (byteAt m 20) = none) ∧
    ∀ l ∈ ([1, 3] : List Byte), mgmtRejected tSigning (tSigned 0xE5A2 3 [0, 0, 0, 0, 0, 0, 0, l]) = false
      ∧ mgmtKind (tSigned 0xE5A2 3 [0, 0, 0, 0, 0, 0, 0, l]) = 3 := by
  have he (k : Byte) := tSigned_good 0xE5A1 k [] tSigning_key.1
  have hm (k : Byte) (f : Bytes) := tSigned_good 0xE5A2 k f tSigning_key.2
  refine ⟨⟨by decide +kernel, by decide +kernel, by decide +kernel, by decide +kernel, by decide +kernel, rfl⟩, ?_,
    ⟨by decide +kernel, by decide +kernel, by decide +kernel, rfl, by decide +kernel, by decide +kernel⟩, ?_, ?_, ?_⟩
  · unfold emsgReject
    simp only [he]
    decide +kernel
  · unfold mgmtRejected
    simp only [hm]
    decide +kernel
  · unfold mgmtRejected
    simp only [hm]
    decide +kernel
  · unfold mgmtRejected
    simp only [hm]
    decide +kernel

/-- A sweep of another master, whichever serial number the device has. -/
theorem test_meets_LoopFrameCommandsComplete_conflict :
    let s := tLoop (fun x => { x with sourcing := true })
    s.tablesWf = true ∧ loopRuns s 3 = true ∧ ((getLoop s 3).side true).lock = true ∧ (getLoop s 3).sourcing = true
      ∧ ∃ f, sweepGood f = true ∧ (sweepTuple f).serial ≠ Config.serial.toNat := by
  refine ⟨by decide +kernel, by decide +kernel, by decide +kernel, by decide +kernel, ?_⟩
  have h0 : sweepGood (tSweep [1, 1, 2, 9, 0, 5, 0, 1] 0 []) = true ∧ (sweepTuple (tSweep [1, 1, 2, 9, 0, 5, 0, 1] 0 [])).serial = 0 := by
    decide +kernel
  have h1 : sweepGood (tSweep [1, 1, 2, 9, 0, 5, 0, 1] 1 []) = true ∧ (sweepTuple (tSweep [1, 1, 2, 9, 0, 5, 0, 1] 1 [])).serial = 1 := by
    decide +kernel
  by_cases h : Config.serial.toNat = 0
  · exact ⟨_, h1.1, by rw [h1.2, h]; decide⟩
  · exact ⟨_, h0.1, by rw [h0.2]; omega⟩

/-- The sweep that the device has sent comes back. -/
theorem test_meets_LoopFrameCommandsComplete_return :
    tSource.tablesWf = true ∧ loopRuns tSource 3 = true ∧ (getLoop tSource 3).sourcing = true ∧ sweepGood tOwnSweep = true
      ∧ sweepTuple tOwnSweep = ownTuple tSource 3
      ∧ ((getLoop tSource 3).side (nbit (byteAt (sweepHeader tOwnSweep) 1) 0)).sentAt = some 900
      ∧ beAt (sweepHeader tOwnSweep) 4 2 = (getLoop tSource 3).cycleNo ∧ tSource.now < 900 + cycleLen tSource 3 := by
  refine ⟨by decide +kernel, by decide +kernel, by decide +kernel, tSweep_good (by decide +kernel) (by decide +kernel), ?_,
    by decide +kernel, by decide +kernel, by decide +kernel⟩
  have h1 : beAt (sweepHeader tOwnSweep) 16 4 = (getReg tSource (rLOOP_EPOCH 3)).toNat := by decide +kernel
  have h2 : byteAt (sweepHeader tOwnSweep) 3 = regFld tSource (rLOOP_CFG 3) 14 8 := by decide +kernel
  have h3 : beAt (sweepHeader tOwnSweep) 8 8 = Config.serial.toNat := tSweep_serial _ _ _ Config.serial.isLt
  rw [sweepTuple, h1, h2, h3]
  rfl

theorem bankFault_run {s : State} (b : Bool) (h : msorted s.mem.banks = true) :
    bankFault s b = imageFault s bankSize (fun o n => loadRun n (bankBase b + o) s.mem.banks) := by
  unfold bankFault
  congr 1
  funext o n
  exact (loadRun_eq n _ h).symm

/-- A start with an image that its owner has signed in bank A. -/
theorem test_meets_StartCommandsComplete_verify :
    let s := tSigned384 (tStart id)
    let u := beginStart (reachTime (s.pcr.startAt + 20000000) s)
    s.tablesWf = true ∧ startRuns s = true ∧ s.pcr.imageVerified = false ∧ bankFault (startBank u).2 (startBank u).1 = none := by
  refine ⟨by decide +kernel, by decide +kernel, by decide +kernel, ?_⟩
  rw [bankFault_run _ (by decide +kernel)]
  decide +kernel

/-- Whether a command answers a next state. -/
def tNext (c : Instr) (s : State) : Bool := match exec c s with | .next _ => true | _ => false

theorem tNext_spec {c : Instr} {s : State} (h : tNext c s = true) : ∃ t, exec c s = .next t := by
  unfold tNext at h
  split at h
  · exact ⟨_, by assumption⟩
  · cases h

theorem test_meets_StepRunsFrontCommand : tRun.pending = [] ∧ tRun.pcr.vaux33 = true
    ∧ (tPcr (fun p => { p with vaux33 := false }) tRun).pending = []
    ∧ (tPcr (fun p => { p with vaux33 := false }) tRun).pcr.vaux33 = false := by decide +kernel

theorem test_meets_CommandsKeepQueueTraceAndTime : (∃ t, exec .telemetrySnapshot tRun = .next t) ∧ Instr.telemetrySnapshot ≠ .vaux33Good :=
  ⟨tNext_spec (by decide +kernel), by decide⟩

/-- A state with every table in use by the command in front of the queue. -/
def tStep : State := { tCh (tInsn 6 3 0 0 0 0xFFFFFFF8) (fun c => { c with dst := 2 }) with pending := [.insnStore 447, .holdoverExpiry] }

theorem test_meets_StepsKeep : tStep.memoriesWf = true ∧ tStep.registersWf = true ∧ tStep.tablesWf = true ∧ ∃ t, step tStep = .next t := by
  refine ⟨by decide +kernel, by decide +kernel, by decide +kernel, ?_⟩
  have h : step tStep = exec (.insnStore 447) { tStep with pending := [.holdoverExpiry] } := rfl
  rw [h]
  exact tNext_spec (by decide +kernel)

theorem test_meets_HostCommandFrames : sideOf (.insnStore 447) = .host ∧ ∃ t, exec (.insnStore 447) tStep = .next t :=
  ⟨by decide +kernel, tNext_spec (by decide +kernel)⟩

theorem test_meets_FabricCommandFrames : sideOf (.trainingTimeout 3) = .fabric
    ∧ ∃ t, exec (.trainingTimeout 3) (tLink (fun l => { l with state := .training, since := 500 })) = .next t :=
  ⟨by decide +kernel, tNext_spec (by decide +kernel)⟩

theorem test_meets_PlatformCommandFrames : sideOf .telemetrySnapshot = .platform ∧ ∃ t, exec .telemetrySnapshot tRun = .next t :=
  ⟨by decide +kernel, tNext_spec (by decide +kernel)⟩

/-- Channel stores to service memory, near its end and elsewhere. -/
theorem test_meets_StoresTouchTheirBytesOnly_channel :
    (∃ w, nextInsn tStep 447 = some w ∧ ((getCh tStep 447).creg (insnRb w) + insnSimm w).toNat = 4088 ∧ nbits w.toNat 0 8 = 6
      ∧ insnFOnly w 0 = true) ∧ tStep.memoriesWf = true ∧ msorted tStep.mem.svc = true ∧ (getCh tStep 447).dst = 2
      ∧ inSvcMemory tStep 4088 8 = true ∧ ∃ t, exec (.insnStore 447) tStep = .next t :=
  ⟨⟨tInsn 6 3 0 0 0 0xFFFFFFF8, by decide +kernel⟩, by decide +kernel, by decide +kernel, by decide +kernel, by decide +kernel,
    tNext_spec (by decide +kernel)⟩

/-- A snapshot, a page of an image, and recovery data. -/
theorem test_meets_StoresTouchTheirBytesOnly_others :
    (∃ t, exec .telemetrySnapshot (tMem (fun m => { m with svcMib := 1 }) tRun) = .next t)
    ∧ (∃ t, exec .imgPageWrite (tImage (fun i => { i with job := some (.pages 0 8192 4096) })) = .next t)
    ∧ (∃ t, exec (.recData 4348 [1, 2, 3, 4]) (tRecovery id) = .next t) :=
  ⟨tNext_spec (by decide +kernel), tNext_spec (by decide +kernel), tNext_spec (by decide +kernel)⟩

theorem test_meets_CountersWrap : tSigning.tablesWf = true := by decide +kernel

/-- A message of each kind from an originator that the device does not know. -/
theorem test_meets_FailedMessagesAreRejected :
    let s := tSigning |> tAlp (fun a => { a with originators := [] })
    s.tablesWf = true ∧ s.crt.restarting = false ∧ s.alp.pathReady = true ∧ emsgArrives .eth s = some s
      ∧ ∀ k ∈ [1, 2, 3, 4], rowKind k (tSigned 0xE5A1 (BitVec.ofNat 8 k) []) = true
        ∧ alreadyApplied .eth (tSigned 0xE5A1 (BitVec.ofNat 8 k) []) s = false
        ∧ emsgReject s (tSigned 0xE5A1 (BitVec.ofNat 8 k) []) = some 2 :=
  ⟨by decide +kernel, by decide +kernel, by decide +kernel, rfl, by decide +kernel⟩

/-- A trap to an illegal word, with a save block outside the region, and while TSB_BUSY is 1; and an interrupt that is due. -/
theorem test_meets_FailedTrapsParkTheThread :
    (∀ f ∈ [fun t : Thread => { t with tsb := 0x8001 }, fun t : Thread => { t with busy := true }],
      let s := tThread 0 f |> tSvc (fun v => { v with threads := minsert v.threads 0 { Thread.init 0 with state := .run } })
      s.tablesWf = true ∧ threadIssues s 255 = true ∧ (getThread s 255).interruptDue = false ∧ (getThread s 0).state ≠ .off
        ∧ (match rvStep 255 s with | .error _ => true | _ => false) = true
        ∧ ((getThread s 255).busy = false → (getThread s 255).tsbOk = false)) ∧
    (let s := tThread 0 (fun t => { t with csr := [(0x300, 8), (0x304, 2048), (csrSvcev, 1), (csrSvcevmask, 1)] });
      s.tablesWf = true ∧ threadIssues s 255 = true ∧ (getThread s 255).interruptDue = true ∧ (getThread s 255).tsbOk = false) := by
  decide +kernel

theorem test_meets_ResumeCompletesTheTrap :
    (∀ f ∈ [fun t : Thread => { t with state := .faultedUnsaved, shadowCause := 2, regionBase := 0x8000, regionLimit := 0x81FF },
        fun t : Thread => { t with state := .faultedUnsaved, shadowCause := 2, regionBase := 0x8200 }],
      let s := tThread 0 f
      s.tablesWf = true ∧ isMaster s 8 = true ∧ mayCommand 8 255 = true ∧ (getThread s 255).state = .faultedUnsaved
        ∧ (getThread s 255).busy = false)
    ∧ (getThread (tThread 0 (fun t => { t with regionBase := 0x8000, regionLimit := 0x81FF })) 255).tsbOk = true
    ∧ (getThread (tThread 0 (fun t => { t with regionBase := 0x8200 })) 255).tsbOk = false := by decide +kernel

theorem test_meets_FirstChoicePool :
    let s := tPools tPoolOne id
    s.tablesWf = true ∧ firstChoice s tPoolReq.purpose tPoolReq.len = some 3 ∧ judge s tPoolReq 3 = .ok ∧ s.pcr.refuge = false
      ∧ firstChoice s tPoolReq.purpose 257 = none := by decide +kernel

/-- The check value of CRC32C: the digits 1 to 9. -/
theorem test_crc32c : crc32c [0x31, 0x32, 0x33, 0x34, 0x35, 0x36, 0x37, 0x38, 0x39] = 0xE3069283 := by decide +kernel

/-- FIPS 180-4: SHA-384 of "abc". -/
theorem test_sha384 : beNat (sha384 [0x61, 0x62, 0x63])
    = 0xCB00753F45A35E8BB5A03D699AC65007272C32AB0EDED1631A8B605A43FF5BED8086072BA1E7CC2358BAECA134C825A7 := by decide +kernel

/-- FIPS 197, appendix C.3: AES-256. -/
theorem test_aes256 : aesBlock sboxTable (roundKeys ((List.range 32).map (BitVec.ofNat 8))) 0x00112233445566778899AABBCCDDEEFF
    = 0x8EA2B7CA516745BFEAFC49904B496089 := by decide +kernel

/-- GCM, test case 13: AES-256 with key, IV and text empty or zero. -/
theorem test_gmac : beNat (gmac (List.replicate 32 0) (List.replicate 12 0) []) = 0x530F8AFBC74536B9A963B4F1C4CB738B := by decide +kernel

/-- TX_FRAMES of E9 (23_register_map.md, worked example). -/
theorem test_counter_offset : cETH_TX_FRAMES 9 = 0x00A02310 := by decide

/-- A counter read in halves (00_scope.md, worked example): the low half, and the high half latched while five more frames arrive. -/
theorem test_counter_latch :
    (match execCounterLowRead .host (cETH_TX_FRAMES 9) (addCtr (cETH_TX_FRAMES 9) 0x2FFFFFFFE tRun) with
      | .next t => decide (t.out = [.readValue .host (cETH_TX_FRAMES 9) 0xFFFFFFFE]
          ∧ (readReg .host (cETH_TX_FRAMES 9 + 4) (addCtr (cETH_TX_FRAMES 9) 5 t)).1 = 2
          ∧ getCtr (addCtr (cETH_TX_FRAMES 9) 5 t) (cETH_TX_FRAMES 9) = 0x300000003)
      | _ => false) = true := by decide +kernel

/-- SIG_OFF of an image whose BODY_LEN is 41,940,000 (19_maevo_image.md, worked example). -/
theorem test_sig_offset : sigOffset (fun _ _ => toLe 4 41940000) = 41943040 := by decide +kernel

/-- VF 37's namespace 1 and its map (07_storage_recorder.md, worked example). -/
def tVf37 : State :=
  tConn id |> tStr (fun x => { x with
    namespaces := [(0, toLe 2 (37 + 8192) ++ [1, 1] ++ toLe 4 1000000 ++ toLe 4 100 ++ List.replicate 4 0)]
    map := (List.range 5).map (fun k => (1000007 + k, toLe 8 (1 + 65536 * (5000 + k))))
    bindings := [(0, [7, 0, 255, 255, 255, 255, 255, 255, 1, 0, 0, 0, 12, 0, 0, 0])] })

/-- A write of 256 KiB at LBA 120 becomes five sub-commands, the first at remote LBA 80,008. -/
theorem test_storage_split :
    (match resolveFrom tVf37 ((mfind tVf37.str.namespaces 0).getD []) true 18 491520 262144 0 0 with
      | .ok es => es.map (fun e => (e.1.off, e.1.len, e.1.blocks)) = [(0, 32768, 8), (32768, 65536, 16), (98304, 65536, 16), (163840, 65536, 16),
          (229376, 32768, 8)] ∧ (es.map (fun e => e.1.lba)).head? = some 80008
      | .error _ => False) := by
  refine ⟨?_, ?_⟩ <;> decide +kernel

/-- SC5.T3 loads from outside its region, and its save block lies past the region too (16_service_cluster.md, worked example). -/
def tSc5 (tsb : DWord) : State :=
  tRun |> tMem (fun m => { m with svcMib := 64, svc := storeBytes [] 0x4A10 (toLe 4 0x0002B303) }) |> tSvc (fun v => { v with
    ready := true
    codeEnd := 0x10000
    threads := [(0, { Thread.init 0 with state := .run }), (43, { Thread.init 43 with
      state := .run, pc := 0x4A10, tsb := tsb, regionBase := 0x01200000, regionLimit := 0x0121FFFF, x := [(5, 0x03000000)] })] })

/-- The thread parks with its state in the shadow registers. -/
theorem test_trap_unsaved :
    (match execThreadTrap 43 (tSc5 0x01220000) with
      | .next t =>
        let x := getThread t 43
        decide (x.state = .faultedUnsaved ∧ x.shadowPc = 0x4A10 ∧ x.shadowCause = 5 ∧ x.shadowTval = 0x03000000 ∧ t.mem = (tSc5 0x01220000).mem
          ∧ ((getThread t 0).csrAt csrSvcev).getLsbD 2 = true)
      | _ => false) = true := by decide +kernel

/-- With the save block at 0x0121_FE00 the trap completes. -/
theorem test_trap_saved :
    (match execThreadTrap 43 (tSc5 0x0121FE00) with
      | .next t => decide ((getThread t 43).busy = true ∧ (getThread t 43).csrAt csrMepc = 0x4A10 ∧ (getThread t 43).state = .run)
      | _ => false) = true := by decide +kernel

/-- Ten buffers free, with unused minima of 8 and 4: the pool is EMPTY for a tenant (12_buffer_pools.md, worked example). -/
theorem test_pool_empty :
    judge (tPools { tPoolOne with fresh := 0, count := 10, lsMin := 8, coreMin := 4, stack := [] } id) { tPoolReq with len := 200 } 3 = .empty
    ∧ judge (tPools { tPoolOne with fresh := 0, count := 40, lsMin := 8, coreMin := 8, stack := [] } id) { tPoolReq with len := 200 } 3 = .ok := by
  decide +kernel

/-- R450, R451, R476: State.reset is what VAUX33_GOOD leaves of a device without supplies and records, before the boot steps of the start.
Source: the rules, by hand. -/
theorem test_reset_is_vaux33_good :
    exec .vaux33Good { State.reset with
      ctr := [], pcr := { State.reset.pcr with vaux33 := false, phase := .off, cause := 0 }, tim := { State.reset.tim with deferred := [] } }
      = .next (beginStart State.reset) := rfl

/-- States and operands that meet the hypotheses of each clause. -/
theorem test_meets_AlarmStateCommandsComplete : (
    -- clause 1
    (let s : State := tRun; let p := (Party.service 255); decide (s.tablesWf = true) && decide (p ≠ .crater) &&
      decide (alarmRuns s = true) && decide (s.alp.state = .normal))
    &&
    -- clause 2
    (let s : State := tRun |> tAlp (fun a => { a with state := .drill }); let p := (Party.host); decide (s.tablesWf = true) &&
      decide (p ≠ .crater) && decide (alarmRuns s = true) && decide (s.alp.state = .drill))
    &&
    -- clause 3
    (let s : State := tRun |> tAlp (fun a => { a with state := .drill, drillEnd := some 5000 }); decide (s.tablesWf = true) &&
      decide (alarmRuns s = true) && decide (s.alp.state = .drill) && (match s.alp.drillEnd with
      | some d => (true) | _ => false))
    &&
    -- clause 4
    (let s : State := tRun |> tAlp (fun a => { a with state := .holdover, holdEnd := some 1000 }); decide (s.tablesWf = true) &&
      decide (alarmRuns s = true) && decide (s.alp.state = .holdover) && (match s.alp.holdEnd with
      | some d => (true) | _ => false))
    &&
    -- clause 5
    (let s : State := tRun; let since := 0; decide (s.tablesWf = true) && decide (s.pcr.vaux33 = true) &&
      decide (¬ (s.alp.inA = true ∧ s.alp.inB = false)) && decide (alarmRuns s = true))
    &&
    -- clause 6
    (let s : State := tRun |> tAlp (fun a => { a with inA := true, inB := false }); let since := 100; decide (s.tablesWf = true) &&
      decide (s.pcr.vaux33 = true) && decide (¬ (s.alp.inA = false ∧ s.alp.inB = true)))
    &&
    -- clause 7
    (let s : State := tRun; let b := true; let since := 7; decide (s.tablesWf = true) && decide (s.pcr.vaux33 = true) &&
      decide (¬ (s.alp.inA = b ∧ s.alp.inB = b)))
    &&
    -- clause 9
    (let s : State := tRun |> tAlp (fun a => { a with state := .emergency }); let b := (Subsystem.pcr);
      decide (s.tablesWf = true) && decide (levelAt s b ≠ s.alp.state) && decide (s.crt.restarting = false))) = true := by decide +kernel

/-- States and operands that meet the hypotheses of each clause. -/
theorem test_meets_EthernetPortCommandsComplete : (
    -- clause 1
    (let s : State := tPort id |> setReg (rETH_PFC_CFG 15) 0xF; let port := 15; let enables := (0x80#8);
      let times := ([0, 0, 0, 0, 0, 0, 0, 65535]); decide (s.tablesWf = true) && decide (port < 16) &&
      decide ((getPort s port).inUse = true) && decide ((getPort s port).powered = true) && decide ((getPort s port).link = true) &&
      decide (pfcEn s port = true) && decide (enables.getLsbD (pfcPrio s port) = true) &&
      decide (0 < times.getD (pfcPrio s port) 0))
    &&
    -- clause 2
    (let s : State := tPort (fun p => { p with pausedUntil := some 900 }); let port := 15; decide (s.tablesWf = true) &&
      (match (getPort s port).pausedUntil with
      | some d => (true) | _ => false))
    &&
    -- clause 3
    (let s : State := tPort (fun p => { p with xoff := true, xoffNext := 2000 }) |> setReg (rETH_PFC_CFG 15) 0xF; let port := 15;
      decide (s.tablesWf = true) && decide ((getPort s port).xoff = true) && decide (pfcEn s port = true))
    &&
    -- clause 4
    (let s : State := tPort (fun p => { p with holdFrom := some 10 }); let port := 15; decide (s.tablesWf = true) &&
      decide (port < 16) && (match (getPort s port).holdFrom with
      | some h => (decide ((getPort s port).overLimit = false)) | _ => false))
    &&
    -- clause 5
    (let s : State := tPort id; let port := 15; let up := false; decide (s.tablesWf = true) && decide (port < 16) &&
      decide ((getPort s port).inUse = true) && decide ((getPort s port).powered = true) && decide ((getPort s port).link ≠ up))
    &&
    -- clause 6
    (let s : State := tPort id; let port := 15;
      let f := (({ bytes := List.replicate 60 0, fcsGood := true, fecCorr := 0, fecUncorr := true, at_ := 900 } : RxFrame));
      decide (s.tablesWf = true) && decide (port < 16) && decide ((getPort s port).inUse = true) &&
      decide ((getPort s port).powered = true) && decide ((getPort s port).link = true) && decide (f.fecUncorr = true))
    &&
    -- clause 7
    (let s : State := tPort id |> setReg (rETH_MTU 15) 1500; let port := 15;
      let f := (({ bytes := List.replicate 60 7, fcsGood := true, fecCorr := 0, fecUncorr := false, at_ := 900 } : RxFrame));
      decide (s.tablesWf = true) && decide (port < 16) && decide ((getPort s port).inUse = true) &&
      decide ((getPort s port).powered = true) && decide ((getPort s port).link = true) && decide (f.fecUncorr = false) &&
      decide (f.fcsGood = true) && decide (60 ≤ f.bytes.length) &&
      decide (overMtu s port f.bytes.length (hasVlan f.bytes) = false) && decide (s.pcr.refuge = false) &&
      decide (etherType f.bytes ≠ 0x8808) && decide (stationHit s port (beAt f.bytes 0 6) = false))
    &&
    -- clause 8
    (let s : State := tPort id |> setView .host rETH_STN_SEL 0xF4; let p := (Party.host); let hi := (0x1FFFF#32);
      decide (s.tablesWf = true) && decide (isCrater p = true ∨ 4 ≤ (stationSel s p).2))
    &&
    -- clause 9
    (let s : State := tPort id; let p := (Party.crater); decide (s.tablesWf = true))
    &&
    -- clause 10
    (let s : State := tPort (fun p => { p with captures := [{ seqId := 5, msgType := 1, domain := 3, sec := 9, ns := 77 }] });
      let p := (Party.host); let port := 15; decide (s.tablesWf = true) && (match (getPort s port).captures with
      | c :: rest => (true) | _ => false))) = true := by decide +kernel

/-- States and operands that meet the hypotheses of each clause. -/
theorem test_meets_LaneGroupCommandsComplete : (
    -- clause 1
    (let s : State := tGroup (fun g => { g with synth := .notReady, since := 500 }); let g := 3; decide (s.tablesWf = true) &&
      decide (g < 4) && decide ((laneGroup s g).mode ≠ .down) && decide ((laneGroup s g).synth = .notReady))
    &&
    -- clause 2
    (let s : State := tGroup (fun g => { g with synth := .notReady, since := 500 }); let g := 3; decide (s.tablesWf = true) &&
      decide (g < 4) && decide ((laneGroup s g).mode ≠ .down) && decide ((laneGroup s g).synth = .notReady))
    &&
    -- clause 3
    (let s : State := tGroup (fun g => { g with synth := .fault, since := 500 }); let g := 3; decide (s.tablesWf = true) &&
      decide ((laneGroup s g).mode ≠ .down) && decide ((laneGroup s g).synth = .fault))
    &&
    -- clause 4
    (let s : State := tGroup (fun g => { g with synth := .ready, calAt := 7 }); let g := 3; decide (s.tablesWf = true) &&
      decide ((laneGroup s g).mode ≠ .down) && decide ((laneGroup s g).synth = .ready) && decide ((laneGroup s g).dueFrom = none))
    &&
    -- clause 5
    (let s : State := tGroup (fun g => { g with synth := .ready, dueFrom := some 900 }); let g := 3; decide (s.tablesWf = true) &&
      (match (laneGroup s g).dueFrom with
      | some d => (decide ((laneGroup s g).synth = .ready) && decide ((levelAt s .eth).emergent = false)) | _ => false))
    &&
    -- clause 6
    (let s : State := tGroup (fun g => { g with synth := .calibrating, since := 900 }); let g := 3; decide (s.tablesWf = true) &&
      decide ((laneGroup s g).synth = .calibrating))
    &&
    -- clause 7
    (let s : State := tGroup (fun g => { g with synth := .calibrating, since := 900 }); let g := 3; decide (s.tablesWf = true) &&
      decide ((laneGroup s g).synth = .calibrating))
    &&
    -- clause 8
    (let s : State := (tGroup (fun g => { g with synth := .ready, dueFrom := some 900 }) |> tAlp (fun a => { a with state := .emergency, levels := [(10, .emergency)] }));
      let g := 3; decide (s.tablesWf = true) && (match (laneGroup s g).dueFrom with
      | some d => (decide ((laneGroup s g).synth = .ready) && decide ((levelAt s .eth).emergent = true)) | _ => false))) = true := by decide +kernel

/-- States and operands that meet the hypotheses of each clause. -/
theorem test_meets_PipelinePassesComplete : (
    -- clause 1
    (let s : State := (tLookup (fun p => { p with ingress := [(1, [tFrame 60])] })); let fp := 1; let ecc := tEcc;
      decide (s.tablesWf = true) && (match mget (fun _ => []) s.flp.ingress fp with
      | f :: rest => (decide ((waitingAt s fp).length < 2048) &&
      (match lookupFrame fp f.host f ecc { s with flp := { s.flp with ingress := mset (fun _ => []) s.flp.ingress fp rest } } with
      | .goesOn g u => (true) | _ => false)) | _ => false))
    &&
    -- clause 2
    (let s : State := (tLookup (fun p => { p with profiles := tExact, ingress := [(1, [tFrame 60])] })); let fp := 1;
      let ecc := tEcc; decide (s.tablesWf = true) && (match mget (fun _ => []) s.flp.ingress fp with
      | f :: rest => (decide ((waitingAt s fp).length < 2048) &&
      (match lookupFrame fp f.host f ecc { s with flp := { s.flp with ingress := mset (fun _ => []) s.flp.ingress fp rest } } with
      | .waits u => (true) | _ => false)) | _ => false))
    &&
    -- clause 3
    (let s : State := (tLookup (fun p => { p with waiting := [(1, [{ frame := tFrame 60, key := List.replicate 32 0, ternKey := List.replicate 80 0, profile := 63, layers := [] }])] }));
      let fp := 1; let n := 0; let ecc := tEcc; decide (s.tablesWf = true) && (match takeWaiting (waitingAt s fp) n with
      | some (w, rest) => ((match finishLookup fp w.frame w.profile w.ternKey (lookupExact s w.key) ecc (setWaiting fp rest s) with
      | (some g, u) => (true) | _ => false)) | _ => false))
    &&
    -- clause 4
    (let s : State := (tLookup (fun p => p) |> tSwc (fun w => { w with egressIn := [(25, [tFrame 60])] })); let o := 25;
      let ecc := tEcc; decide (s.tablesWf = true) && (match mget (fun _ => []) s.swc.egressIn o with
      | f :: rest => (decide (handoverRoom s (egressPipe o) f.bytes.length = true) &&
      decide ((waitingAt s (egressPipe o)).length < 2048)) | _ => false))
    &&
    -- clause 5
    (let s : State := (tLookup (fun p => p) |> tSwc (fun w => { w with lsIn := [(0, [{ tFrame 60 with cls := 7, ls := true }])] }));
      let o := 0; let ecc := tEcc; decide (s.tablesWf = true) && (match mget (fun _ => []) s.swc.lsIn o with
      | f :: rest => (decide ((waitingAt s (egressPipe o)).length < 2048)) | _ => false))
    &&
    -- clause 6
    (let s : State := (tLookup (fun p => { p with hostTx := [(1, [{ tFrame 60 with host := true, srcSp := 21 }])] })); let h := 1;
      let ecc := tEcc; decide (s.tablesWf = true) && (match mget (fun _ => []) s.flp.hostTx h with
      | f :: rest => (decide (handoverRoom s (2 + h) f.bytes.length = true) && decide ((waitingAt s (2 + h)).length < 2048) &&
      (match lookupFrame (2 + h) true f ecc { s with flp := { s.flp with hostTx := mset (fun _ => []) s.flp.hostTx h rest } } with
      | .goesOn g u => (true) | _ => false)) | _ => false))) = true := by decide +kernel

/-- States and operands that meet the hypotheses of each clause. -/
theorem test_meets_FlowTableCommandsComplete : (
    -- clause 1
    (let s : State := tRun |> setView .host rFLP_IND_ADDR 0x7FFFFF; let p := (Party.host); decide (s.tablesWf = true) &&
      (match flpTableSize (fld (getView s p rFLP_IND_ADDR) 24 4) with
      | some n => (decide (fld (getView s p rFLP_IND_ADDR) 0 24 < n)) | _ => false))
    &&
    -- clause 2
    (let s : State := tRun |> setView (.service 3) rFLP_IND_ADDR 0x700FFFF |> tWords (.service 3) (rFLP_IND_DATA 0) [1, 2, 3];
      let p := (Party.service 3); decide (s.tablesWf = true) && decide (fld (getView s p rFLP_IND_ADDR) 24 4 = 7) &&
      decide (fld (getView s p rFLP_IND_ADDR) 0 24 < 65536) && decide (restZero (viewBytes s p (rFLP_IND_DATA 0) 64) 12 = true))
    &&
    -- clause 3
    (let s : State := (tRun |> tFlp (fun p => { p with exact := [(4 * bucketH1 (List.replicate 32 0), List.replicate 32 0 ++ [1] ++ List.replicate 31 0)] }) |> tWords .host (rFLP_IND_DATA 8) [1]);
      let p := (Party.host); decide (s.tablesWf = true) && decide (fld (getView s p rFLP_IND_ADDR) 24 4 = 0) &&
      (match lookupExact s (slice (viewBytes s p (rFLP_IND_DATA 0) 64) 0 32) with
      | some i => (decide (exactProtected s (isCrater p) none (slice (viewBytes s p (rFLP_IND_DATA 0) 64) 0 32 ++ setLastHit (slice (viewBytes s p (rFLP_IND_DATA 0) 64) 32 32) (tickNow s)) = false) &&
      decide (exactLegal (viewBytes s p (rFLP_IND_DATA 0) 64) = true) &&
      decide (lsFull s i (slice (viewBytes s p (rFLP_IND_DATA 0) 64) 0 32 ++ setLastHit (slice (viewBytes s p (rFLP_IND_DATA 0) 64) 32 32) (tickNow s)) = false)) | _ => false))
    &&
    -- clause 4
    (let s : State := (tRun |> tFlp (fun p => { p with exact := [(4 * bucketH1 (List.replicate 32 0), List.replicate 32 0 ++ [1] ++ List.replicate 31 0)] }));
      let p := (Party.host); decide (s.tablesWf = true) && decide (fld (getView s p rFLP_IND_ADDR) 24 4 = 0) &&
      (match lookupExact s (slice (viewBytes s p (rFLP_IND_DATA 0) 64) 0 32) with
      | some i => (decide (isLsEntry s i = false ∨ isCrater p = true)) | _ => false))
    &&
    -- clause 5
    (let s : State := tRun |> tFlp (fun p => { p with blocksRetired := 3, blocksFree := 100 }); decide (s.tablesWf = true) &&
      decide (usesReplaced s = false))
    &&
    -- clause 6
    (let s : State := tRun; let p := (Party.host); let n := 63; decide (s.tablesWf = true) && decide (n < 64) &&
      decide (profState s n = .run) && decide (profileProtected s n = false ∨ isCrater p = true))
    &&
    -- clause 7
    (let s : State := (tRun |> tFlp (fun p => { p with profState := [(63, .quiesce)] })); let n := 63; decide (s.tablesWf = true) &&
      decide (profState s n = .quiesce) && decide (s.flp.waiting.any (fun e => e.2.any (fun w => w.profile = n)) = false))
    &&
    -- clause 8
    (let s : State := (tRun |> tFlp (fun p => { p with profState := [(63, .stopped)] })); let p := (Party.host); let n := 63;
      decide (s.tablesWf = true) && decide (n < 64) &&
      decide (profState s n = .stopped ∨ (profState s n = .error ∧ isCrater p = true)))
    &&
    -- clause 9
    (let s : State := tRun |> tFlp (fun p => { p with ageNext := 2097150 }); decide (s.tablesWf = true) &&
      decide ((levelAt s .flp).emergent = false) && decide (s.flp.ageNext + 1 < 2097152))
    &&
    -- clause 10
    (let s : State := tRun |> tFlp (fun p => { p with ageFifo := [{ index := 8388607, key4 := 5 }] }); let p := (Party.host);
      decide (s.tablesWf = true))) = true := by decide +kernel

/-- States and operands that meet the hypotheses of each clause. -/
theorem test_meets_SwitchCoreCommandsComplete : (
    -- clause 1
    (let s : State := (tRun |> tSwc (fun w => { w with arrivals := [(25, [{ tFrame 60 with cls := 7, dest := .unicast 24 0 }])] }));
      let i := 25; decide (s.tablesWf = true) && decide (i < 26) && (match mget (fun _ => []) s.swc.arrivals i with
      | f :: rest => ((match frameOutputs s (if f.mirror = 2 && !f.host then f else { f with admitAt := s.now }) with
      | .one o g => (decide (outputUsed s o = true) && decide (g.cls = 7) &&
      decide (stagedCells s i + cellsOf g ≤ 256)) | _ => false)) | _ => false))
    &&
    -- clause 2
    (let s : State := tVoq .hbm; let i := 25; let o := 3; let c := 5; decide (s.tablesWf = true) &&
      (match firstIn .hbm (getVoq s i o c).frames with
      | some k => (decide (ingCount s o c + regFld s rSWC_SPILL_CFG 16 16 < regFld s (rSWC_ING_LIMIT c) 0 19)) | _ => false))
    &&
    -- clause 3
    (let s : State := tVoq .reading; let i := 25; let o := 3; let c := 5; decide (s.tablesWf = true) &&
      (match firstIn .reading (getVoq s i o c).frames with
      | some k => ((match (getVoq s i o c).frames[k]? with
      | some f => (true) | _ => false)) | _ => false))
    &&
    -- clause 4
    (let s : State := tVoq .reading; let i := 25; let o := 3; let c := 5; decide (s.tablesWf = true) &&
      (match firstIn .reading (getVoq s i o c).frames with
      | some k => ((match (getVoq s i o c).frames[k]? with
      | some f => (true) | _ => false)) | _ => false))
    &&
    -- clause 5
    (let s : State := tRun |> tSwc (fun w => { w with writeQueue := 30, admitPtr := 25 }); let tags := (([] : List TagError));
      decide (s.tablesWf = true))
    &&
    -- clause 6
    (let s : State := (tRun |> tSwc (fun w => { w with staging := [(25, [{ frame := tFrame 60, cells := 1, outs := 8 }])] }));
      let o := 3; let tags := (([] : List EccResult)); decide (s.tablesWf = true) &&
      (match firstFrom (mget (fun _ => 0) s.swc.lsPtr o) ((List.range 26).filter (fun i => (mget (fun _ => []) s.swc.staging i).any (fun f => nbit f.outs o))) with
      | some i => ((match (mget (fun _ => []) s.swc.staging i).findIdx? (fun f => nbit f.outs o) with
      | some k => ((match (mget (fun _ => []) s.swc.staging i)[k]? with
      | some f => (decide (f.frame.bytes.length ≤ meterCredit s o) &&
      decide (mget (fun _ => 0) s.swc.lsCells o + f.cells ≤ 8192)) | _ => false)) | _ => false)) | _ => false))
    &&
    -- clause 7
    (let s : State := (tRun |> tSwc (fun w => { w with tephra := [tFrame 60] }) |> tHep (fun h => { h with fns := [(pf, { Func.init with bme := true })] }) |> setReg rSWC_TEPHRA_CFG 0x401);
      decide (s.tablesWf = true) && (match s.swc.tephra with
      | f :: rest => (decide ((getFn s pf).mayIssue = true) && decide ((getFn s pf).flrFrom = none) &&
      decide (bit (getReg s rSWC_TEPHRA_CFG) 0 = true) && decide (tephraFull s = false)) | _ => false))
    &&
    -- clause 8
    (let s : State := tRun; let p := (Party.host); let v := (0x403#32); decide (s.tablesWf = true) && decide (bit v 0 = true) &&
      decide (bit (getReg s rSWC_TEPHRA_CFG) 0 = false))
    &&
    -- clause 9
    (let s : State := (tRun |> setView .host rSWC_IND_ADDR 0xFFFF |> tSwc (fun w => { w with portSets := [(65535, 7)] }));
      let p := (Party.host); decide (s.tablesWf = true) && decide (fld (getView s p rSWC_IND_ADDR) 16 4 = 0) &&
      decide (fld (getView s p rSWC_IND_ADDR) 0 16 < 65536))
    &&
    -- clause 10
    (let s : State := tRun |> setView .host rSWC_IND_ADDR 1024 |> setView .host rSWC_IND_DATA_LO 0x3FFFFFF; let p := (Party.host);
      decide (s.tablesWf = true) && decide (fld (getView s p rSWC_IND_ADDR) 16 4 = 0) &&
      decide (1024 ≤ fld (getView s p rSWC_IND_ADDR) 0 16 ∨ isCrater p = true) &&
      decide ((getView s p rSWC_IND_DATA_LO).toNat < 2 ^ 26) && decide (getView s p rSWC_IND_DATA_HI = 0))) = true := by decide +kernel

/-- States and operands that meet the hypotheses of each clause. -/
theorem test_meets_TrafficManagerCommandsComplete : (
    -- clause 1
    (let s : State := tRun |> setView .host rTMG_IND_ADDR 0x3FFFF; let p := (Party.host); decide (s.tablesWf = true) &&
      decide (fld (getView s p rTMG_IND_ADDR) 18 2 = 0))
    &&
    -- clause 2
    (let s : State := tRun |> setView .host rTMG_IND_ADDR 0x400 |> tWords .host (rTMG_IND_DATA 0) [640000000, 16384];
      let p := (Party.host); decide (s.tablesWf = true) && decide (fld (getView s p rTMG_IND_ADDR) 18 2 = 0) &&
      decide (1024 ≤ fld (getView s p rTMG_IND_ADDR) 0 18 ∨ isCrater p = true) &&
      decide (bucketLegal 16384 (viewBytes s p (rTMG_IND_DATA 0) 8) = true))) = true := by decide +kernel

/-- States and operands that meet the hypotheses of each clause. -/
theorem test_meets_CipherPassCommandsComplete : (
    -- clause 1
    (let s : State := tCipher (fun c => { c with decryptLs := [{ tWork with enc := false, frame := { tFrame 60 with cls := 7, ls := true } }] });
      let e := (EccResult.clean); decide (s.tablesWf = true) && (match s.cph.decryptLs with
      | w :: rest => ((match dispatchWork w true e { s with cph := { s.cph with decryptLs := rest } } with
      | .took t0 => (true) | _ => false)) | _ => false))
    &&
    -- clause 2
    (let s : State := tCipher (fun c => { c with decryptIn := [{ tWork with enc := false }] }); let e := (EccResult.clean);
      decide (s.tablesWf = true) && decide (s.cph.decryptLs = []) && (match s.cph.decryptIn with
      | w :: rest => ((match dispatchWork w false e { s with cph := { s.cph with decryptIn := rest } } with
      | .took t0 => (true) | _ => false)) | _ => false))
    &&
    -- clause 3
    (let s : State := (tCipher (fun c => { c with handover := [(3, [tWork])], cached := [9] })); let fp := 3;
      let e := (EccResult.clean); decide (s.tablesWf = true) && (match mget (fun _ => []) s.cph.handover fp with
      | w :: rest => ((match dispatchWork w false e { s with cph := { s.cph with handover := mset (fun _ => []) s.cph.handover fp rest } } with
      | .took t0 => (true) | _ => false)) | _ => false))
    &&
    -- clause 4
    (let s : State := (tCipher (fun c => { c with passes := [(5, tPass .parked)], nextPass := 6 })); let n := 5;
      decide (s.tablesWf = true) && (match mfind s.cph.passes n with
      | some p => (decide (p.state = .parked) && decide (p.bound = true) && decide ((p.ls && lsEnginesFenced s) = false) &&
      decide (s.cph.passes.any (fun q => decide (q.1 < n) && q.2.slot = p.slot && q.2.state = .parked) = false) &&
      (match (if p.ls then lsEngine s p.frame.bytes.length else bestEngine s p.frame.bytes.length) with
      | some e => (true) | _ => false)) | _ => false))
    &&
    -- clause 5
    (let s : State := (tCipher (fun c => { c with lsDispatch := [tWork], slots := [(9, { tSlot with ls := true, pinned := true })] }));
      decide (s.tablesWf = true) && (match s.cph.lsDispatch with
      | w :: rest => ((match dispatchWork w true .clean { s with cph := { s.cph with lsDispatch := rest } } with
      | .took t0 => (true) | _ => false)) | _ => false))
    &&
    -- clause 6
    (let s : State := (tCipher (fun c => { c with passes := [(5, tPass (.suspended 0))], nextPass := 6 })); let e := 0;
      decide (s.tablesWf = true) && (match s.cph.passes.find? (fun p => p.2.state = .suspended e) with
      | some (n, p) => (decide (engineRuns s e = false) && decide (s.cph.lsDispatch = [])) | _ => false))
    &&
    -- clause 7
    (let s : State := (tCipher (fun c => { c with passes := [(5, tPass (.running 255))], nextPass := 6 })); let e := 255;
      decide (s.tablesWf = true) && (match s.cph.passes.find? (fun p => p.2.state = .running e) with
      | some (n, p) => ((match computePass p with
      | some bs => (decide (isOldest s n p.slot = true) &&
      decide ((∀ q ∈ s.cph.passes, q.2.state ≠ .queued e))) | _ => false)) | _ => false))
    &&
    -- clause 8
    (let s : State := (tCipher (fun c => { c with passes := [(5, { tPass (.running 7) with enc := false })], nextPass := 6 }));
      let e := 7; decide (s.tablesWf = true) && (match s.cph.passes.find? (fun p => p.2.state = .running e) with
      | some (n, p) => (decide (computePass p = none)) | _ => false))
    &&
    -- clause 9
    (let s : State := (tCipher (fun c => { c with passes := [(5, tPass (.held 7))], nextPass := 6 })); let slot := 9;
      decide (s.tablesWf = true) && (match s.cph.passes.find? (fun p => p.2.slot = slot) with
      | some (n, p) => ((match p.state with
      | .held e => (decide (p.enc = true)) | _ => false)) | _ => false))
    &&
    -- clause 10
    (let s : State := (tCipher (fun c => { c with passes := [(5, { tPass (.running 15) with suspensions := 1 })], nextPass := 6, entryAt := some 800 }) |> tAlp (fun a => { a with state := .emergency, levels := [(8, .emergency)] }));
      let e := 15; decide (s.tablesWf = true) && decide (e < 16) && (match s.cph.entryAt with
      | some d => (decide (lsEnginesOnly s = true) && (match s.cph.passes.find? (fun p => !p.2.ls &&
      (p.2.state = .suspended e || (p.2.state = .running e && decide (0 < p.2.suspensions)))) with
      | some (n, p) => (true) | _ => false)) | _ => false))
    &&
    -- clause 11
    (let s : State := tCipher (fun c => { c with untested := 1#256 <<< 255 }) |> tPcr (fun p => { p with pathReady := true });
      let e := 255; decide (s.tablesWf = true) && decide (katRuns s e = true))
    &&
    -- clause 12
    (let s : State := tCipher id; let e := 255; decide (s.tablesWf = true) && decide (katRuns s e = true))) = true := by decide +kernel

/-- States and operands that meet the hypotheses of each clause. -/
theorem test_meets_KeySlotCommandsComplete : (
    -- clause 1
    (let s : State := (tCipher (fun c => { c with passes := [(5, tPass .parked)] })); let slot := 9; decide (s.tablesWf = true) &&
      (match getSlot s slot with
      | some k => (decide (s.crt.sec ≠ .zeroised) && decide (slotCached s slot k = false) &&
      decide ((slotWaits s slot || s.cph.jobMisses.contains slot) = true)) | _ => false))
    &&
    -- clause 2
    (let s : State := (tCipher (fun c => { c with passes := [(5, tPass .parked)] })); let slot := 9; decide (s.tablesWf = true) &&
      (match getSlot s slot with
      | some k => (decide (s.crt.sec ≠ .zeroised) && decide (s.pcr.refuge = false) && decide (slotCached s slot k = false) &&
      decide ((slotWaits s slot || s.cph.jobMisses.contains slot) = true)) | _ => false))
    &&
    -- clause 3
    (let s : State := (tCipher (fun c => { c with slots := [(9, { tSlot with damaged := true })] })); let slot := 9;
      decide (s.tablesWf = true) && (match getSlot s slot with
      | some k => (decide (k.damaged = true) && decide (s.crt.sec ≠ .zeroised)) | _ => false))
    &&
    -- clause 4
    (let s : State := (tCipher (fun c => { c with slots := [(65535, { tSlot with ckpt := true })] })); let slot := 65535;
      decide (s.tablesWf = true) && (match getSlot s slot with
      | some k => (decide (k.ckpt = true) && decide (s.crt.restarting = false) && decide (s.crt.keyJobs = [])) | _ => false))
    &&
    -- clause 5
    (let s : State := tCipher id |> tCrt (fun c => { c with keyJobs := [{ blob := List.replicate 128 0, retire := true, orphan := false, taken := true }] });
      decide (s.tablesWf = true) && (match s.crt.keyJobs with
      | j :: rest => (decide (j.taken = true) && decide (s.crt.restarting = false)) | _ => false))
    &&
    -- clause 6
    (let s : State := tCipher id |> setView .host rCPH_IND_ADDR 9; let p := (Party.host); decide (s.tablesWf = true) &&
      decide (fld (getView s p rCPH_IND_ADDR) 16 4 = 0) && (match getSlot s (fld (getView s p rCPH_IND_ADDR) 0 16) with
      | some k => (true) | _ => false))
    &&
    -- clause 7
    (let s : State := tCipher (fun c => { c with nearFifo := [{ slot := 65535, limit := true }] }); let p := (Party.host);
      decide (s.tablesWf = true) && (match s.cph.nearFifo with
      | e :: rest => (true) | _ => false))
    &&
    -- clause 8
    (let s : State := tCipher id; let p := (Party.service 0); decide (s.tablesWf = true) && decide (s.cph.nearFifo = []))) = true := by decide +kernel

/-- States and operands that meet the hypotheses of each clause. -/
theorem test_meets_OutputServiceCommandsComplete : (
    -- clause 1
    (let s : State := (tRun |> tSwc (fun w => { w with lsQueue := [(25, [{ tFrame 60 with cls := 7, ls := true }])] }));
      let o := 25; decide (s.tablesWf = true) && decide (20 ≤ o) && decide (o < 26) && decide (isRunning s = true) &&
      decide ((∀ n ∈ List.range 16, (getPort s n).redirecting = false)) && (match mget (fun _ => []) s.swc.lsQueue o with
      | f :: rest => (decide (lsMayLeave s o f = true)) | _ => false))
    &&
    -- clause 2
    (let s : State := (tRun |> tSwc (fun w => { w with egress := mset (fun _ => []) [] (egressKey 24 3 5) [tFrame 60] }));
      let o := 24; decide (s.tablesWf = true) && decide (20 ≤ o) && decide (o < 26) && decide (isRunning s = true) &&
      decide ((∀ n ∈ List.range 16, (getPort s n).redirecting = false)) && decide (mget (fun _ => []) s.swc.lsQueue o = []))
    &&
    -- clause 3
    (let s : State := (tRun |> tSwc (fun w => { w with lsQueue := [(16, [{ tFrame 60 with cls := 7, ls := true }])] }));
      let o := 16; decide (s.tablesWf = true) && decide (16 ≤ o) && decide (o < 20) && decide (isRunning s = true) &&
      decide ((∀ n ∈ List.range 16, (getPort s n).redirecting = false)) && (match mget (fun _ => []) s.swc.lsQueue o with
      | f :: rest => (decide (lsMayLeave s o f = true)) | _ => false))
    &&
    -- clause 4
    (let s : State := (tPort id |> tEth (fun e => { e with groups := [(3, { EthGroup.init with mode := .four100, synth := .ready })] }) |> tSwc (fun w => { w with lsQueue := [(15, [{ tFrame 60 with cls := 7, ls := true }])] }));
      let o := 15; decide (s.tablesWf = true) && decide (o < 16) && decide (isRunning s = true) &&
      decide ((∀ n ∈ List.range 16, (getPort s n).redirecting = false)) && decide ((getPort s o).inUse = true) &&
      decide (mustHold s o = false) && (match mget (fun _ => []) s.swc.lsQueue o with
      | f :: rest => (decide (lsMayLeave s o f = true)) | _ => false))
    &&
    -- clause 5
    (let s : State := (tRun |> tSwc (fun w => { w with egress := mset (fun _ => []) [] (egressKey 25 6 4127) [tFrame 60] }));
      let o := 25; let cls := 6; let inst := 4127; decide (s.tablesWf = true) && decide (o < 26) && decide (cls < 7) &&
      (match outputHead s o cls inst with
      | some f => ((match frameWait s f with
      | some w => (true) | _ => false)) | _ => false))
    &&
    -- clause 6
    (let s : State := (tRun |> tSwc (fun w => { w with lsQueue := [(25, [{ tFrame 60 with cls := 7, ls := true }])] }));
      let o := 25; let inst := 5; decide (s.tablesWf = true) && decide (o < 26) && (match outputHead s o 7 inst with
      | some f => ((match lsWait s f with
      | some w => (true) | _ => false)) | _ => false))
    &&
    -- clause 7
    (let s : State := (tRun |> tVfm (fun v => { v with records := [(4095, { ResRecord.vfDefault with txsEn := true })] }));
      decide (s.tablesWf = true) && decide (isRunning s = true))
    &&
    -- clause 8
    (let s : State := (tRun |> tVfm (fun v => { v with records := [(4095, { ResRecord.vfDefault with txsEn := true })], fns := [(4095, { state := .quiesce, since := 0, waiters := [] })] }));
      let n := 4095; decide (s.tablesWf = true) && decide (isRunning s = true) && decide (n ≤ pf))) = true := by decide +kernel

/-- States and operands that meet the hypotheses of each clause. -/
theorem test_meets_RecorderCommandsComplete : (
    -- clause 1
    (let s : State := (tRecorder id |> tStr (fun x => { x with streams := [(8191, [5] ++ List.replicate 31 0)] }) |> (fun s => { s with sinks := [(23, [{ tFrame 60 with stream := some 8191 }])] }));
      let stream := 8191; decide (s.tablesWf = true) && (match formDue s with
      | u => (decide (stream < 8192) && decide (nbit (byteAt (streamEntry u stream) 0) 0 = true) &&
      decide (byteAt (streamEntry u stream) 1 = 0) && decide (u.str.rec_.on = true) && decide (recordsWait u = false) &&
      decide (streamActive u (streamEntry u stream) = true) && (match takeRecorded stream (mget (fun _ => []) u.sinks 23) with
      | some (f, rest) => (true) | _ => false))))
    &&
    -- clause 2
    (let s : State := tRecorder (fun r => { r with flushAt := 5000 }); decide (s.tablesWf = true) && decide (s.str.rec_.on = true))
    &&
    -- clause 3
    (let s : State := tRecorder (fun r => { r with doneTo := some 8192, head := 8192, flushed := 8192, marks := [{ seq := 9, stop := 4096, chain := List.replicate 16 0 }, { seq := 10, stop := 9000, chain := List.replicate 16 0 }], staged := List.replicate 8192 0 });
      decide (s.tablesWf = true) && decide (s.str.rec_.on = true) && (match s.str.rec_.doneTo with
      | some d => (decide (s.str.rec_.written < journalBound s d)) | _ => false))
    &&
    -- clause 4
    (let s : State := tRecorder (fun r => { r with lastDurable := some { seq := 9, stop := 4096, chain := List.replicate 16 0 }, owed := [8, 9, 10] });
      decide (s.tablesWf = true) && decide (s.str.rec_.on = true) && decide (s.crt.restarting = false) &&
      (match s.str.rec_.lastDurable with
      | some m => (decide (s.str.rec_.anchor.map Anchor.seq ≠ some m.seq)) | _ => false))
    &&
    -- clause 5
    (let s : State := tRecorder (fun r => { r with nextSeq := 100 }); decide (s.tablesWf = true) && decide (s.str.rec_.on = true) &&
      decide (s.crt.restarting = false) && decide (s.str.rec_.lastDurable = none) && decide (s.str.rec_.high ≤ s.str.rec_.nextSeq))) = true := by decide +kernel

/-- States and operands that meet the hypotheses of each clause. -/
theorem test_meets_PlayerCommandsComplete : (
    -- clause 1
    (let s : State := tPlay (fun p => { p with autoDue := some 3, autoAt := some 5000 }); let pc := 63;
      decide (s.tablesWf = true) && (match (getPc s pc).autoDue with
      | some m => ((match (getPc s pc).autoAt with
      | some d => (true) | _ => false)) | _ => false))
    &&
    -- clause 2
    (let s : State := tPlay (fun p => { p with state := .playing, msg := 3, output := 1 }) |> tMsg 2 5; let pc := 63;
      decide (s.tablesWf = true) && decide (s.str.ready = true) && decide ((getPc s pc).next = none) &&
      decide ((getPc s pc).cut = false) && decide ((getPc s pc).state = .playing) && decide ((getPc s pc).gapLeft = 0))
    &&
    -- clause 3
    (let s : State := tPlay (fun p => { p with next := some 3, output := 1 }) |> tMsg 2 5; let pc := 63;
      decide (s.tablesWf = true) && decide (s.str.ready = true) && (match (getPc s pc).next with
      | some m => (decide ((getPc s pc).state = .idle ∨ ((getPc s pc).phase = 0 ∧ (getPc s pc).cut = false))) | _ => false))
    &&
    -- clause 4
    (let s : State := tPlay (fun p => { p with state := .playing, msg := 3, pos := 96 }) |> tMsg 2 5; let pc := 63;
      decide (s.tablesWf = true) && decide ((getPc s pc).state = .playing) &&
      decide (msgSamples (dirEntry s (getPc s pc).msg) ≤ (getPc s pc).pos) &&
      decide (leAt (dirEntry s (getPc s pc).msg) 12 2 = 0 ∨ (getPc s pc).repeats + 1 < leAt (dirEntry s (getPc s pc).msg) 12 2))
    &&
    -- clause 5
    (let s : State := tPlay (fun p => { p with state := .playing, msg := 3, pos := 96, repeats := 1 }) |> tMsg 2 5; let pc := 63;
      decide (s.tablesWf = true) && decide ((getPc s pc).state = .playing) &&
      decide (msgSamples (dirEntry s (getPc s pc).msg) ≤ (getPc s pc).pos) &&
      decide (0 < leAt (dirEntry s (getPc s pc).msg) 12 2) &&
      decide (leAt (dirEntry s (getPc s pc).msg) 12 2 ≤ (getPc s pc).repeats + 1))
    &&
    -- clause 6
    (let s : State := tPlay (fun p => { p with state := .fading, fadeEnd := 5000 }); let pc := 63; decide (s.tablesWf = true) &&
      decide ((getPc s pc).state = .fading))) = true := by decide +kernel

/-- States and operands that meet the hypotheses of each clause. -/
theorem test_meets_StorageCommandsComplete : (
    -- clause 1
    (let s : State := tQueue (fun q => { q with jobs := [tStorJob] }) |> tNamespace; let qp := 100; let r := (ReadOutcome.pending);
      decide (s.tablesWf = true) && (match retryCmds s with
      | u => ((match nextJob u qp 3 with
      | some j => (decide (queueShed u (getQueue u qp) = false) && decide (outstandingCmds u < 65536) &&
      decide (storDeferred u (getQueue u qp) = false) && (match resolveCmd u (getQueue u qp) j.lastDesc with
      | .ok (ns, es) => (decide (cmdKeyRefusal u ns es = none)) | _ => false)) | _ => false))))
    &&
    -- clause 2
    (let s : State := (tQueue (fun q => { q with jobs := [tStorJob] }) |> tNamespace |> tVfm (fun v => { v with inForce := [(5, { ResRecord.vfDefault with shed := 3 })] }) |> tAlp (fun a => { a with state := .emergency, levels := [(2, .emergency)] }));
      let qp := 100; let r := (ReadOutcome.pending); decide (s.tablesWf = true) && (match retryCmds s with
      | u => ((match nextJob u qp 3 with
      | some j => (decide (queueShed u (getQueue u qp) = true)) | _ => false))))
    &&
    -- clause 3
    (let s : State := (tRun |> tStr (fun x => { x with cmds := [(5, tCmd .gone)] })); let k := 5; decide (s.tablesWf = true) &&
      (match getCmd s k with
      | some c => ((match c.startedAt with
      | some d => (decide (c.owner = .gone)) | _ => false)) | _ => false))
    &&
    -- clause 4
    (let s : State := (tRecorder (fun r => { r with written := 4096, flushed := 8192 }) |> tStr (fun x => { x with cmds := [(5, tCmd (.journal 8192))] }));
      let k := 5; decide (s.tablesWf = true) && (match getCmd s k with
      | some c => ((match c.startedAt with
      | some d => ((match c.owner with
      | .journal upTo => (true) | _ => false)) | _ => false)) | _ => false))
    &&
    -- clause 5
    (let s : State := (tQueue id |> tStr (fun x => { x with cmds := [(5, tCmd (.queue 100 0))] })); let k := 5;
      decide (s.tablesWf = true) && (match getCmd s k with
      | some c => ((match c.startedAt with
      | some d => ((match c.owner with
      | .queue qp pos => (true) | _ => false)) | _ => false)) | _ => false))
    &&
    -- clause 6
    (let s : State := tNamespace tRun |> setView .host rSTR_IND_CTL 0x10; let p := (Party.host);
      let d := (nsEntry (tNamespace tRun) 0); decide (s.tablesWf = true) &&
      decide (strRead (fld (getView s p rSTR_IND_CTL) 4 4) (fld (getView s p rSTR_IND_ADDR) 0 30) s = (readBack (fld (getView s p rSTR_IND_ADDR) 0 30) d, s)))
    &&
    -- clause 7
    (let s : State := tNamespace tRun |> setView .host rSTR_IND_CTL 0x10 |> tWords .host (rSTR_IND_DATA 0) [0x01002005, 0, 1, 0];
      let p := (Party.host); let u := ((strWrite false 1 0 (viewBytes s .host (rSTR_IND_DATA 0) 16) s).2);
      decide (s.tablesWf = true) &&
      decide (strWrite (isCrater p) (fld (getView s p rSTR_IND_CTL) 4 4) (fld (getView s p rSTR_IND_ADDR) 0 30) (viewBytes s p (rSTR_IND_DATA 0) 16) s = (wrote (fld (getView s p rSTR_IND_ADDR) 0 30), u)))) = true := by decide +kernel

/-- States and operands that meet the hypotheses of each clause. -/
theorem test_meets_ConnectionCommandsComplete : (
    -- clause 1
    (let s : State := (tRun |> (fun s => { s with sinks := [(23, [tFrame 60])] })); decide (s.tablesWf = true) &&
      (match takeSegment (mget (fun _ => []) s.sinks 23) with
      | some (f, rest) => (true) | _ => false))
    &&
    -- clause 2
    (let s : State := tConn (fun c => { c with tcp := { c.tcp with rtoAt := some 5000, rto := 1000000, sendBuf := [1, 2, 3], una := 100, nxt := 103, mss := 1460 } });
      let n := 7; decide (s.tablesWf = true) && (match (getConn s n).tcp.rtoAt with
      | some d => (decide ((getConn s n).tcp.established = true) && decide ((getConn s n).tcp.retries < retryLimit s) &&
      decide ((getConn s n).tcp.spent (retryLimit s) = false)) | _ => false))
    &&
    -- clause 3
    (let s : State := tConn (fun c => { c with tcp := { c.tcp with rtoAt := some 5000, retries := 15 } }); let n := 7;
      decide (s.tablesWf = true) && (match (getConn s n).tcp.rtoAt with
      | some d => (decide (retryLimit s ≤ (getConn s n).tcp.retries ∨ (getConn s n).tcp.spent (retryLimit s) = true)) | _ => false))
    &&
    -- clause 4
    (let s : State := tConn (fun c => { c with tcp := { c.tcp with ackAt := some 5000, ackSegs := 1 } }); let n := 7;
      decide (s.tablesWf = true) && (match (getConn s n).tcp.ackAt with
      | some d => (true) | _ => false))
    &&
    -- clause 5
    (let s : State := tConn (fun c => { c with tcp := { c.tcp with probes := 4 } }); let n := 7; decide (s.tablesWf = true) &&
      decide ((getConn s n).tcp.established = true) && decide ((getConn s n).state = .ready) &&
      decide ((getConn s n).tcp.probes < 5))
    &&
    -- clause 6
    (let s : State := tConn (fun c => { c with state := .opening, phase := .icReq, tcp := { c.tcp with rxBuf := [1, 0, 128, 0, 128, 0, 0, 0, 0, 0, 0, 0, 0, 0x10, 0, 0] ++ List.replicate 112 0 } });
      let n := 7; decide (s.tablesWf = true) && decide ((getConn s n).state = .opening) && decide ((getConn s n).phase = .icReq) &&
      (match headPdu (getConn s n) with
      | some (.ok p) => (decide (p.type = 1) && decide (leAt p.head 8 2 = 0) &&
      decide (byteAt p.head 11 = (getConn s n).hdgst.toNat + 2 * (getConn s n).ddgst.toNat) &&
      decide (4096 ≤ leAt p.head 12 4)) | _ => false))
    &&
    -- clause 7
    (let s : State := (tConn (fun c => { c with cids := [(3, .raw false 0 8)], rawData := [1, 2, 3, 4, 5, 6, 7, 8], tcp := { c.tcp with rxBuf := [9, 0, 24, 0, 24, 0, 0, 0, 3, 0, 1, 0, 0, 0, 0, 0, 8, 0, 0, 0, 0, 0, 0, 0] } }));
      let n := 7; decide (s.tablesWf = true) && decide ((getConn s n).state = .ready) && (match headPdu (getConn s n) with
      | some (.ok p) => (decide (p.type = 9) && (match mfind (getConn s n).cids (leAt p.head 8 2) with
      | some u => ((match cidData s (getConn s n) u with
      | some d => (decide (leAt p.head 12 4 + leAt p.head 16 4 ≤ d.length) &&
      decide (0 < leAt p.head 16 4)) | _ => false)) | _ => false)) | _ => false))
    &&
    -- clause 8
    (let s : State := (tConn (fun c => { c with cids := [(3, .raw false 0 8)], tcp := { c.tcp with rxBuf := [7, 4, 24, 0, 28, 0, 0, 0, 3, 0, 0, 0, 4, 0, 0, 0, 4, 0, 0, 0, 0, 0, 0, 0, 9, 9, 9, 9] } }));
      let n := 7; decide (s.tablesWf = true) && decide ((getConn s n).state = .ready) && (match headPdu (getConn s n) with
      | some (.ok p) => (decide (p.type = 7) && decide (p.badData = false) && (match mfind (getConn s n).cids (leAt p.head 8 2) with
      | some (.raw ring addr m) => (decide (leAt p.head 12 4 + p.data.length ≤ m) && decide ((nbit p.flags 3 &&
      nbit p.flags 2) = false)) | _ => false)) | _ => false))
    &&
    -- clause 9
    (let s : State := (tConn (fun c => { c with cids := [(3, .raw false 0 8)], tcp := { c.tcp with rxBuf := [5, 0, 24, 0, 24, 0, 0, 0, 0, 0, 0, 0, 0, 0, 0, 0, 0, 0, 0, 0, 3, 0, 0, 0] } }));
      let n := 7; decide (s.tablesWf = true) && decide ((getConn s n).state = .ready) && (match headPdu (getConn s n) with
      | some (.ok p) => (decide (p.type = 5) && (match mfind (getConn s n).cids (leAt p.head 20 2) with
      | some u => (true) | _ => false)) | _ => false))
    &&
    -- clause 10
    (let s : State := tConn (fun c => { c with tcp := { c.tcp with rxBuf := [3, 0, 24, 0, 24, 0, 0, 0] ++ List.replicate 16 0 } });
      let n := 7; decide (s.tablesWf = true) && decide ((getConn s n).state = .ready) && (match headPdu (getConn s n) with
      | some (.ok p) => (decide (p.type = 3)) | _ => false))
    &&
    -- clause 11
    (let s : State := tConn (fun c => { c with state := .opening, openedAt := 900 }); let n := 7; decide (s.tablesWf = true) &&
      decide ((getConn s n).state = .opening))
    &&
    -- clause 12
    (let s : State := tConn (fun c => { c with state := .closing }); let n := 7; decide (s.tablesWf = true) &&
      decide ((getConn s n).state = .closing) && decide ((getConn s n).outstanding = 0))) = true := by decide +kernel

/-- States and operands that meet the hypotheses of each clause. -/
theorem test_meets_HostRequestCommandsComplete : (
    -- clause 1
    (let s : State := tHost id; let reg := 1023; let be := (0xF#4); let data := (0#32); let tag := 3; decide (s.tablesWf = true) &&
      decide (isRunning s = true) && decide (s.hep.linkUp = true) && decide (s.ident.role ≠ .member) &&
      decide (s.hep.cfgReady = true) && decide (s.cas.fnHeld = false) && decide ((getFn s pf).flrFrom = none))
    &&
    -- clause 2
    (let s : State := tHost id; let reg := 1; let be := (0xF#4); let data := (0x6#32); let tag := 3;
      let u := ((writeCfg .pf 1 0xF 6 s).2); decide (s.tablesWf = true) && decide (isRunning s = true) &&
      decide (s.hep.linkUp = true) && decide (s.ident.role ≠ .member) && decide (s.hep.cfgReady = true) &&
      decide (s.cas.fnHeld = false) && decide ((getFn s pf).flrFrom = none) &&
      decide (writeCfg .pf (reg % 1024) be data s = (false, u)))
    &&
    -- clause 3
    (let s : State := tHost id; let r := (tMemReq false); decide (s.tablesWf = true) && decide (isRunning s = true) &&
      decide (s.hep.linkUp = true) && decide (s.ident.role ≠ .member) && decide (s.cas.fnHeld = false) &&
      decide (r.target = .bar0) && decide (r.error = none) && decide (r.unsupported = false) &&
      decide (portAsleep s s.ident.cid = false) && decide (memEnabled s pf = true) && decide ((getFn s pf).d3hot = false) &&
      decide ((getFn s pf).flrFrom = none) && decide (r.write = false) && decide (registerSized r.offset r.len = true))
    &&
    -- clause 4
    (let s : State := tHost id; let r := (tMemReq true); decide (s.tablesWf = true) && decide (isRunning s = true) &&
      decide (s.hep.linkUp = true) && decide (s.ident.role ≠ .member) && decide (s.cas.fnHeld = false) &&
      decide (r.target = .bar0) && decide (r.error = none) && decide (r.unsupported = false) &&
      decide (portAsleep s s.ident.cid = false) && decide (memEnabled s pf = true) && decide ((getFn s pf).d3hot = false) &&
      decide ((getFn s pf).flrFrom = none) && decide (r.write = true) && decide (r.poisoned = false) &&
      decide (r.data.length = 4) && decide (r.offset % 4 = 0))
    &&
    -- clause 5
    (let s : State := tHost id; let r := ({ tMemReq false with error := some .badTlp }); decide (s.tablesWf = true) &&
      decide (isRunning s = true) && decide (s.hep.linkUp = true) && decide (s.ident.role ≠ .member) &&
      decide (r.error = some .badTlp))
    &&
    -- clause 6
    (let s : State := tHost id; let fn := 5; decide (s.tablesWf = true))
    &&
    -- clause 7
    (let s : State := tHost id; let fn := 5; decide (s.tablesWf = true))
    &&
    -- clause 8
    (let s : State := (tHost (fun h => { h with tags := [(77, tTag)] })); let fn := 5; let tag := 77;
      let bs := ([1, 2, 3, 4, 5, 6, 7, 8]); decide (s.tablesWf = true) && decide (fn < 65536) && decide (s.hep.linkUp = true) &&
      (match mfind s.hep.tags tag with
      | some e => (decide (e.fn = fn) && decide (e.abandoned = false) && decide (e.quarantined = false)) | _ => false))
    &&
    -- clause 9
    (let s : State := (tHost (fun h => { h with tags := [(77, { tTag with abandoned := true, quarantined := true })] }));
      let fn := 5; let tag := 77; let bs := ([1, 2, 3, 4, 5, 6, 7, 8]); decide (s.tablesWf = true) && decide (fn < 65536) &&
      decide (s.hep.linkUp = true) && (match mfind s.hep.tags tag with
      | some e => (decide (e.fn = fn) && decide (e.abandoned = true) && decide (s.hep.flushWait = []) &&
      decide (e.upTo ≤ e.got.length + bs.length)) | _ => false))
    &&
    -- clause 10
    (let s : State := (tHost (fun h => { h with tags := [(77, { tTag with abandoned := true })] })); let tag := 77;
      decide (s.tablesWf = true) && (match mfind s.hep.tags tag with
      | some e => ((match e.timeout with
      | some d => (decide (e.quarantined = false) && decide (e.abandoned = true) && decide (readHeld s tag = false) &&
      decide (s.hep.flushWait = [])) | _ => false)) | _ => false))
    &&
    -- clause 11
    (let s : State := (tHost (fun h => { h with tags := [(77, tTag)] })); let tag := 77; decide (s.tablesWf = true) &&
      (match mfind s.hep.tags tag with
      | some e => ((match e.timeout with
      | some d => (decide (e.quarantined = false) && decide (e.abandoned = false) &&
      decide (readHeld s tag = false)) | _ => false)) | _ => false))
    &&
    -- clause 12
    (let s : State := tHost id; let fn := pf; let vec := 2047; let m := false; decide (s.tablesWf = true) &&
      decide (fnExists s fn = true) && decide (memEnabled s fn = true) && decide ((getFn s fn).d3hot = false) &&
      decide ((getFn s fn).flrFrom = none) && decide (vec < vectorsOf fn))) = true := by decide +kernel

/-- States and operands that meet the hypotheses of each clause. -/
theorem test_meets_FunctionCommandsComplete : (
    -- clause 1
    (let s : State := tHost id; let fn := pf; decide (s.tablesWf = true) && decide (takesConfig s fn = true))
    &&
    -- clause 2
    (let s : State := tHost id; let fn := 5; decide (s.tablesWf = true) && decide (takesConfig s fn = true))
    &&
    -- clause 3
    (let s : State := tHost id; let fn := 5; let on := false; decide (s.tablesWf = true) && decide (takesConfig s fn = true) &&
      decide (fn < pf))
    &&
    -- clause 4
    (let s : State := tHost id; let on := true; decide (s.tablesWf = true) && decide (takesConfig s pf = true))
    &&
    -- clause 5
    (let s : State := tHost id; decide (s.tablesWf = true) && decide (takesConfig s pf = true))
    &&
    -- clause 6
    (let s : State := (tHost (fun h => { h with fns := [(pf, { Func.init with d3hot := true })] })); decide (s.tablesWf = true) &&
      decide (takesConfig s pf = true))
    &&
    -- clause 7
    (let s : State := (tHost id |> tVfm (fun v => { v with segments := [(320, { dva := 0, len := 4096, host := 0, read := true, write := true, valid := true, engines := 15, damaged := false })] }));
      let vf := 5; decide (s.tablesWf = true) && decide (vf < pf) && decide (takesConfig s vf = true))
    &&
    -- clause 8
    (let s : State := tHost id; decide (s.tablesWf = true) && decide (takesConfig s pf = true))
    &&
    -- clause 9
    (let s : State := (tHost (fun h => { h with fns := [(5, { Func.init with flrFrom := some 700 })] })); let fn := 5;
      decide (s.tablesWf = true) && (match (getFn s fn).flrFrom with
      | some d => (decide ((flrTags s fn).isEmpty = true)) | _ => false))
    &&
    -- clause 10
    (let s : State := (tHost (fun h => { h with fns := [(5, { Func.init with flrFrom := some 700 })], tags := [(77, { tTag with abandoned := true })] }));
      let fn := 5; decide (s.tablesWf = true) && decide (s.hep.flushWait = []) && (match (getFn s fn).flrFrom with
      | some d => (decide ((flrTags (reachTime (d + 99900000) s) fn).isEmpty = false)) | _ => false))
    &&
    -- clause 11
    (let s : State := tHost (fun h => { h with vfEnable := false }); decide (s.tablesWf = true) &&
      decide (takesConfig s pf = true) && decide (s.hep.vfEnable = false) && decide (s.hep.numVfs.toNat ≤ totalVfs s))
    &&
    -- clause 12
    (let s : State := tHost id; decide (s.tablesWf = true) && decide (takesConfig s pf = true) && decide (s.hep.vfEnable = true))
    &&
    -- clause 13
    (let s : State := tHost (fun h => { h with vfEnable := false }); let n := (65535#16); decide (s.tablesWf = true) &&
      decide (takesConfig s pf = true) && decide (s.hep.vfEnable = false))) = true := by decide +kernel

/-- States and operands that meet the hypotheses of each clause. -/
theorem test_meets_VirtualFunctionCommandsComplete : (
    -- clause 1
    (let s : State := tHost id |> setView .host rVFM_IND_ADDR 4096; let p := (Party.host); decide (s.tablesWf = true) &&
      decide (fld (getView s p rVFM_IND_ADDR) 24 2 = 0) && decide (fld (getView s p rVFM_IND_ADDR) 0 13 ≤ pf))
    &&
    -- clause 2
    (let s : State := tHost id |> setView .host rVFM_IND_ADDR 4096; let p := (Party.host); let n := pf;
      decide (s.tablesWf = true) && decide (fld (getView s p rVFM_IND_ADDR) 24 2 = 0) &&
      decide (fld (getView s p rVFM_IND_ADDR) 0 13 = n) && decide (n ≤ pf))
    &&
    -- clause 3
    (let s : State := (tHost id |> setView .host rVFM_IND_ADDR 5 |> tWords .host (rVFM_IND_DATA 0) (bytesToWords 16 (recordBytes ResRecord.vfDefault)));
      let p := (Party.host); let u := ((writeRecord 5 (viewBytes s .host (rVFM_IND_DATA 0) 16) s).2); decide (s.tablesWf = true) &&
      decide (fld (getView s p rVFM_IND_ADDR) 24 2 = 0) &&
      decide (writeRecord (fld (getView s p rVFM_IND_ADDR) 0 13) (viewBytes s p (rVFM_IND_DATA 0) 16) s = (0, u)))
    &&
    -- clause 4
    (let s : State := tHost id; let p := (Party.host); let n := 4096; decide (s.tablesWf = true) && decide (n ≤ pf) &&
      decide ((getFnS s n).state = .run))
    &&
    -- clause 5
    (let s : State := (tHost id |> tVfm (fun v => { v with fns := [(5, { state := .stopped, since := 0, waiters := [] })] }));
      let p := (Party.host); let n := 5; decide (s.tablesWf = true) && decide (n ≤ pf) && decide ((getFnS s n).state = .stopped))
    &&
    -- clause 6
    (let s : State := (tHost id |> tVfm (fun v => { v with fns := [(5, { state := .quiesce, since := 0, waiters := [] })] }));
      let n := 5; decide (s.tablesWf = true) && decide ((getFnS s n).state = .quiesce) && decide (drainTokens s n = 0))
    &&
    -- clause 7
    (let s : State := (tHost (fun h => { h with tags := [(77, tTag)] }) |> tVfm (fun v => { v with fns := [(5, { state := .quiesce, since := 0, waiters := [true] })] }));
      let n := 5; decide (s.tablesWf = true) && decide ((getFnS s n).state = .quiesce) && decide (drainTokens s n ≠ 0))
    &&
    -- clause 8
    (let s : State := tHost id; let eng := (DtuEngine.storage); let n := 5; let dva := 4096; let len := 8; let w := true;
      decide (s.tablesWf = true) && (match dtuWalk s eng n w 65 dva len with
      | .error (a, false) => (true) | _ => false))
    &&
    -- clause 9
    (let s : State := (tHost id |> tVfm (fun v => { v with segments := [(320, { dva := 4096, len := 4096, host := 0x100000, read := true, write := true, valid := true, engines := 15, damaged := false })] }));
      let eng := (DtuEngine.storage); let n := 5; let dva := 4096; let len := 8; let w := true; decide (s.tablesWf = true) &&
      (match dtuWalk s eng n w 65 dva len with
      | .ok (ps, ks) => (true) | _ => false))
    &&
    -- clause 10
    (let s : State := (tHost id |> tVfm (fun v => { v with segments := [(320, { dva := 4096, len := 4096, host := 0x100000, read := true, write := true, valid := true, engines := 15, damaged := false })] }));
      let eng := (DtuEngine.storage); let n := 5; let dva := 8191; let len := 8; let w := true; let k := 320;
      let g := (({ dva := 4096, len := 4096, host := 0x100000, read := true, write := true, valid := true, engines := 15, damaged := false } : DtuSegment));
      decide (s.tablesWf = true) && decide (segmentAt s n dva = some (k, g)) && decide (segmentAt (loseSegment k s) n dva = none) &&
      decide (len ≠ 0) && decide (s.vfm.cache.contains k = false))
    &&
    -- clause 11
    (let s : State := (tHost id |> tVfm (fun v => { v with unmaps := [(5, false)] })); let n := 5; decide (s.tablesWf = true) &&
      decide (dtuBusy s n = false))) = true := by decide +kernel

/-- States and operands that meet the hypotheses of each clause. -/
theorem test_meets_DoorbellCommandsComplete : (
    -- clause 1
    (let s : State := tRing id; let fn : Nat := 5; let qp : Nat := 100; let v : Word := 16#32; decide (s.tablesWf = true) &&
      decide (mayRing s fn qp = true) && decide ((getQueue s qp).state ≠ .disabled) &&
      decide (0 < ringDelta v.toNat (getQueue s qp).tail) &&
      decide (ringDelta v.toNat (getQueue s qp).tail ≤ (getQueue s qp).freeSlots))
    &&
    -- clause 2
    (let s : State := tRing id; let fn : Nat := 5; let qp : Nat := 100; let v : Word := 17#32; decide (s.tablesWf = true) &&
      decide (mayRing s fn qp = true) && decide ((getQueue s qp).state ≠ .disabled) &&
      decide ((getQueue s qp).freeSlots < ringDelta v.toNat (getQueue s qp).tail))
    &&
    -- clause 3
    (let s : State := tRing (fun q => { q with written := 4, cqHead := 1 }); let fn : Nat := 5; let qp : Nat := 100;
      let v : Word := 4#32; decide (s.tablesWf = true) && decide (mayRing s fn qp = true) &&
      decide ((getQueue s qp).state ≠ .disabled) &&
      decide ((getQueue s qp).cqHead + ringDelta v.toNat (getQueue s qp).cqHead ≤ (getQueue s qp).written))
    &&
    -- clause 4
    (let s : State := tRing (fun q => { q with written := 4, cqHead := 4 }); let fn : Nat := 5; let qp : Nat := 100;
      let v : Word := 1#32; decide (s.tablesWf = true) && decide (mayRing s fn qp = true) &&
      decide ((getQueue s qp).state ≠ .disabled) && decide (bit v 0 = true) &&
      decide ((getQueue s qp).written ≤ (getQueue s qp).cqHead))
    &&
    -- clause 5
    (let s : State := tRing (fun q => { q with written := 4, cqHead := 3 }); let fn : Nat := 5; let qp : Nat := 100;
      let v : Word := 1#32; decide (s.tablesWf = true) && decide (mayRing s fn qp = true) &&
      decide ((getQueue s qp).state ≠ .disabled) && decide (bit v 0 = true) &&
      decide ((getQueue s qp).cqHead < (getQueue s qp).written))
    &&
    -- clause 6
    (let s : State := (tRing (fun q => { q with tail := 15, pushed := [(12, []), (13, []), (14, [])] })); let fn : Nat := 5;
      let qp : Nat := 100; let d := (List.replicate 64 3); decide (s.tablesWf = true) && decide (mayRing s fn qp = true) &&
      decide ((getQueue s qp).state ≠ .disabled) && decide ((getQueue s qp).freeSlots ≠ 0) &&
      decide ((mfilter (fun k _ => decide ((getQueue s qp).unstarted ≤ k)) (getQueue s qp).pushed).length < 4))
    &&
    -- clause 7
    (let s : State := (tRing (fun q => { q with tail := 15, pushed := [(11, []), (12, []), (13, []), (14, [])] }));
      let fn : Nat := 5; let qp : Nat := 100; let d := (List.replicate 64 3); decide (s.tablesWf = true) &&
      decide (mayRing s fn qp = true) && decide ((getQueue s qp).state ≠ .disabled) && decide ((getQueue s qp).freeSlots ≠ 0) &&
      decide (4 ≤ (mfilter (fun k _ => decide ((getQueue s qp).unstarted ≤ k)) (getQueue s qp).pushed).length))
    &&
    -- clause 8
    (let s : State := tRing (fun q => { q with written := 1, armed := true, unsignalled := 1, firstUnsig := some 900, modUs := 3 });
      let qp : Nat := 100; decide (s.tablesWf = true) && (match (getQueue s qp).firstUnsig with
      | some d => (decide ((getQueue s qp).armed = true) && decide (0 < (getQueue s qp).unsignalled)) | _ => false))) = true := by decide +kernel

/-- States and operands that meet the hypotheses of each clause. -/
theorem test_meets_QueueJobCommandsComplete : (
    -- clause 1
    (let s : State := (tRing (fun q => { q with tail := 1, pushed := [(0, List.replicate 64 0)] })); let qp := 100;
      let r := (ReadOutcome.pending); decide (s.tablesWf = true) && decide (fetchNow s qp (getQueue s qp) = true) &&
      decide (lsFetchFirst s (getQueue s qp) = false) && (match fetchTurn s (getQueue s qp).inst with
      | some tn => ((match mfind (getQueue s qp).pushed (getQueue s qp).fetched with
      | some d => (true) | _ => false)) | _ => false))
    &&
    -- clause 2
    (let s : State := tRing (fun q => { q with tail := 1 }); let qp := 100; let r := (ReadOutcome.data (List.replicate 64 0));
      decide (s.tablesWf = true) && decide (fetchNow s qp (getQueue s qp) = true) &&
      decide (lsFetchFirst s (getQueue s qp) = false) && decide (qp ≠ svcRingQp) && (match fetchTurn s (getQueue s qp).inst with
      | some tn => (decide (mfind (getQueue s qp).pushed (getQueue s qp).fetched = none) &&
      (match hostRead (getQueue s qp).inst [((getQueue s qp).sqBase + 64 * ((getQueue s qp).fetched % (getQueue s qp).sqSize), 64)] r (.descriptor qp (getQueue s qp).fetched) [] { s with wqm := { s.wqm with turn := tn.spend } } with
      | (rep, u) => (true))) | _ => false))
    &&
    -- clause 3
    (let s : State := tRing (fun q => { q with tail := 1 }); let qp := 100; let r := (ReadOutcome.pending);
      decide (s.tablesWf = true) && decide (qp ≠ svcRingQp) && decide ((getQueue s qp).state ≠ .disabled))
    &&
    -- clause 4
    (let s : State := (tRing (fun q => { q with kind := .tx, jobs := [tJob [1]] }) |> tVfm (fun v => { v with records := [(5, { tRes with shed := 2 })], inForce := [(5, { tRes with shed := 2 })] }) |> tAlp (fun a => { a with state := .emergency, levels := [(2, .emergency)] }));
      let qp := 100; let r := (ReadOutcome.pending); decide (s.tablesWf = true) && (match nextJob s qp 1 with
      | some j => (decide (queueShed s (getQueue s qp) = true)) | _ => false))
    &&
    -- clause 5
    (let s : State := tRing (fun q => { q with kind := .tx, jobs := [tJob [1, 0x20, 0, 0, 4, 0, 0, 0]] }); let qp := 100;
      let r := (ReadOutcome.pending); decide (s.tablesWf = true) && (match nextJob s qp 1 with
      | some j => (decide (queueShed s (getQueue s qp) = false) && decide (txHeld s (getQueue s qp) = false) &&
      decide (hostSegments j.descs = [])) | _ => false))
    &&
    -- clause 6
    (let s : State := tRing (fun q => { q with kind := .tx, jobs := [tJob [1, 0, 0, 0, 60, 0, 0, 0, 0, 1]] }); let qp := 100;
      let r := (ReadOutcome.data (List.replicate 60 0)); decide (s.tablesWf = true) && (match nextJob s qp 1 with
      | some j => (decide (queueShed s (getQueue s qp) = false) && decide (txHeld s (getQueue s qp) = false) &&
      decide (hostSegments j.descs ≠ []) && (match issueTurn s (getQueue s qp).inst with
      | some tn => ((match hostRead (getQueue s qp).inst (hostSegments j.descs) r (.jobData qp j.lastPos) [] (spendIssue tn s) with
      | (rep, u) => (true))) | _ => false)) | _ => false))
    &&
    -- clause 7
    (let s : State := tRing (fun q => { q with kind := .tx, jobs := [tJob [0]] }); let qp := 100; decide (s.tablesWf = true) &&
      (match nextJob s qp 0 with
      | some j => (true) | _ => false))
    &&
    -- clause 8
    (let s : State := (tRing (fun q => { q with kind := .rx, tail := 1, fetched := 1, jobs := [tJob [2, 0, 0, 0, 128, 0, 0, 0, 0, 1]] }) |> (fun s => { s with sinks := [(21, [tRx])] }));
      let h := 1; decide (s.tablesWf = true) && (match mget (fun _ => []) s.sinks (20 + h % 2) with
      | f :: rest => ((match deliverRx f s with
      | some u => (true) | _ => false)) | _ => false))
    &&
    -- clause 9
    (let s : State := (tRing (fun q => { q with kind := .rx, tail := 1, fetched := 1, jobs := [tJob [2, 0, 0, 0, 128, 0, 0, 0, 0, 1]] }) |> (fun s => { s with sinks := [(21, [tRx])] }));
      let h := 1; decide (s.tablesWf = true) && (match deliverFirst s [] (mget (fun _ => []) s.sinks (20 + h % 2)) with
      | some (u, rest) => (true) | _ => false))
    &&
    -- clause 10
    (let s : State := tRing id; let qp := 100; decide (s.tablesWf = true) &&
      decide ((getQueue s (regFld s rWQM_QCTL 0 16)).resets = []) && decide (qp < 65536) &&
      decide ((getQueue s qp).state ≠ .disabled))
    &&
    -- clause 11
    (let s : State := tRing id; let qp := 100; decide (s.tablesWf = true) &&
      decide ((getQueue s (regFld s rWQM_QCTL 0 16)).resets = []) && decide (qp < 65536) &&
      decide ((getQueue s qp).state ≠ .disabled) && decide (isLsPair s qp = false))
    &&
    -- clause 12
    (let s : State := tRing (fun q => { q with tail := 1, resets := [{ disable := true, ring := some true, tail := 1, started := false, flushed := 0 }] });
      let qp := 100; let ring := ([ReadOutcome.data (List.replicate 64 0)]); decide (s.tablesWf = true) &&
      (match (getQueue s qp).resets with
      | req :: rest => (decide (req.started = false) &&
      decide ((∀ j ∈ (getQueue s qp).jobs, j.phase ≠ .executing ∧ j.barrier = false)) &&
      decide (fetchOut s qp (getQueue s qp) = false) &&
      decide (req.tail ≤ (getQueue s qp).fetched ∨ readBlocked s (getQueue s qp).inst = false) &&
      (match unfetched s qp (getQueue s qp) (req.tail - (getQueue s qp).fetched) (getQueue s qp).fetched ring with
      | some (ds, broken) => (true) | _ => false)) | _ => false))
    &&
    -- clause 13
    (let s : State := (tRing (fun q => { q with state := .disabled }) |> tWqm (fun w => { w with lsImage := [(100, { Queue.init with kind := .rx, inst := 5, ls := true })] }));
      let qp := 100; decide (s.tablesWf = true) && (match lsContext s qp with
      | some q => (decide ((getQueue s qp).state = .disabled)) | _ => false))
    &&
    -- clause 14
    (let s : State := tHost id; let p := (Party.host); let ring := false; let v := (0xCC1#32); decide (s.tablesWf = true) &&
      decide (ownsRing p ring = true) && decide ((getQueue s (adminQp ring)).state = .disabled) &&
      decide (bit (getReg s (if ring then rWQM_SVCQ_CFG else rWQM_ADMIN_CFG)) 0 = false) && decide (bit v 0 = true) &&
      decide (fld v 4 4 ≤ fld v 8 4) && decide (fld v 8 4 ≤ 12))
    &&
    -- clause 15
    (let s : State := (tHost id |> tWqm (fun w => { w with queues := [(svcRingQp, { Queue.init with state := .run, kind := .admin, inst := 4098 })] }) |> setReg rWQM_SVCQ_CFG 0xFF1);
      let p := (Party.service 0); let ring := true; let v := (0#32); decide (s.tablesWf = true) &&
      decide (ownsRing p ring = true) && decide (bit (getReg s (if ring then rWQM_SVCQ_CFG else rWQM_ADMIN_CFG)) 0 = true) &&
      decide (bit v 0 = false) && decide ((getQueue s (adminQp ring)).jobs = []))) = true := by decide +kernel

/-- States and operands that meet the hypotheses of each clause. -/
theorem test_meets_PoolCommandsComplete : (
    -- clause 1
    (let s : State := tPools tPoolOne id; let r := tPoolReq; decide (s.tablesWf = true) && (match firstChoice s r.purpose r.len with
      | some n => (decide (s.pcr.refuge = false ∨ r.purpose = .core) && decide (judge s r n = .ok)) | _ => false))
    &&
    -- clause 2
    (let s : State := (tPools tPoolOne (fun m => { m with service := true, quotas := [(5, { netRx := 0, netTx := 0, stor := 0 })] }));
      let r := tPoolReq; decide (s.tablesWf = true) && (match firstChoice s r.purpose r.len with
      | some n => (decide (s.pcr.refuge = false ∨ r.purpose = .core) && decide (judge s r n = .quota)) | _ => false))
    &&
    -- clause 3
    (let s : State := tPools { tPoolOne with lsMin := 2 } id; let r := tPoolReq; decide (s.tablesWf = true) &&
      (match firstChoice s r.purpose r.len with
      | some n => (decide (s.pcr.refuge = false ∨ r.purpose = .core) && decide (judge s r n = .empty)) | _ => false))
    &&
    -- clause 4
    (let s : State := tPools tPoolOne id; let r := ({ tPoolReq with len := 257 }); decide (s.tablesWf = true) &&
      decide (firstChoice s r.purpose r.len = none))
    &&
    -- clause 5
    (let s : State := tPools { tPoolOne with lsMin := 2 } (fun m => { m with waits := [{ req := tPoolReq, pool := 3, since := 900 }] });
      let id := 9; decide (s.tablesWf = true) && (match s.pool.waits.find? (fun w => decide (w.req.id = id)) with
      | some w => (true) | _ => false))
    &&
    -- clause 6
    (let s : State := (tPools tPoolOne (fun m => { m with held := [(2 ^ 24 * 3 + 0, { inst := 5, purpose := .netRx, ls := false })] }));
      let n := 3; let b := 0; decide (s.tablesWf = true) && (match mfind s.pool.held (2 ^ 24 * n + b) with
      | some h => (decide (s.pool.waits = [])) | _ => false))
    &&
    -- clause 7
    (let s : State := (tPools tPoolOne (fun m => { m with held := [(2 ^ 24 * 3 + 0, { inst := 5, purpose := .netRx, ls := false })], waits := [{ req := tPoolReq, pool := 3, since := 900 }] }));
      let n := 3; let b := 0; decide (s.tablesWf = true) && (match mfind s.pool.held (2 ^ 24 * n + b) with
      | some h => (true) | _ => false))
    &&
    -- clause 8
    (let s : State := tPools tPoolOne id; let p := (Party.host); let n := 19; decide (s.tablesWf = true) &&
      decide (isCrater p = false) && decide (s.pool.rebuilding = none) && decide (heldIn s (n % 16) = []))
    &&
    -- clause 9
    (let s : State := (tPools tPoolOne (fun m => { m with held := [(2 ^ 24 * 3 + 0, { inst := 5, purpose := .netRx, ls := false })] }));
      let p := (Party.host); let n := 3; decide (s.tablesWf = true) && decide (isCrater p = false) &&
      decide (s.pool.rebuilding = none) && decide (heldIn s (n % 16) ≠ []))
    &&
    -- clause 10
    (let s : State := tPools tPoolOne (fun m => { m with rebuilding := some 3 }); let n := 3; decide (s.tablesWf = true) &&
      decide (s.pool.rebuilding = some n) &&
      (match setPool n { getPool s n with stack := [], fresh := 0, lost := 0 } (reachTime (s.pool.rebuildAt + 1000) s) with
      | u => (true)))
    &&
    -- clause 11
    (let s : State := tPools tPoolOne id |> setView .host rPOOL_IND_ADDR 4096; let p := (Party.host); decide (s.tablesWf = true) &&
      decide (fld (getView s p rPOOL_IND_ADDR) 0 13 ≤ pf))
    &&
    -- clause 12
    (let s : State := tPools tPoolOne id |> setView .host rPOOL_IND_ADDR 4096 |> tWords .host (rPOOL_IND_DATA 0) [1, 0xFFFFFF, 2, 0, 0, 0];
      let p := (Party.host); decide (s.tablesWf = true) && decide (isCrater p = false) &&
      decide (fld (getView s p rPOOL_IND_ADDR) 0 13 ≤ pf) && decide (leAt (viewBytes s p (rPOOL_IND_DATA 0) 6) 0 3 ≠ 0) &&
      decide (leAt (viewBytes s p (rPOOL_IND_DATA 0) 6) 4 3 ≠ 0) && decide (leAt (viewBytes s p (rPOOL_IND_DATA 0) 6) 8 3 ≠ 0) &&
      decide ([3, 7, 11, 15, 19, 23].all (fun k => decide (byteAt (viewBytes s p (rPOOL_IND_DATA 0) 6) k = 0)) = true))
    &&
    -- clause 13
    (let s : State := tPools tPoolOne id |> tPcr (fun p => { p with refuge := true }); let r := tPoolReq;
      decide (s.tablesWf = true) && (match firstChoice s r.purpose r.len with
      | some n => (decide (s.pcr.refuge = true) && decide (r.purpose ≠ .core)) | _ => false))) = true := by decide +kernel

/-- States and operands that meet the hypotheses of each clause. -/
theorem test_meets_FunctionAdminCommandsComplete : (
    -- clause 1
    (let s : State := (tAdmin false (tD 0x80 0 0 ([100, 0, 5, 0, 1, 4, 6, 0, 3, 0, 1, 0, 5, 0, 0, 0] ++ toLe 8 0x10000 ++ toLe 8 0x20000)));
      let g : Bool := false; decide (s.tablesWf = true) && (match nextJob s (adminQp g) 0x80 with
      | some j => (decide (queueConfigBad s j.lastDesc = false) && decide ((getQueue s (leAt j.lastDesc 16 2)).state = .disabled) &&
      decide (isLsPair s (leAt j.lastDesc 16 2) = false)) | _ => false))
    &&
    -- clause 2
    (let s : State := (tAdmin true (tD 0x80 0 0 ([104, 0, 5, 0, 1, 4, 6, 0, 3, 0, 1, 0, 5, 0, 0, 0] ++ toLe 8 0x10000 ++ toLe 8 0x20000)));
      let g : Bool := true; decide (s.tablesWf = true) && (match nextJob s (adminQp g) 0x80 with
      | some j => (decide (queueConfigBad s j.lastDesc = true)) | _ => false))
    &&
    -- clause 3
    (let s : State := tAdmin false (tD 0x81 0 0 [100, 0, 1]) |> setQueue 100 { Queue.init with state := .run, inst := 5 };
      let g : Bool := false; decide (s.tablesWf = true) && (match nextJob s (adminQp g) 0x81 with
      | some j => (decide (leAt j.lastDesc 16 2 ≠ 0) && decide (byteAt j.lastDesc 18 ≤ 1) &&
      (match startReset (leAt j.lastDesc 16 2) (decide (byteAt j.lastDesc 18 = 1)) (some g) s with
      | (none, u) => (true) | _ => false)) | _ => false))
    &&
    -- clause 4
    (let s : State := tAdmin false (tD 0x81 0 0 [100, 0, 1]); let g : Bool := false; decide (s.tablesWf = true) &&
      (match nextJob s (adminQp g) 0x81 with
      | some j => (decide (leAt j.lastDesc 16 2 ≠ 0) && decide (byteAt j.lastDesc 18 ≤ 1) &&
      (match startReset (leAt j.lastDesc 16 2) (decide (byteAt j.lastDesc 18 = 1)) (some g) s with
      | (some st, u) => (true) | _ => false)) | _ => false))
    &&
    -- clause 5
    (let s : State := tAdmin true (tD 0x83 0 0 [0, 0x10, 1]); let g : Bool := true; decide (s.tablesWf = true) &&
      (match nextJob s (adminQp g) 0x83 with
      | some j => (decide (byteAt j.lastDesc 18 = 1) && (match quiesceFn (leAt j.lastDesc 16 2) (some g) s with
      | (.drains, u) => (true) | _ => false)) | _ => false))
    &&
    -- clause 6
    (let s : State := tAdmin false (tD 0x83 0 0 [1, 0x10, 1]); let g : Bool := false; decide (s.tablesWf = true) &&
      (match nextJob s (adminQp g) 0x83 with
      | some j => (decide (byteAt j.lastDesc 18 = 1) && (match quiesceFn (leAt j.lastDesc 16 2) (some g) s with
      | (.done st, u) => (true) | _ => false)) | _ => false))
    &&
    -- clause 7
    (let s : State := (tAdmin false (tD 0x83 0 0 [5, 0, 2]) |> tVfm (fun v => { v with fns := [(5, { state := .stopped, since := 0, waiters := [] })] }));
      let g : Bool := false; decide (s.tablesWf = true) && (match nextJob s (adminQp g) 0x83 with
      | some j => (decide (byteAt j.lastDesc 18 = 2)) | _ => false))
    &&
    -- clause 8
    (let s : State := (tAdmin false (tD 0x84 0 0 ([5, 0, 63, 0] ++ toLe 8 4096 ++ toLe 8 4096 ++ toLe 8 0x100000 ++ [7, 15])));
      let g : Bool := false; decide (s.tablesWf = true) && (match nextJob s 0 0x84 with
      | some j => (true) | _ => false))
    &&
    -- clause 9
    (let s : State := tAdmin true (tD 0x84 0 0 [5, 0]); let g : Bool := true; decide (s.tablesWf = true) &&
      (match nextJob s svcRingQp 0x84 with
      | some j => (true) | _ => false))
    &&
    -- clause 10
    (let s : State := tAdmin false (tD 0x85 0 0 [0, 0x10, 63, 0]); let g : Bool := false; decide (s.tablesWf = true) &&
      (match nextJob s 0 0x85 with
      | some j => (decide (leAt j.lastDesc 16 2 ≤ pf) && decide (byteAt j.lastDesc 19 = 0) && decide (byteAt j.lastDesc 18 ≤ 63) &&
      (match unmapSegments (leAt j.lastDesc 16 2) (some (byteAt j.lastDesc 18)) s with
      | u => (true))) | _ => false))
    &&
    -- clause 11
    (let s : State := tAdmin false (tD 0x85 0 0 [0, 0x10, 63, 1]); let g : Bool := false; decide (s.tablesWf = true) &&
      (match nextJob s 0 0x85 with
      | some j => (decide (leAt j.lastDesc 16 2 ≤ pf) && decide (byteAt j.lastDesc 19 = 1) &&
      (match unmapSegments (leAt j.lastDesc 16 2) none s with
      | u => (true))) | _ => false))
    &&
    -- clause 12
    (let s : State := tAdmin false (tD 0x82 64 0x3000 [5, 0]); let g : Bool := false;
      let r := (ReadOutcome.data (recordBytes tRes)); decide (s.tablesWf = true) && (match nextJob s (adminQp g) 0x82 with
      | some j => (decide (jobAt s (adminQp g) j.lastPos = some j) &&
      (match readAdmin g false j.lastPos (descAddr j.lastDesc) (descLen j.lastDesc) r s with
      | (.got bs, u) => (true) | _ => false)) | _ => false))) = true := by decide +kernel

/-- States and operands that meet the hypotheses of each clause. -/
theorem test_meets_TableAndStorageAdminCommandsComplete : (
    -- clause 1
    (let s : State := tAdmin true (tD 0x86 16 4096 [5, 1, 1, 0, 0, 0, 0, 0]); let g : Bool := true; let r := (ReadOutcome.pending);
      decide (s.tablesWf = true) && (match nextJob s (adminQp g) 0x86 with
      | some j => (decide (jobAt s (adminQp g) j.lastPos = some j) &&
      (match readAdmin g false j.lastPos (descAddr j.lastDesc) (descLen j.lastDesc) r s with
      | (.got bs, u) => (true) | _ => false)) | _ => false))
    &&
    -- clause 2
    (let s : State := tAdmin true (tD 0x87 16 4096 [5, 1, 0, 0, 0, 0, 0, 0]); let g : Bool := true; decide (s.tablesWf = true) &&
      (match nextJob s (adminQp g) 0x87 with
      | some j => ((match tableOperation j.lastDesc true [] s with
      | some (r, u) => (decide (r.code = 0) &&
      decide (g = true → inSvcMemory u (descAddr j.lastDesc) (r.data.take (descLen j.lastDesc)).length = true)) | _ => false)) | _ => false))
    &&
    -- clause 3
    (let s : State := tAdmin false (tD 0x88 64 8192 []); let r := (ReadOutcome.data (List.replicate 64 0));
      decide (s.tablesWf = true) && (match nextJob s 0 0x88 with
      | some j => (decide (jobAt s 0 j.lastPos = some j) &&
      (match readAdmin false true j.lastPos (descAddr j.lastDesc) (descLen j.lastDesc) r s with
      | (.got bs, u) => (true) | _ => false)) | _ => false))
    &&
    -- clause 4
    (let s : State := tAdmin false (tD 0x89 32 8192 []); let r := (ReadOutcome.data (List.replicate 32 0));
      decide (s.tablesWf = true) && (match nextJob s 0 0x89 with
      | some j => (decide (jobAt s 0 j.lastPos = some j) &&
      (match readAdmin false true j.lastPos (descAddr j.lastDesc) (descLen j.lastDesc) r s with
      | (.got bs, u) => (true) | _ => false)) | _ => false))
    &&
    -- clause 5
    (let s : State := tAdmin true (tD 0x88 64 8192 []); let r := (ReadOutcome.pending); decide (s.tablesWf = true) &&
      (match nextJob s svcRingQp 0x88 with
      | some j => (true) | _ => false))
    &&
    -- clause 6
    (let s : State := tAdmin true (tD 0x89 64 8192 []); let r := (ReadOutcome.pending); decide (s.tablesWf = true) &&
      (match nextJob s svcRingQp 0x89 with
      | some j => (true) | _ => false))
    &&
    -- clause 7
    (let s : State := tAdmin false (tD 0x8E 0 0 [31, 0, 3, 0]) |> tAdminStor id; decide (s.tablesWf = true) &&
      (match nextJob s 0 0x8E with
      | some j => (decide (playRefusal s (byteAt j.lastDesc 16) (leAt j.lastDesc 18 2) = none)) | _ => false))
    &&
    -- clause 8
    (let s : State := tAdmin false (tD 0x8F 0 0 [31]) |> tAdminStor id; decide (s.tablesWf = true) && (match nextJob s 0 0x8F with
      | some j => (decide (stopRefusal s (byteAt j.lastDesc 16) = none)) | _ => false))
    &&
    -- clause 9
    (let s : State := tAdmin true (tD 0x8A 0 4096 [7, 0]) |> tAdminStor id; let g : Bool := true; let r := (ReadOutcome.pending);
      decide (s.tablesWf = true) && (match nextJob s (adminQp g) 0x8A with
      | some j => (decide (jobAt s (adminQp g) j.lastPos = some j) &&
      (match readAdmin g false j.lastPos (descAddr j.lastDesc) (descLen j.lastDesc) r s with
      | (.got bs, u) => (true) | _ => false)) | _ => false))
    &&
    -- clause 10
    (let s : State := tAdmin true (tD 0x8B 0 0 [7, 0]) |> tAdminStor id; let g : Bool := true; decide (s.tablesWf = true) &&
      (match nextJob s (adminQp g) 0x8B with
      | some j => (decide (leAt j.lastDesc 16 2 < 1024) && decide ((getConn s (leAt j.lastDesc 16 2)).recorder = false) &&
      decide ((getConn s (leAt j.lastDesc 16 2)).state = .ready)) | _ => false))
    &&
    -- clause 11
    (let s : State := tAdmin false (tD 0x8B 0 0 [7, 0]) |> tAdminStor (fun c => { c with state := .failed }); let g : Bool := false;
      decide (s.tablesWf = true) && (match nextJob s (adminQp g) 0x8B with
      | some j => (decide (leAt j.lastDesc 16 2 < 1024) && decide ((getConn s (leAt j.lastDesc 16 2)).recorder = false) &&
      decide ((getConn s (leAt j.lastDesc 16 2)).state = .failed)) | _ => false))
    &&
    -- clause 12
    (let s : State := tAdmin false (tD 0x8C 0 0x4000 [7, 0]) |> tAdminStor id; let g : Bool := false;
      let r := (ReadOutcome.data (List.replicate 64 0)); let data := (ReadOutcome.data []); decide (s.tablesWf = true) &&
      (match nextJob s (adminQp g) 0x8C with
      | some j => (decide (rawRefusal s j.lastDesc = none) && decide (rawRoom s (leAt j.lastDesc 16 2) = true) &&
      (match readAdmin g false j.lastPos (descAddr j.lastDesc) 64 r s with
      | (.got b, u) => (true) | _ => false)) | _ => false))
    &&
    -- clause 13
    (let s : State := (tAdmin false (tD 0x8D 512 8192 []) |> tAdminStor (fun c => { c with recorder := true }) |> setReg rSTR_JNL_EXTENTS 1 |> tStr (fun x => { x with map := [(0, [1, 0, 0, 0, 0, 0, 0, 0])], bindings := [(0, [7, 0, 0xFF, 0xFF, 0xFF, 0xFF, 0xFF, 0xFF, 1, 0, 0, 0, 9, 0, 0, 0])] }));
      let g : Bool := false; let ecc := (EccResult.clean); decide (s.tablesWf = true) && (match nextJob s 0 0x8D with
      | some j => (decide ((levelAt s .str).emergent = false) && decide (0 < descLen j.lastDesc) &&
      decide (descLen j.lastDesc ≤ 16777216) && decide (leAt j.lastDesc 16 8 + descLen j.lastDesc ≤ regionBytes s) &&
      decide (ecc ≠ .uncorrectable) && (match leAt j.lastDesc 16 8 / 4096 * 4096 with
      | a => ((match ceilDiv (leAt j.lastDesc 16 8 + descLen j.lastDesc) 4096 * 4096 - a with
      | n => ((match journalSubs s false a n with
      | .ok es => ((match hbmBlockRead ecc { s with str := { s.str with nextCmd := s.str.nextCmd + 1 } } with
      | u => (true))) | _ => false)))))) | _ => false))
    &&
    -- clause 14
    (let s : State := tAdmin false (tD 0x8D 512 8192 []) |> tAdminStor (fun c => { c with recorder := true }) |> setReg rSTR_JNL_EXTENTS 1;
      let g : Bool := false; decide (s.tablesWf = true) && (match nextJob s 0 0x8D with
      | some j => (decide ((levelAt s .str).emergent = false) && decide (0 < descLen j.lastDesc) &&
      decide (descLen j.lastDesc ≤ 16777216) && decide (leAt j.lastDesc 16 8 + descLen j.lastDesc ≤ regionBytes s) &&
      (match takeFree (hbmBlockRead .uncorrectable s) with
      | (f, u) => (true))) | _ => false))) = true := by decide +kernel

/-- States and operands that meet the hypotheses of each clause. -/
theorem test_meets_ChannelInstructionsComplete : (
    -- clause 1
    (let s : State := tCh (tInsn 0 0 0 0 0 7) id; let ch : Nat := 447; decide (s.tablesWf = true) && (match nextInsn s ch with
      | some w => (decide (nbits w.toNat 0 8 = 0) && decide (insnFOnly w 0 = true)) | _ => false))
    &&
    -- clause 2
    (let s : State := tCh (tInsn 0xFF 0 0 0 0 0) id; let ch : Nat := 447; decide (s.tablesWf = true) && (match nextInsn s ch with
      | some w => (decide (0x0E ≤ nbits w.toNat 0 8)) | _ => false))
    &&
    -- clause 3
    (let s : State := tCh (tInsn 1 0 1 2 0xC 0) id; let ch : Nat := 447; decide (s.tablesWf = true) && (match nextInsn s ch with
      | some w => (decide (nbits w.toNat 0 8 = 1) && decide (insnFOnly w 0x00FE0000 = true) && decide (nbits w.toNat 18 3 ≠ 7) &&
      decide (0 < ((getCh s ch).creg (insnRc w)).toNat) && decide (((getCh s ch).creg (insnRc w)).toNat ≤ 16777216) &&
      decide (nbit w.toNat 17 = false)) | _ => false))
    &&
    -- clause 4
    (let s : State := (tCh (tInsn 1 0 1 2 1 130) (fun c => c) |> tDma (fun d => { d with reqs := [(130, 2)] }));
      let ch : Nat := 447; decide (s.tablesWf = true) && (match nextInsn s ch with
      | some w => (decide (nbits w.toNat 0 8 = 1) && decide (insnFOnly w 0x00FE0000 = true) && decide (nbits w.toNat 18 3 ≠ 7) &&
      decide (0 < ((getCh s ch).creg (insnRc w)).toNat) && decide (((getCh s ch).creg (insnRc w)).toNat ≤ 16777216) &&
      decide (nbit w.toNat 17 = true) && decide (0 < reqCount s (insnImm w % 256))) | _ => false))
    &&
    -- clause 5
    (let s : State := tCh (tInsn 2 0 1 2 0 0) id; let ch : Nat := 447; decide (s.tablesWf = true) && (match nextInsn s ch with
      | some w => (decide (nbits w.toNat 0 8 = 2) && decide (insnFOnly w 0x00DC0000 = true) && decide (nbits w.toNat 18 3 ≠ 7) &&
      decide (0 < ((getCh s ch).creg (insnRc w)).toNat) && decide (((getCh s ch).creg (insnRc w)).toNat ≤ 16777216)) | _ => false))
    &&
    -- clause 6
    (let s : State := tCh (tInsn 3 7 0 0 0 0xFFFFFFFF) id; let ch : Nat := 447; decide (s.tablesWf = true) &&
      (match nextInsn s ch with
      | some w => (decide (nbits w.toNat 0 8 = 3) && decide (insnFOnly w 0x20000 = true) &&
      decide (nbit w.toNat 17 = false)) | _ => false))
    &&
    -- clause 7
    (let s : State := tCh (tInsn 3 7 0 0 1 0xFFFFFFFF) id; let ch : Nat := 447; decide (s.tablesWf = true) &&
      (match nextInsn s ch with
      | some w => (decide (nbits w.toNat 0 8 = 3) && decide (insnFOnly w 0x20000 = true) &&
      decide (nbit w.toNat 17 = true)) | _ => false))
    &&
    -- clause 8
    (let s : State := tCh (tInsn 4 7 7 3 1 0xFFFFFFFF) id; let ch : Nat := 447; decide (s.tablesWf = true) &&
      (match nextInsn s ch with
      | some w => (decide (nbits w.toNat 0 8 = 4) && decide (insnFOnly w 0x20000 = true)) | _ => false))
    &&
    -- clause 9
    (let s : State := tCh (tInsn 7 3 0 0 0 3) id; let ch : Nat := 447; decide (s.tablesWf = true) && (match nextInsn s ch with
      | some w => (decide (nbits w.toNat 0 8 = 7) && decide (insnFOnly w 0 = true) && decide (0 < insnImm w % 2048) &&
      decide (insnImm w % 2048 ≤ 1024) && decide ((getCh s ch).loops.length < 4) &&
      decide ((getCh s ch).pc + insnImm w % 2048 ≤ (getCh s ch).last) && decide ((getCh s ch).creg (insnRa w) ≠ 0)) | _ => false))
    &&
    -- clause 10
    (let s : State := (tCh (tInsn 8 0 0 0 0 0xFFFFFFFF) (fun c => { c with pc := 2049 }) |> tDma (fun d => { d with pmem := [(2049, tInsn 8 0 0 0 0 0xFFFFFFFF)] }));
      let ch : Nat := 447; let n : Nat := 2048; decide (s.tablesWf = true) && (match nextInsn s ch with
      | some w => (decide (nbits w.toNat 0 8 = 8) && decide (insnFOnly w 0xE0000 = true) &&
      decide (branchTaken (nbits w.toNat 17 3) ((getCh s ch).creg (insnRa w)) ((getCh s ch).creg (insnRb w)) = some true) &&
      decide ((n : Int) = (getCh s ch).pc + signed 32 (insnImm w)) && decide ((getCh s ch).base ≤ n) &&
      decide (n ≤ (getCh s ch).last)) | _ => false))
    &&
    -- clause 11
    (let s : State := tCh (tInsn 8 0 1 0 4 0) (fun c => c); let ch : Nat := 447; decide (s.tablesWf = true) &&
      (match nextInsn s ch with
      | some w => (decide (nbits w.toNat 0 8 = 8) && decide (insnFOnly w 0xE0000 = true) &&
      decide (branchTaken (nbits w.toNat 17 3) ((getCh s ch).creg (insnRa w)) ((getCh s ch).creg (insnRb w)) = some false)) | _ => false))
    &&
    -- clause 12
    (let s : State := (tCh (tInsn 0xB 0 0 0 0 (4098 + 2 * 8192 + 3 * 32768)) id); let ch : Nat := 447; decide (s.tablesWf = true) &&
      (match nextInsn s ch with
      | some w => (decide (nbits w.toNat 0 8 = 0xB) && decide (insnFOnly w 0 = true) &&
      decide (spaceAllowed s ch (insnImm w % 8192) (BitVec.ofNat 2 (insnImm w >>> 13)) = true) &&
      decide (spaceAllowed s ch (insnImm w % 8192) (BitVec.ofNat 2 (insnImm w >>> 15)) = true)) | _ => false))) = true := by decide +kernel

/-- States and operands that meet the hypotheses of each clause. -/
theorem test_meets_ChannelTransfersComplete : (
    -- clause 1
    (let s : State := tCh (tInsn 5 3 0 0 0 0xFFFFFFF8) id; let ch : Nat := 447; let r := (ReadOutcome.pending);
      decide (s.tablesWf = true) && (match nextInsn s ch with
      | some w => (decide (nbits w.toNat 0 8 = 5) && decide (insnFOnly w 0 = true) &&
      decide (((getCh s ch).creg (insnRb w) + insnSimm w).toNat % 8 = 0) &&
      (match chRead ch ((getCh s ch).creg (insnRb w) + insnSimm w).toNat 8 r (.load ch) s with
      | (rep, u) => (true))) | _ => false))
    &&
    -- clause 2
    (let s : State := tCh (tInsn 6 3 0 0 0 0xFFFFFFF8) id; let ch : Nat := 447; decide (s.tablesWf = true) &&
      (match nextInsn s ch with
      | some w => (decide (nbits w.toNat 0 8 = 6) && decide (insnFOnly w 0 = true) &&
      decide (((getCh s ch).creg (insnRb w) + insnSimm w).toNat % 8 = 0) &&
      (match chWrite ch ((getCh s ch).creg (insnRb w) + insnSimm w).toNat (toLe 8 ((getCh s ch).creg (insnRa w)).toNat) false s with
      | (.written, u) => (true) | _ => false)) | _ => false))
    &&
    -- clause 3
    (let s : State := tCh (tInsn 5 3 0 0 0 1) id; let ch : Nat := 447; let r := (ReadOutcome.pending); decide (s.tablesWf = true) &&
      (match nextInsn s ch with
      | some w => (decide (nbits w.toNat 0 8 = 5) && decide (insnFOnly w 0 = true) &&
      decide (((getCh s ch).creg (insnRb w) + insnSimm w).toNat % 8 ≠ 0)) | _ => false))
    &&
    -- clause 4
    (let s : State := tCh (tInsn 6 3 0 0 0 1) id; let ch : Nat := 447; decide (s.tablesWf = true) && (match nextInsn s ch with
      | some w => (decide (nbits w.toNat 0 8 = 6) && decide (insnFOnly w 0 = true) &&
      decide (((getCh s ch).creg (insnRb w) + insnSimm w).toNat % 8 ≠ 0)) | _ => false))
    &&
    -- clause 5
    (let s : State := (tCh (tInsn 1 0 1 7 0 0) (fun c => { c with xfer := some (tXfer false) })); let ch : Nat := 447;
      let r := (ReadOutcome.pending); decide (s.tablesWf = true) && (match (getCh s ch).xfer with
      | some x => (decide ((getCh s ch).burstReady x = true) && decide (x.data = none) && decide (x.fill = false) &&
      (match insnAt s (getCh s ch) with
      | w => (decide (2 ≤ (getCh s ch).src.toNat) &&
      (match chRead ch ((getCh s ch).creg (insnRa w)).toNat ((getCh s ch).burstLen x (insnRc w)) r (.burst ch) s with
      | (rep, u) => (true))))) | _ => false))
    &&
    -- clause 6
    (let s : State := (tHostCh (tInsn 1 0 1 7 0 0) (fun c => { c with xfer := some (tXfer false) })); let ch : Nat := 900;
      let r := (ReadOutcome.data (List.replicate 4 9)); decide (s.tablesWf = true) && (match (getCh s ch).xfer with
      | some x => (decide ((getCh s ch).burstReady x = true) && decide (x.data = none) && decide (x.fill = false) &&
      (match insnAt s (getCh s ch) with
      | w => (decide ((getCh s ch).src.toNat < 2) && decide (burstReads s ch (getCh s ch) = true) &&
      (match issueTurn s (getCh s ch).inst with
      | some tn => (decide (nextIssuer s ch = true) &&
      (match { spendIssue tn s with dma := { (spendIssue tn s).dma with lastIssue := mset (fun _ => 0) (spendIssue tn s).dma.lastIssue (getCh s ch).inst ch } } with
      | v => ((match chRead ch ((getCh s ch).creg (insnRa w)).toNat ((getCh s ch).burstLen x (insnRc w)) r (.burst ch) v with
      | (rep, u) => (true))))) | _ => false)))) | _ => false))
    &&
    -- clause 7
    (let s : State := (tCh (tInsn 2 0 1 7 0 0) (fun c => { c with xfer := some (tXfer true) })); let ch : Nat := 447;
      let r := (ReadOutcome.pending); decide (s.tablesWf = true) && (match (getCh s ch).xfer with
      | some x => (decide ((getCh s ch).burstReady x = true) && decide (x.data = none) && decide (x.fill = true) &&
      (match insnAt s (getCh s ch) with
      | w => (true))) | _ => false))
    &&
    -- clause 8
    (let s : State := tCh (tInsn 9 0 0 0 0 130) id; let ch : Nat := 447; decide (s.tablesWf = true) && (match nextInsn s ch with
      | some w => (decide (nbits w.toNat 0 8 = 9) && decide (insnFOnly w 0x60000 = true) && decide (nbits w.toNat 17 2 = 0) &&
      decide (reqCount s (insnImm w % 256) = 0)) | _ => false))
    &&
    -- clause 9
    (let s : State := (tCh (tInsn 9 0 0 0 0 130) id |> tDma (fun d => { d with reqs := [(130, 1)] })); let ch : Nat := 447;
      decide (s.tablesWf = true) && (match nextInsn s ch with
      | some w => (decide (nbits w.toNat 0 8 = 9) && decide (insnFOnly w 0x60000 = true) && decide (nbits w.toNat 17 2 = 0) &&
      decide (0 < reqCount s (insnImm w % 256))) | _ => false))
    &&
    -- clause 10
    (let s : State := tCh (tInsn 9 0 0 0 1 130) id; let ch : Nat := 447; decide (s.tablesWf = true) && (match nextInsn s ch with
      | some w => (decide (nbits w.toNat 0 8 = 9) && decide (insnFOnly w 0x60000 = true) && decide (nbits w.toNat 17 2 = 1) &&
      decide (0 < insnImm w)) | _ => false))
    &&
    -- clause 11
    (let s : State := (tCh (tInsn 9 0 0 0 1 130) (fun c => { c with state := .wait, waiting := some (.time 130 1130) }));
      let ch : Nat := 447; decide (s.tablesWf = true) && decide ((getCh s ch).state = .wait) && (match (getCh s ch).waiting with
      | some (.time n d) => (decide ((getCh s ch).pauseReq = false) && decide ((getCh s ch).aborting = false)) | _ => false))
    &&
    -- clause 12
    (let s : State := tCh (tInsn 0xA 0 0 0 0 255) id; let ch : Nat := 447; decide (s.tablesWf = true) && (match nextInsn s ch with
      | some w => (decide (nbits w.toNat 0 8 = 0xA) && decide (insnFOnly w 0x60000 = true) && decide (nbits w.toNat 17 2 = 0) &&
      decide (128 ≤ insnImm w % 256)) | _ => false))
    &&
    -- clause 13
    (let s : State := tCh (tInsn 0xA 0 0 0 1 0xFFFF) id; let ch : Nat := 447; decide (s.tablesWf = true) &&
      (match nextInsn s ch with
      | some w => (decide (nbits w.toNat 0 8 = 0xA) && decide (insnFOnly w 0x60000 = true) &&
      decide (nbits w.toNat 17 2 = 1)) | _ => false))
    &&
    -- clause 14
    (let s : State := tCh (tInsn 0xC 0 0 0 1 0) id; let ch : Nat := 447; decide (s.tablesWf = true) && (match nextInsn s ch with
      | some w => (decide (nbits w.toNat 0 8 = 0xC) && decide (insnFOnly w 0x20000 = true)) | _ => false))
    &&
    -- clause 15
    (let s : State := (tCh (tInsn 0xC 0 0 0 0 0) (fun c => { c with waiting := some (.fence false) })); let ch : Nat := 447;
      let r := (ReadOutcome.pending); decide (s.tablesWf = true) && decide ((getCh s ch).waiting = some (.fence false)) &&
      decide ((getCh s ch).aborting = false) && decide ((∀ e ∈ s.hep.tags, e.2.purpose ≠ .fence ch)))
    &&
    -- clause 16
    (let s : State := tCh (tInsn 0xD 0 0 0 0 0) id; let ch : Nat := 447; decide (s.tablesWf = true) && (match nextInsn s ch with
      | some w => (decide (nbits w.toNat 0 8 = 0xD) && decide (insnFOnly w 0 = true)) | _ => false))
    &&
    -- clause 17
    (let s : State := tCh (tInsn 0xD 0 0 0 0 0) (fun c => { c with waiting := some .halt }); let ch : Nat := 447;
      decide (s.tablesWf = true) && decide ((getCh s ch).waiting = some .halt) && decide ((getCh s ch).aborting = false))) = true := by decide +kernel

/-- States and operands that meet the hypotheses of each clause. -/
theorem test_meets_ChannelControlCommandsComplete : (
    -- clause 1
    (let s : State := tCh 0 (fun c => { c with state := .idle }); let p : Party := Party.service 3; let ch : Nat := 447;
      decide (s.tablesWf = true) && decide (ownsCh p ch = true) && decide ((getCh s ch).state = .idle) &&
      decide ((areaOf ch).1 ≤ (getCh s ch).base) && decide ((getCh s ch).last ≤ (areaOf ch).2) &&
      decide ((getCh s ch).base ≤ (getCh s ch).last))
    &&
    -- clause 2
    (let s : State := tCh 0 id; let p : Party := Party.service 3; let ch : Nat := 447; decide (s.tablesWf = true) &&
      decide (ownsCh p ch = true) && decide ((getCh s ch).state ≠ .idle))
    &&
    -- clause 3
    (let s : State := tCh 0 (fun c => { c with state := .faulted, fault := some { status := 1, kind := 0, depth := 0, addr := 0 } });
      let p : Party := Party.service 3; let ch : Nat := 447; decide (s.tablesWf = true) && decide (ownsCh p ch = true) &&
      decide ((getCh s ch).state = .faulted))
    &&
    -- clause 4
    (let s : State := tCh 0 id; let p : Party := Party.service 3; let ch : Nat := 447; decide (s.tablesWf = true) &&
      decide (ownsCh p ch = true) && decide ((getCh s ch).state = .run))
    &&
    -- clause 5
    (let s : State := tCh 0 (fun c => { c with state := .faulted }); let p : Party := Party.service 3; let ch : Nat := 447;
      decide (s.tablesWf = true) && decide (ownsCh p ch = true) && decide ((getCh s ch).state = .faulted) &&
      decide (chReading s ch = false))
    &&
    -- clause 6
    (let s : State := tCh 0 (fun c => { c with state := .idle }); let p : Party := Party.service 3; let ch : Nat := 447;
      decide (s.tablesWf = true) && decide (ownsCh p ch = true) && decide ((getCh s ch).state = .idle))
    &&
    -- clause 7
    (let s : State := tCh 0 (fun c => { c with aborting := true }); let ch : Nat := 447; decide (s.tablesWf = true) &&
      decide ((getCh s ch).aborting = true) && decide (chReading s ch = false))
    &&
    -- clause 8
    (let s : State := tCh 0 id; let p : Party := Party.service 3; let ch : Nat := 447; decide (s.tablesWf = true) &&
      decide (ownsCh p ch = true))
    &&
    -- clause 9
    (let s : State := tCh 0 (fun c => { c with pauseReq := true }); let ch : Nat := 447; decide (s.tablesWf = true) &&
      decide ((getCh s ch).pauseReq = true) && decide ((getCh s ch).aborting = false) && decide ((getCh s ch).state = .run) &&
      decide ((getCh s ch).atBoundary = true))
    &&
    -- clause 10
    (let s : State := tCh 0 (fun c => { c with pauseReq := true, state := .paused }); let p : Party := Party.service 3;
      let ch : Nat := 447; decide (s.tablesWf = true) && decide (ownsCh p ch = true) && decide ((getCh s ch).state = .paused))
    &&
    -- clause 11
    (let s : State := (tCh 0 id |> tDma (fun d => { d with timers := [(31, 1500)] })); let n := 31; decide (s.tablesWf = true) &&
      (match mfind s.dma.timers n with
      | some d => (true) | _ => false))
    &&
    -- clause 12
    (let s : State := tCh 0 id; let p : Party := Party.service 3; let line := 127; decide (s.tablesWf = true) &&
      decide (ownsLine p line = true) && decide (reqCount s line < 65535) && decide ((∀ e ∈ s.dma.chans, e.2.wants line = false)))
    &&
    -- clause 13
    (let s : State := (tCh 0 id |> tDma (fun d => { d with reqs := [(127, 65535)] })); let p : Party := Party.service 3;
      let line := 127; decide (s.tablesWf = true) && decide (ownsLine p line = true) && decide (65535 ≤ reqCount s line))
    &&
    -- clause 14
    (let s : State := tRun |> setView (.service 0) rDMA_PMEM_ADDR 8191; let p : Party := Party.service 3; let hi := (5#32);
      decide (s.tablesWf = true) && decide (ownsWord p (fld (getView s p rDMA_PMEM_ADDR) 0 13) = true))
    &&
    -- clause 15
    (let s : State := tRun; let p : Party := Party.host; decide (s.tablesWf = true))) = true := by decide +kernel

/-- States and operands that meet the hypotheses of each clause. -/
theorem test_meets_GondolaLinkCommandsComplete : (
    -- clause 1
    (let s : State := tLink (fun l => { l with state := .down }); let g : Nat := 3; decide (s.tablesWf = true) && decide (g < 4) &&
      decide ((getLink s g).state = .down) && decide (linksAllowed s = true))
    &&
    -- clause 2
    (let s : State := tLink (fun l => { l with state := .training, since := 500 }); let g : Nat := 3; decide (s.tablesWf = true) &&
      decide ((getLink s g).state = .training))
    &&
    -- clause 3
    (let s : State := tLink (fun l => { l with state := .training, since := 500 }); let g : Nat := 3; decide (s.tablesWf = true) &&
      decide ((getLink s g).state = .training))
    &&
    -- clause 4
    (let s : State := tLink (fun l => { l with state := .verify, since := 500 }); let g : Nat := 3; decide (s.tablesWf = true) &&
      decide (g < 4) && decide ((getLink s g).state = .verify))
    &&
    -- clause 5
    (let s : State := tLink (fun l => { l with state := .held, since := 500 }); let g : Nat := 3; decide (s.tablesWf = true) &&
      decide ((getLink s g).state = .held) && decide (linksAllowed s = true))
    &&
    -- clause 6
    (let s : State := tLink (fun l => { l with state := .retrain, since := 500 }); let g : Nat := 3; decide (s.tablesWf = true) &&
      decide ((getLink s g).state = .retrain))
    &&
    -- clause 7
    (let s : State := tLink (fun l => { l with state := .retrain, since := 500 }); let g : Nat := 3; decide (s.tablesWf = true) &&
      decide (g < 4) && decide ((getLink s g).state = .retrain))
    &&
    -- clause 8
    (let s : State := tLink id; let g : Nat := 3; decide (s.tablesWf = true) && decide ((getLink s g).state ≠ .down))
    &&
    -- clause 9
    (let s : State := tLink (fun l => { l with ch1 := { l.ch1 with nextSeq := 1, replay := [{ seq := 0, frame := tLinkFrame }] } });
      let g : Nat := 3; let ch := 1; decide (s.tablesWf = true) &&
      decide ((getLink s g).state = .up ∨ (getLink s g).state = .verify) && decide ((getChan (getLink s g) ch).replay ≠ []))
    &&
    -- clause 10
    (let s : State := tLink id; let g : Nat := 3; let beat := (List.replicate 32 0); decide (s.tablesWf = true) && decide (g < 4) &&
      decide ((getLink s g).state ≠ .down) && decide (markerGood beat = false) && decide ((getLink s g).missed < 7))
    &&
    -- clause 11
    (let s : State := tLink id; let g : Nat := 3; let beat := tBeat; decide (s.tablesWf = true) && decide (g < 4) &&
      decide ((getLink s g).state ≠ .down) && decide (markerGood beat = true) &&
      (match takeAck g 1 (leAt beat 18 2 % 4096) (nbit (leAt beat 18 2) 12) (takeAck g 0 (leAt beat 5 2 % 4096) (nbit (leAt beat 5 2) 12) s) with
      | u => (decide (linkCarries (getLink u g) = true))))
    &&
    -- clause 12
    (let s : State := tLink (fun l => { l with missed := 7 }); let g : Nat := 3; let beat := (List.replicate 32 0);
      decide (s.tablesWf = true) && decide (g < 4) && decide ((getLink s g).state ≠ .down) && decide (markerGood beat = false) &&
      decide (7 ≤ (getLink s g).missed))
    &&
    -- clause 13
    (let s : State := tLink id; decide (s.tablesWf = true) && decide (linksAllowed s = true))) = true := by decide +kernel

/-- States and operands that meet the hypotheses of each clause. -/
theorem test_meets_CascadeCommandsComplete : (
    -- clause 1
    (let s : State := tLink id; let g := 3;
      let frame := (linkBytes 0 0 { tLinkFrame with type := 4, payload := List.replicate 60 0 }); decide (s.tablesWf = true) &&
      (match receiveLink g 4 frame s with
      | (some r, u) => (true) | _ => false))
    &&
    -- clause 2
    (let s : State := tLink id; let g := 3;
      let frame := (linkBytes 1 0 { tLinkFrame with type := 1, dst := 2, payload := List.replicate 100 0 });
      decide (s.tablesWf = true) && (match receiveLink g 1 frame s with
      | (some r, u) => (true) | _ => false))
    &&
    -- clause 3
    (let s : State := tLink id; let g := 3; let frame := (List.replicate 64 0); decide (s.tablesWf = true) &&
      decide (parseLink frame = none) && decide (linkCarries (getLink s g) = true))
    &&
    -- clause 4
    (let s : State := (tLink id |> tCas (fun c => { c with mapHold := [(5, 1500)] })); let k := 5; decide (s.tablesWf = true) &&
      (match mfind s.cas.mapHold k with
      | some d => (true) | _ => false))
    &&
    -- clause 5
    (let s : State := (tLink id |> tCas (fun c => { c with tlpHold := [(5, { until_ := 1500, frames := [{ tLinkFrame with type := 2 }] })] }));
      let k := 5; decide (s.tablesWf = true) && (match mfind s.cas.tlpHold k with
      | some h => (true) | _ => false))
    &&
    -- clause 6
    (let s : State := (tLink id |> tIdent (fun i => { i with role := .member }) |> tCas (fun c => { c with reach := [(0, 1)], topo := [(0, { serial := 4, role := 1, leaving := false, cfgReady := true, ver := 1, peers := [] })] }));
      let p := (Party.host); decide (s.tablesWf = true) && decide (isCrater p = false) && decide (s.ident.role = .member) &&
      (match headCid s with
      | some h => (true) | _ => false))
    &&
    -- clause 7
    (let s : State := tLink id; let p := (Party.host); let k := 7; decide (s.tablesWf = true) && decide (isCrater p = false) &&
      decide (s.ident.role = .head))
    &&
    -- clause 8
    (let s : State := tLink id; let k := 7; let v := (0x7C0#16); decide (s.tablesWf = true) && decide (s.ident.role = .head) &&
      decide (k < s.ident.devices) && decide (k ≠ s.ident.cid))) = true := by decide +kernel

/-- States and operands that meet the hypotheses of each clause. -/
theorem test_meets_CraterCommandsComplete : (
    -- clause 1
    (let s : State := tSigning; decide (s.tablesWf = true) && decide (isRunning s = true))
    &&
    -- clause 2
    (let s : State := tSigning; decide (s.tablesWf = true) && decide (isRunning s = true))
    &&
    -- clause 3
    (let s : State := tSigning; decide (s.tablesWf = true) && decide (isRunning s = true))
    &&
    -- clause 4
    (let s : State := tSigning |> tCrt (fun c => { c with restarting := true, restartAt := 600 }); decide (s.tablesWf = true) &&
      decide (s.crt.restarting = true) && decide (isRunning s = true) && (match reachTime (s.crt.restartAt + 5000000) s with
      | u => (true)))
    &&
    -- clause 5
    (let s : State := tSigning; let n := 4; decide (s.tablesWf = true) && decide (n < 5) && decide (s.pcr.phase ≠ .off) &&
      decide (s.crt.live.getLsbD n = false))
    &&
    -- clause 6
    (let s : State := (tSigning |> tCrt (fun c => { c with live := 16, liveSince := [(4, 600)] })); let n := 4;
      decide (s.tablesWf = true) && decide (n < 5) && decide (s.pcr.phase ≠ .off) && decide (s.crt.live.getLsbD n = true))
    &&
    -- clause 7
    (let s : State := (tSigning |> tCrt (fun c => { c with live := 4, liveSince := [(2, 600)] })); decide (s.tablesWf = true) &&
      (match earliest (tripsDue s) with
      | some d => (decide (isRunning s = true)) | _ => false))
    &&
    -- clause 8
    (let s : State := (tSigning |> tCrt (fun c => { c with live := 4, liveSince := [(2, 600)] }) |> tPcr (fun p => { p with phase := .off }));
      decide (s.tablesWf = true) && (match earliest (tripsDue s) with
      | some d => (decide (isRunning s = false)) | _ => false))
    &&
    -- clause 9
    (let s : State := tSigning |> tCrt (fun c => { c with ret := { c.ret with zeroisePending := true } });
      decide (s.tablesWf = true) && decide (isRunning s = true) && decide (s.crt.ret.zeroisePending = true))
    &&
    -- clause 10
    (let s : State := tSigning; let n := 107; decide (s.tablesWf = true) && decide (isRunning s = true) &&
      decide (islandPowered s n = true) && decide (n ≠ 99))
    &&
    -- clause 11
    (let s : State := tSigning; decide (s.tablesWf = true) && decide (isRunning s = true) && decide (islandPowered s 99 = true))) = true := by decide +kernel

/-- States and operands that meet the hypotheses of each clause. -/
theorem test_meets_MemoryCommandsComplete : (
    -- clause 1
    (let s : State := tRun |> tMem (fun m => { m with ready := true }); let addr := 4096; let ecc := (EccResult.corrected);
      let c := true; decide (s.tablesWf = true) && decide (hbmPowered s = true) && decide (backgroundRuns s = true))
    &&
    -- clause 2
    (let s : State := tRun |> tMem (fun m => { m with ready := true, segment := 9 }); decide (s.tablesWf = true) &&
      decide (hbmPowered s = true) && decide (backgroundRuns s = true) && decide (s.mem.raised = false))
    &&
    -- clause 3
    (let s : State := tRun; let p := (NvmPartition.system); let line := 16383; let n := 2; decide (s.tablesWf = true) &&
      decide (line < partitionLines p) && decide (n < 3))
    &&
    -- clause 4
    (let s : State := (tRun |> tMem (fun m => { m with lineWrites := [(4 * 2 ^ 32 + 16383, 800000)], spare := 1 }));
      let p := (NvmPartition.system); let line := 16383; let n := 3; decide (s.tablesWf = true) &&
      decide (line < partitionLines p) && decide (3 ≤ n))
    &&
    -- clause 5
    (let s : State := (tRun |> tMem (fun m => { m with owed := [(2, 3)] })); decide (s.tablesWf = true) && (match s.mem.owed with
      | (k, n) :: rest => (decide (backgroundRuns s = true)) | _ => false))) = true := by decide +kernel

/-- States and operands that meet the hypotheses of each clause. -/
theorem test_meets_ImageUpdateCommandsComplete : (
    -- clause 1
    (let s : State := tImage id |> setReg rPCR_IMG_LEN 4352 |> setReg64 rPCR_IMG_SRC_LO 0x7FE000; let p : Party := Party.host;
      decide (s.tablesWf = true) && decide (isPf p = true) && decide (isRunning s = true) && decide (s.img.job = none) &&
      decide (activationPending s = false) && (let src := (getReg64 s rPCR_IMG_SRC_LO).toNat / 4096 * 4096;
      (let len := regFld s rPCR_IMG_LEN 0 27; decide (4352 ≤ len) && decide (len ≤ bankSize) && decide (src + len ≤ devbufSize s))))
    &&
    -- clause 2
    (let s : State := (tImage (fun i => { i with job := some (.checkStaged 4096 4352) })); decide (s.tablesWf = true) &&
      (match s.img.job with
      | some (.checkStaged src len) => (decide (imgHeld s = false) && decide (s.img.abort = false) &&
      (match imageFault s len (stagedImage s src) with
      | e => (true))) | _ => false))
    &&
    -- clause 3
    (let s : State := (tImage (fun i => { i with job := some (.pages 4096 8200 4096) })); decide (s.tablesWf = true) &&
      (match s.img.job with
      | some (.pages src len n) => (decide (s.img.abort = false) && decide (imgHeld s = false) &&
      decide (n + 4096 < len)) | _ => false))
    &&
    -- clause 4
    (let s : State := (tImage (fun i => { i with job := some (.pages 4096 8192 4096) })); decide (s.tablesWf = true) &&
      (match s.img.job with
      | some (.pages src len n) => (decide (s.img.abort = false) && decide (imgHeld s = false) && decide (n < len) &&
      decide (len ≤ n + 4096)) | _ => false))
    &&
    -- clause 5
    (let s : State := (tImage (fun i => { i with job := some (.pages 4096 8192 4096), abort := true }));
      decide (s.tablesWf = true) && (match s.img.job with
      | some (.pages src len n) => (decide (imgHeld s = false) && decide (s.img.abort = true)) | _ => false))
    &&
    -- clause 6
    (let s : State := tImage id; let p : Party := Party.host; decide (s.tablesWf = true) && decide (isPf p = true) &&
      decide (isRunning s = true) && decide (s.img.job = none))
    &&
    -- clause 7
    (let s : State := (tImage (fun i => { i with job := some (.readBack 4096 4352) })); decide (s.tablesWf = true) &&
      (match s.img.job with
      | some (.readBack src len) => (decide (imgHeld s = false) && (match bankFault s (!s.img.runB) with
      | e => (true))) | _ => false))
    &&
    -- clause 8
    (let s : State := tImage (fun i => { i with other := .verified }); let p : Party := Party.host; decide (s.tablesWf = true) &&
      decide (isPf p = true) && decide (isRunning s = true) && decide (imgHeld s = false) && decide (s.img.other = .verified))
    &&
    -- clause 9
    (let s : State := tImage id; let p : Party := Party.host; decide (s.tablesWf = true) && decide (isPf p = true) &&
      decide (isRunning s = true) && decide (imgHeld s = false))
    &&
    -- clause 10
    (let s : State := tImage (fun i => { i with s0 := some { tLine with trialUsed := true }, runB := true }) |> tPcr (fun p => { p with fullOp := true });
      let p : Party := Party.host; decide (s.tablesWf = true) && decide (isPf p = true) && decide (isRunning s = true) &&
      decide ((lineNow s).trial = true) && decide (s.pcr.fullOp = true) && decide ((lineNow s).activeB = s.img.runB))
    &&
    -- clause 11
    (let s : State := (tImage (fun i => { i with job := some (.pages 4096 8192 4096) })); let p : Party := Party.host;
      decide (s.tablesWf = true) && decide (isPf p = true) && decide (isRunning s = true) && (match s.img.job with
      | some (.pages src len n) => (true) | _ => false))) = true := by decide +kernel

/-- States and operands that meet the hypotheses of each clause. -/
theorem test_meets_RecoveryCommandsComplete : (
    -- clause 1
    (let s : State := tRecovery id; let bank := 1; let len := 4352; decide (s.tablesWf = true) && decide (smbAnswers s = true) &&
      decide (s.pcr.recoveryHold = true ∨ s.pcr.refuge = true) && decide (bank ≤ 1) && decide (4352 ≤ len) &&
      decide (len ≤ bankSize) &&
      decide (s.pcr.recoveryHold = true ∨ (decide (bank = 1) ≠ s.img.runB ∧ activationPending s = false)))
    &&
    -- clause 2
    (let s : State := tRecovery id; let bs := ([1, 2, 3, 4]); decide (s.tablesWf = true) && decide (smbAnswers s = true) &&
      decide (s.pcr.recoveryHold = true ∨ s.pcr.refuge = true) && (match s.img.rec_ with
      | some r => (decide (0 < bs.length) && decide (bs.length ≤ 48) && decide (r.got + bs.length ≤ r.len) &&
      decide (s.img.other = .writing)) | _ => false))
    &&
    -- clause 3
    (let s : State := tRecovery id; let off := 0; let bs := ([1]); decide (s.tablesWf = true) && decide (smbAnswers s = true) &&
      decide (s.pcr.recoveryHold = true ∨ s.pcr.refuge = true) && (match s.img.rec_ with
      | some r => (decide (off ≠ r.got)) | _ => false))
    &&
    -- clause 4
    (let s : State := tRecovery (fun i => { i with rec_ := some { bankB := true, len := 4352, got := 4352 } });
      decide (s.tablesWf = true) && decide (smbAnswers s = true) && decide (s.pcr.recoveryHold = true ∨ s.pcr.refuge = true) &&
      (match s.img.rec_ with
      | some r => (decide (r.got = r.len) && (match imageFault s r.len (bankBytes s r.bankB) with
      | e => (true))) | _ => false))
    &&
    -- clause 5
    (let s : State := tRecovery (fun i => { i with other := .verified }); decide (s.tablesWf = true) &&
      decide (smbAnswers s = true) && decide (s.pcr.recoveryHold = true ∨ s.pcr.refuge = true) && (match s.img.rec_ with
      | some r => (decide (imgHeld s = false) && decide (s.img.other = .verified) && decide (s.pcr.recoveryHold = true) &&
      (match writeSelector r.bankB true false (lineNow s).svnMin s with
      | u => (true))) | _ => false))
    &&
    -- clause 6
    (let s : State := tRecovery (fun i => { i with other := .verified }) |> tPcr (fun p => { p with recoveryHold := false, refuge := true });
      decide (s.tablesWf = true) && decide (smbAnswers s = true) && decide (s.pcr.recoveryHold = true ∨ s.pcr.refuge = true) &&
      (match s.img.rec_ with
      | some r => (decide (imgHeld s = false) && decide (s.img.other = .verified) && decide (s.pcr.recoveryHold = false) &&
      (match writeSelector r.bankB true false (lineNow s).svnMin s with
      | u => (true))) | _ => false))
    &&
    -- clause 7
    (let s : State := tRecovery id; decide (s.tablesWf = true) && decide (smbAnswers s = true) &&
      decide (s.pcr.recoveryHold = true ∨ s.pcr.refuge = true) && (match computedValue .crater rPCR_IMG_STATUS s with
      | some w => (true) | _ => false))) = true := by decide +kernel

/-- States and operands that meet the hypotheses of each clause. -/
theorem test_meets_LoopFrameCommandsComplete : (
    -- clause 1
    (let s : State := tLoop (fun x => { x with sourcing := true, cycleNo := 65535, cycleAt := some 900 }); let lp : Nat := 3;
      decide (s.tablesWf = true) && decide (loopRuns s lp = true) && decide ((getLoop s lp).sourcing = true) &&
      (match endCycle lp (reachTime (nextBoundary s lp).1 s) with
      | u => ((match nextCycleNo s lp (nextBoundary s lp).2 with
      | no => (true)))))
    &&
    -- clause 2
    (let s : State := tLoop id; let lp : Nat := 3; let west : Bool := true;
      let f := (tSweep [1, 1, 2, 9, 0, 5, 0, 1] 77 [0, 0, 0, 4]); decide (s.tablesWf = true) && decide (loopRuns s lp = true) &&
      decide (((getLoop s lp).side west).lock = true) && decide (sweepGood f = true) && decide ((getLoop s lp).sourcing = false) &&
      decide (loopAborted f = false) && (match memberSweep lp west f (cutOwn lp ((getLoop s lp).outLane west) s) with
      | r => (true)))
    &&
    -- clause 4
    (let s : State := tLoop (fun x => { x with sourcing := true }); let lp : Nat := 3; let west : Bool := false;
      let f := (List.replicate 200 7); decide (s.tablesWf = true) && decide (loopRuns s lp = true) &&
      decide (((getLoop s lp).side west).lock = true) && decide (sweepGood f = false) && decide ((getLoop s lp).sourcing = true) &&
      decide (loopAborted f = false))
    &&
    -- clause 6
    (let s : State := tLoop (fun x => { x with sourcing := true, tokenOut := 2 }); let lp : Nat := 3; let west : Bool := true;
      decide (s.tablesWf = true) && decide (loopRuns s lp = true) && decide (((getLoop s lp).side west).lock = true) &&
      decide ((getLoop s lp).sourcing = true))
    &&
    -- clause 7
    (let s : State := tLoop id; let lp : Nat := 3; let west : Bool := true; decide (s.tablesWf = true) &&
      decide (loopRuns s lp = true) && decide (((getLoop s lp).side west).lock = true) &&
      decide ((getLoop s lp).sourcing = false) && decide ((getLoop s lp).txQueue = []) &&
      decide (((getLoop s lp).side (!west)).lost = false))
    &&
    -- clause 8
    (let s : State := tLoop (fun x => { x with txQueue := [{ side := none, kind := 3, cls := 2, bytes := List.replicate 80 1 }], cycleAt := some 900 }) |> setReg (rLOOP_BUDGET 3) 80;
      let lp : Nat := 3; let west : Bool := true; decide (s.tablesWf = true) && decide (loopRuns s lp = true) &&
      decide (((getLoop s lp).side west).lock = true) && decide ((getLoop s lp).sourcing = false) && decide (loopRole s lp ≠ 2) &&
      (match takeShare (regFld s (rLOOP_BUDGET lp) 0 16) (getLoop s lp).txQueue with
      | (fs, rest) => ((match (getLoop s lp).cycleAt with
      | some c => (decide (inTime (100 * (c + cycleLen s lp - 1000 - s.now)) fs = fs) &&
      decide (((getLoop s lp).side (!west)).lost = false) &&
      (match { getLoop s lp with txQueue := (getLoop s lp).txQueue.drop fs.length } with
      | x => (true))) | _ => false))))
    &&
    -- clause 9
    (let s : State := tLoop id |> setReg (matchReg 3 7) 0x80000005; let lp : Nat := 3; let west : Bool := false;
      let f := (tLoopFrame 5); decide (s.tablesWf = true) && decide (loopRuns s lp = true) &&
      decide (((getLoop s lp).side west).lock = true) && decide (byteAt f 1 = 3) && decide (loopAborted f = false) &&
      decide (loopFrameGood f = true) && decide (beAt f 10 2 % 1024 ≠ loopAddr s lp) &&
      decide (loopMatches s lp (beAt f 8 2) = true) && decide (nbit (beAt f 8 2) 15 = false))
    &&
    -- clause 10
    (let s : State := tLoop id; let lp : Nat := 3; let west : Bool := false; let f := (tLoopFrame 6); decide (s.tablesWf = true) &&
      decide (loopRuns s lp = true) && decide (((getLoop s lp).side west).lock = true) && decide (byteAt f 1 = 3) &&
      decide (loopAborted f = false) && decide (loopFrameGood f = true) && decide (beAt f 10 2 % 1024 ≠ loopAddr s lp) &&
      decide (loopMatches s lp (beAt f 8 2) = false) && decide ((getLoop s lp).sourcing = false))
    &&
    -- clause 11
    (let s : State := tLoop id; let lp : Nat := 3; let west : Bool := true;
      let f := (List.replicate 100 7 ++ [0x4B, 5, 0, 0, 0, 0, 0, 0]); decide (s.tablesWf = true) && decide (loopRuns s lp = true) &&
      decide (((getLoop s lp).side west).lock = true) && decide (loopAborted f = true))) = true := by decide +kernel

/-- States and operands that meet the hypotheses of each clause. -/
theorem test_meets_LoopPortCommandsComplete : (
    -- clause 1
    (let s : State := tLoop id; let lp : Nat := 3; let west : Bool := true; let n := 1023; decide (s.tablesWf = true) &&
      decide (loopRuns s lp = true) && decide (n ≤ 1023) && decide (((getLoop s lp).side west).lost = false))
    &&
    -- clause 2
    (let s : State := tLoop id; let lp : Nat := 3; let west : Bool := true; decide (s.tablesWf = true) &&
      decide (loopRuns s lp = true) && decide (((getLoop s lp).side west).lock = true) &&
      decide (((getLoop s lp).side west).lost = false))
    &&
    -- clause 3
    (let s : State := tLoop (fun x => { x with west := { x.west with lock := false } }); let lp : Nat := 3; let west : Bool := true;
      decide (s.tablesWf = true) && decide (loopRuns s lp = true) && decide (((getLoop s lp).side west).lock = false))
    &&
    -- clause 4
    (let s : State := tLoop (fun x => { x with west := { x.west with lost := true, breakAt := some 700 } }); let lp : Nat := 3;
      let west : Bool := true; decide (s.tablesWf = true) && decide (loopRuns s lp = true) &&
      decide (((getLoop s lp).side west).lock = true) && decide (((getLoop s lp).side west).lost = true))
    &&
    -- clause 5
    (let s : State := tLoop id; let lp : Nat := 3; let west : Bool := true; let p := (Party.host); let v := (0x1F#32);
      decide (s.tablesWf = true) && decide (loopRuns s lp = true) && decide (isCrater p = false) && decide (bit v 0 = true))
    &&
    -- clause 6
    (let s : State := tLoop (fun x => { x with wakeUntil := some 2000 }); let lp : Nat := 3; let west : Bool := true;
      decide (s.tablesWf = true) && decide (loopRuns s lp = true) && (match (getLoop s lp).wakeUntil with
      | some d => (true) | _ => false))
    &&
    -- clause 7
    (let s : State := tLoop (fun x => { x with west := { x.west with pdNext := 3000, pdSeq := 255 } }); let lp : Nat := 3;
      let west : Bool := true; decide (s.tablesWf = true) && decide (loopRuns s lp = true) &&
      decide (((getLoop s lp).side west).lock = true) && decide (((getLoop s lp).side west).lost = false))
    &&
    -- clause 8
    (let s : State := tLoop id; let lp : Nat := 3; let west : Bool := true; let n := 255; decide (s.tablesWf = true) &&
      decide (loopRuns s lp = true) && decide (((getLoop s lp).side west).lost = false))
    &&
    -- clause 9
    (let s : State := tLoop (fun x => { x with west := { x.west with pdSentAt := some 400, pdSeq := 255 } }); let lp : Nat := 3;
      let west : Bool := true; let n := 255; let turn := 100000; decide (s.tablesWf = true) && decide (loopRuns s lp = true) &&
      (match ((getLoop s lp).side west).pdSentAt with
      | some d => (decide (n = ((getLoop s lp).side west).pdSeq)) | _ => false))
    &&
    -- clause 10
    (let s : State := tLoop id; let lp : Nat := 3; let west : Bool := true; decide (s.tablesWf = true) &&
      decide (loopRuns s lp = true) && decide (loopRole s lp = 0) && decide ((getLoop s lp).sourcing = false))
    &&
    -- clause 11
    (let s : State := tLoop id |> setView .host (rLOOP_IND_ADDR 3) 0x403FF; let lp : Nat := 3; let west : Bool := true;
      let p := (Party.host); decide (s.tablesWf = true) && decide (loopRuns s lp = true))
    &&
    -- clause 12
    (let s : State := tLoop id |> setView .host (rLOOP_IND_ADDR 3) 0x20000 |> tWords .host (rLOOP_IND_DATA0 3) [0, 0, 1, 2, 3, 4, 0, 0];
      let lp : Nat := 3; let west : Bool := true; let p := (Party.host); decide (s.tablesWf = true) &&
      decide (loopRuns s lp = true) && decide (fld (getView s p (rLOOP_IND_ADDR lp)) 16 3 = 2))) = true := by decide +kernel

/-- States and operands that meet the hypotheses of each clause. -/
theorem test_meets_MailboxCommandsComplete : (
    -- clause 1
    (let s : State := tMail 31 (fun c => { c with loNear := 7 }); let p : Party := Party.service 0; let ch : Nat := 31;
      let hi := (8#32); decide (s.tablesWf = true) && decide (ch < 32) && decide (endOf p = mbxSender ch) &&
      decide ((getMbx s ch).full = false))
    &&
    -- clause 2
    (let s : State := tMail 31 (fun c => { c with full := true }); let p : Party := Party.service 0; let ch : Nat := 31;
      let hi := (8#32); decide (s.tablesWf = true) && decide (ch < 32) && decide (endOf p = mbxSender ch) &&
      decide ((getMbx s ch).full = true))
    &&
    -- clause 3
    (let s : State := tMail 36 (fun c => { c with loNear := 7 }); let p : Party := Party.service 0; let ch : Nat := 36;
      let hi := (8#32); decide (s.tablesWf = true) && decide (isSecure ch = true) && decide (endOf p = secureParty ch) &&
      decide ((getMbx s ch).full = false) && decide ((getMbx s ch).turn = false))
    &&
    -- clause 4
    (let s : State := tMail 31 (fun c => { c with full := true }); let p : Party := Party.host; let ch : Nat := 31;
      decide (s.tablesWf = true) && decide (ch < 32) && decide (endOf p = mbxReceiver ch) && decide ((getMbx s ch).full = true))
    &&
    -- clause 5
    (let s : State := tMail 36 (fun c => { c with full := true, turn := true }); let p : Party := Party.service 0;
      let ch : Nat := 36; decide (s.tablesWf = true) && decide (isSecure ch = true) && decide (endOf p = secureParty ch) &&
      decide (holdsAnswer s ch = true))
    &&
    -- clause 6
    (let s : State := tMail 31 (fun c => { c with db := 1 }); let p : Party := Party.service 0; let ch : Nat := 31;
      let v := (0x80000000#32); decide (s.tablesWf = true) && decide (ch < 32) && decide (endOf p = mbxSender ch))
    &&
    -- clause 7
    (let s : State := tMail 31 id; let p : Party := Party.host; let ch : Nat := 31; let v := (0x80000000#32);
      decide (s.tablesWf = true) && decide (ch < 32) && decide (endOf p = mbxReceiver ch))
    &&
    -- clause 8
    (let s : State := tMail 31 id; let p : Party := Party.service 0; let ch : Nat := 31; decide (s.tablesWf = true) &&
      decide (ch < 32) && decide (endOf p = mbxSender ch))
    &&
    -- clause 9
    (let s : State := tMail 38 id; let w := (9#64); decide (s.tablesWf = true) && decide (smbAnswers s = true) &&
      decide ((getMbx s 38).full = false) && decide ((getMbx s 38).turn = false))
    &&
    -- clause 10
    (let s : State := tMail 38 (fun c => { c with empty := true }); decide (s.tablesWf = true) && decide (smbAnswers s = true))
    &&
    -- clause 11
    (let s : State := tMail 38 (fun c => { c with full := true, turn := true }); decide (s.tablesWf = true) &&
      decide (smbAnswers s = true) && decide (holdsAnswer s 38 = true))
    &&
    -- clause 12
    (let s : State := tRun |> tMbx (fun m => { m with smbErrsrc := 7 }); decide (s.tablesWf = true) && decide (smbAnswers s = true))
    &&
    -- clause 13
    (let s : State := tRun |> tMbx (fun m => { m with smbResponse := some [0, 1], smbRetries := 2 }); decide (s.tablesWf = true) &&
      (match s.mbx.smbResponse with
      | some bs => (decide (s.mbx.smbRetries < 3)) | _ => false))
    &&
    -- clause 14
    (let s : State := tRun |> tMbx (fun m => { m with smbResponse := some [0, 1], smbRetries := 3 }); decide (s.tablesWf = true) &&
      (match s.mbx.smbResponse with
      | some bs => (decide (3 ≤ s.mbx.smbRetries)) | _ => false))
    &&
    -- clause 15
    (let s : State := tRun |> tMbx (fun m => { m with smbResponse := some [0, 1] }); decide (s.tablesWf = true) &&
      decide (smbAnswers s = true))) = true := by decide +kernel

/-- States and operands that meet the hypotheses of each clause. -/
theorem test_meets_PowerCommandsComplete : (
    -- clause 1
    (let s : State := tPower (fun p => { p with power := .p2 }); let p := (Party.host); decide (s.tablesWf = true) &&
      decide (isPf p = true) && decide (isRunning s = true) && decide (powerRefusal s .p0 = 0) && decide (s.pcr.fullOp = true) &&
      decide (s.pcr.target = none))
    &&
    -- clause 2
    (let s : State := tPower id; let p := (Party.host); decide (s.tablesWf = true) && decide (isPf p = true) &&
      decide (isRunning s = true) && decide (powerRefusal s .p1 = 0) && decide (s.pcr.fullOp = true) &&
      decide (s.pcr.target = none))
    &&
    -- clause 3
    (let s : State := tPower id; let p := (Party.host); decide (s.tablesWf = true) && decide (isPf p = true) &&
      decide (isRunning s = true) && decide (powerRefusal s .p2 = 0) && decide (s.pcr.fullOp = true) &&
      decide (s.pcr.target = none))
    &&
    -- clause 4
    (let s : State := tPower id; let p := (Party.host); decide (s.tablesWf = true) && decide (isPf p = true) &&
      decide (isRunning s = true) && decide (powerRefusal s .p3 = 0) && decide (s.pcr.fullOp = true) &&
      decide (s.pcr.target = none))
    &&
    -- clause 5
    (let s : State := tPower id |> tAlp (fun a => { a with state := .drill }); let p := (Party.host); decide (s.tablesWf = true) &&
      decide (isPf p = true) && decide (isRunning s = true) && decide (s.alp.state ≠ .normal))
    &&
    -- clause 6
    (let s : State := tPower id; let n := 3; decide (s.tablesWf = true) && decide (smbAnswers s = true) && (match powerOf n with
      | some x => (decide (powerRefusal s x = 0) && decide (s.pcr.fullOp = true) && decide (s.pcr.target = none)) | _ => false))
    &&
    -- clause 7
    (let s : State := tPower (fun p => { p with fullOp := false }); let n := 3; decide (s.tablesWf = true) &&
      decide (smbAnswers s = true) && (match powerOf n with
      | some x => (decide (powerRefusal s x = 0) && decide (s.pcr.fullOp = false)) | _ => false))
    &&
    -- clause 8
    (let s : State := tPower (fun p => { p with target := some .p2 }); decide (s.tablesWf = true) && decide (isRunning s = true) &&
      (match s.pcr.target with
      | some x => (decide (x ≠ .p3) && decide (s.pcr.queued = none)) | _ => false))
    &&
    -- clause 9
    (let s : State := tPower (fun p => { p with target := some .p3 }); decide (s.tablesWf = true) && decide (isRunning s = true) &&
      decide (s.pcr.target = some .p3))
    &&
    -- clause 10
    (let s : State := tPower (fun p => { p with power := .p3, phase := .held, vin12 := false }); let src := (WakeSource.loop 3);
      decide (s.tablesWf = true) && decide (s.pcr.power = .p3) && decide (s.pcr.phase = .held) && decide (s.pcr.wakeFrom = none) &&
      decide (suppliesGood s = false))
    &&
    -- clause 11
    (let s : State := tP3; let src := (WakeSource.loop 3); decide (s.tablesWf = true) && decide (s.pcr.power = .p3) &&
      decide (s.pcr.phase = .held) && decide (s.pcr.wakeFrom = none) && decide (suppliesGood s = true))
    &&
    -- clause 12
    (let s : State := tP3 |> setReg rETH_WAKE_CFG 1 |> setPort 0 { EthPort.init with stations := [(0, { mac := 0x020000000001, valid := true })] };
      let f := (({ bytes := toBe 6 0x020000000001 ++ [0, 0] ++ magicBytes 0x020000000001 ++ [0], fcsGood := true, fecCorr := 0, fecUncorr := false, at_ := 900 } : RxFrame));
      decide (s.tablesWf = true) && decide (s.pcr.power = .p3) && decide (s.pcr.phase = .held) && decide (s.pcr.wakeFrom = none) &&
      decide (f.fcsGood = true) && (let mac := ((mfind (getPort s 0).stations 0).map (fun (a : Station) => a.mac.toNat)).getD 0;
      decide (beAt f.bytes 0 6 = mac) && decide (bit (getReg s rETH_WAKE_CFG) 0 = true) &&
      decide (bit (getReg s rETH_WAKE_CFG) 1 = false) && decide (hasPattern (magicBytes mac) (f.bytes.take 512) = true)))
    &&
    -- clause 13
    (let s : State := (tP3 |> tLoops (fun l => { l with ports := mset (fun _ => LoopPort.init) [] 3 { LoopPort.init with on := true } }));
      let lp := 3; let west := true; let n := 1023; let r := 15; decide (s.tablesWf = true) && decide (lp < 4) &&
      decide (s.pcr.power = .p3) && decide (s.pcr.phase = .held) && decide (s.pcr.wakeFrom = none) &&
      decide ((getLoop s lp).on = true))
    &&
    -- clause 14
    (let s : State := tPower id; let c : Int := 104; decide (s.tablesWf = true) && decide (s.pcr.phase ≠ .off) && decide (c < 105))
    &&
    -- clause 15
    (let s : State := tPower id; let c : Int := 105; decide (s.tablesWf = true) && decide (s.pcr.phase ≠ .off) &&
      decide (105 ≤ c) && decide (c < 120))
    &&
    -- clause 16
    (let s : State := tPower id; let c : Int := 120; decide (s.tablesWf = true) && decide (isRunning s = true) && decide (120 ≤ c))
    &&
    -- clause 17
    (let s : State := tPower (fun p => { p with coolFrom := some 900, thermHold := true }); decide (s.tablesWf = true) &&
      (match s.pcr.coolFrom with
      | some d => (decide (s.pcr.thermHold = true)) | _ => false))
    &&
    -- clause 18
    (let s : State := tPower (fun p => { p with coolFrom := some 900, thermHold := true, phase := .held, cause := 10 });
      decide (s.tablesWf = true) && (match s.pcr.coolFrom with
      | some d => (decide (s.pcr.phase = .held) && decide (s.pcr.cause = 10) && decide (suppliesGood s = true) &&
      decide (s.pcr.power ≠ .p3)) | _ => false))) = true := by decide +kernel

/-- States and operands that meet the hypotheses of each clause. -/
theorem test_meets_ResetCommandsComplete : (
    -- clause 1
    (let s : State := tPower id; let p := (Party.host); decide (s.tablesWf = true) && decide (isPf p = true) &&
      decide (isRunning s = true))
    &&
    -- clause 2
    (let s : State := tPower id; let p := (Party.host); decide (s.tablesWf = true) && decide (isPf p = true) &&
      decide (isRunning s = true))
    &&
    -- clause 3
    (let s : State := tPower (fun p => { p with phase := .held, releaseAt := some 5000 }); decide (s.tablesWf = true) &&
      (match s.pcr.releaseAt with
      | some d => (decide (s.pcr.phase = .held) && decide (suppliesGood s = true) && decide (s.pcr.power ≠ .p3)) | _ => false))
    &&
    -- clause 4
    (let s : State := tPower (fun p => { p with phase := .held, vin12 := false }); decide (s.tablesWf = true) &&
      decide (s.pcr.vin12 = false) && decide (s.pcr.phase = .held) && decide (s.pcr.vaux33 = true) &&
      decide (s.pcr.releaseAt = none) && decide (s.pcr.cause ≠ 10) && decide (s.pcr.power ≠ .p3))
    &&
    -- clause 5
    (let s : State := tPower id; decide (s.tablesWf = true) && decide (s.pcr.vin12 = true) && decide (isRunning s = true))
    &&
    -- clause 6
    (let s : State := tPower (fun p => { p with phase := .off, vin12 := false, vaux33 := false }); decide (s.tablesWf = true) &&
      decide (s.pcr.vaux33 = false) && decide (s.pcr.vin12 = false))
    &&
    -- clause 7
    (let s : State := tPower (fun p => { p with phase := .off, vaux33 := false }); decide (s.tablesWf = true) &&
      decide (s.pcr.vaux33 = false) && decide (s.pcr.vin12 = true))
    &&
    -- clause 8
    (let s : State := tPower id; decide (s.tablesWf = true) && decide (s.pcr.vaux33 = true))
    &&
    -- clause 9
    (let s : State := tPower id |> tHep (fun h => { h with perstHigh := true }); let sp := 6; let w := 16; let f := true;
      decide (s.tablesWf = true) && decide (isRunning s = true) && decide (s.ident.role ≠ .member) &&
      decide (s.hep.perstHigh = true) && decide (s.pcr.refuge = false) && decide (s.pcr.recoveryHold = false) &&
      decide (powerSchedule s ≠ .p3))
    &&
    -- clause 10
    (let s : State := tPower id |> tHep (fun h => { h with perstHigh := true, linkUp := true }); decide (s.tablesWf = true) &&
      decide (s.hep.linkUp = true) && decide (isRunning s = true))
    &&
    -- clause 11
    (let s : State := tPower id |> tHep (fun h => { h with perstHigh := true, linkUp := true }); decide (s.tablesWf = true) &&
      decide (s.hep.linkUp = true) && decide (isRunning s = true))
    &&
    -- clause 12
    (let s : State := tPower id |> tHep (fun h => { h with perstHigh := true, linkUp := true }); decide (s.tablesWf = true) &&
      decide (s.ident.role ≠ .member) && decide (s.hep.perstHigh = true) && decide (isRunning s = true))
    &&
    -- clause 13
    (let s : State := tPower (fun p => { p with cfgReady := true }) |> tHep (fun h => { h with perstHigh := false });
      decide (s.tablesWf = true) && decide (s.ident.role ≠ .member) && decide (s.hep.perstHigh = false))
    &&
    -- clause 14
    (let s : State := tPower (fun p => { p with cfgReady := true, fullOp := true }) |> tHep (fun h => { h with perstHigh := true, inReset := true, readyFrom := 900 }) |> setReg rHEP_EVENT 1;
      decide (s.tablesWf = true) && decide (hostReturns s = true))
    &&
    -- clause 15
    (let s : State := tPower id |> tSvc (fun v => { v with ready := true, kickAt := 900 }) |> setReg rSVC_WDOG 65535;
      decide (s.tablesWf = true) && decide (s.svc.ready = true) && decide (regFld s rSVC_WDOG 0 16 ≠ 0) &&
      (let d := s.svc.kickAt + 1000000 * regFld s rSVC_WDOG 0 16; true))) = true := by decide +kernel

/-- States and operands that meet the hypotheses of each clause. -/
theorem test_meets_StartCommandsComplete : (
    -- clause 2
    (let s : State := tStart id; decide (s.tablesWf = true) && decide (startRuns s = true) &&
      decide (s.pcr.imageVerified = false) && (match beginStart (reachTime (s.pcr.startAt + 20000000) s) with
      | u => ((match bankFault (startBank u).2 (startBank u).1 with
      | some f => ((match bankFault (startBank u).2 (!(startBank u).1) with
      | some g => (true) | _ => false)) | _ => false))))
    &&
    -- clause 3
    (let s : State := tStart (fun p => { p with imageVerified := true, begun := true }); decide (s.tablesWf = true) &&
      decide (startRuns s = true) && decide (s.pcr.imageVerified = true) && decide (s.pcr.pathReady = false) &&
      (match applyKeys (loadDefaultPools (imageDefaults (reachTime (s.pcr.startAt + 30000000) s))) with
      | (none, u) => ((match applySections pathSections u with
      | (none, v) => (true) | _ => false)) | _ => false))
    &&
    -- clause 4
    (let s : State := (tStart (fun p => { p with imageVerified := true, begun := true }) |> tMem (fun m => { m with banks := [(36, 1), (256, 6), (258, 1), (261, 2), (264, 4), (512, 5)] }) |> tCrt (fun c => { c with sec := .operational, seed := some (List.replicate 32 1) }));
      decide (s.tablesWf = true) && decide (startRuns s = true) && decide (s.pcr.imageVerified = true) &&
      decide (s.pcr.pathReady = false) &&
      (match applyKeys (loadDefaultPools (imageDefaults (reachTime (s.pcr.startAt + 30000000) s))) with
      | (some f, u) => (true) | _ => false))
    &&
    -- clause 5
    (let s : State := tStart (fun p => { p with imageVerified := true, begun := true, pathReady := true });
      decide (s.tablesWf = true) && decide (startRuns s = true) && decide (s.pcr.pathReady = true) &&
      decide (s.pcr.cfgReady = false) && decide (s.pcr.refuge = false) &&
      (match applySection 7 applySvccode (reachTime (s.pcr.startAt + 150000000) s) with
      | (none, u) => (true) | _ => false))
    &&
    -- clause 6
    (let s : State := tStart (fun p => { p with imageVerified := true, begun := true, pathReady := true });
      decide (s.tablesWf = true) && decide (startRuns s = true) && decide (s.pcr.pathReady = true) &&
      decide (s.pcr.storeReady = false) && decide (s.pcr.refuge = false))
    &&
    -- clause 7
    (let s : State := tStart (fun p => { p with imageVerified := true, begun := true, pathReady := true, cfgReady := true, storeReady := true });
      decide (s.tablesWf = true) && decide (startRuns s = true) && decide (s.pcr.cfgReady = true) &&
      decide (s.pcr.storeReady = true))
    &&
    -- clause 8
    (let s : State := tStart id; let a := 3; let r := 5; let n := 9; decide (s.tablesWf = true) && decide (startRuns s = true) &&
      decide (s.pcr.recoveryHold = false) && decide (1 ≤ r) && decide (r ≤ 5))
    &&
    -- clause 9
    (let s : State := tStart id; let a := 3; let r := 6; let n := 9; decide (s.tablesWf = true) && decide (startRuns s = true) &&
      decide (s.pcr.recoveryHold = false) && decide (6 ≤ r))
    &&
    -- clause 10
    (let s : State := tStart (fun p => { p with begun := true }); decide (s.tablesWf = true) && decide (startRuns s = true) &&
      decide (s.pcr.recoveryHold = false) && decide (s.pcr.begun = true) && decide (s.pcr.refuge = false))) = true := by decide +kernel

/-- States and operands that meet the hypotheses of each clause. -/
theorem test_meets_SecureRequestCommandsComplete : (
    -- clause 1
    (let s : State := tMail 36 (fun c => { c with word := 4, full := true, turn := true }) |> tMbx (fun m => { m with requests := [36] });
      decide (s.tablesWf = true) && decide (s.crt.restarting = false) && (match s.mbx.requests with
      | ch :: rest => (decide (s.mbx.taken = []) && decide (1 ≤ reqOp (getMbx s ch).word) &&
      decide (reqOp (getMbx s ch).word ≤ 4)) | _ => false))
    &&
    -- clause 2
    (let s : State := tMail 36 (fun c => { c with word := 0, full := true, turn := true }) |> tMbx (fun m => { m with requests := [36] });
      decide (s.tablesWf = true) && decide (s.crt.restarting = false) && (match s.mbx.requests with
      | ch :: rest => (decide (s.mbx.taken = []) && decide (reqOp (getMbx s ch).word = 0) &&
      decide (s.mbx.discard = [])) | _ => false))
    &&
    -- clause 3
    (let s : State := tTaken 36 1 tRun; let ch : Nat := 36; decide (s.tablesWf = true) && decide (s.crt.restarting = false) &&
      (match mfind s.mbx.taken ch with
      | some w => (decide (reqOp w = 1)) | _ => false))
    &&
    -- clause 4
    (let s : State := tTaken 36 0x90002 tSigning; let ch : Nat := 36; decide (s.tablesWf = true) &&
      decide (s.crt.restarting = false) && (match mfind s.mbx.taken ch with
      | some w => (decide (reqOp w = 2) && decide (secureParty ch ≠ .management) && decide (s.crt.sec ≠ .zeroised)) | _ => false))
    &&
    -- clause 5
    (let s : State := tTaken 38 0x90002 tSigning; let ch : Nat := 38; decide (s.tablesWf = true) &&
      decide (s.crt.restarting = false) && (match mfind s.mbx.taken ch with
      | some w => (decide (reqOp w = 2) && decide (secureParty ch = .management)) | _ => false))
    &&
    -- clause 6
    (let s : State := (tTaken 35 (BitVec.ofNat 64 (3 + 2 ^ 16 * 8192)) (tAdmin false []) |> tCrt (fun c => { c with sec := .operational }));
      let ch : Nat := 35; let r := (ReadOutcome.data (List.replicate 32 5)); decide (s.tablesWf = true) &&
      decide (s.crt.restarting = false) && (match mfind s.mbx.taken ch with
      | some w => (decide (reqOp w = 3) && decide (secureParty ch = .host) && decide (s.crt.sec ≠ .zeroised) &&
      decide (attestDva w % 64 = 0) && decide ((∀ e ∈ s.hep.tags, e.2.purpose ≠ .attest ch)) &&
      (match dtuRead .key pf (attestDva w) 32 r (.attest ch) s with
      | (rep, u) => (true))) | _ => false))
    &&
    -- clause 7
    (let s : State := tTaken 35 4 tSigning; let ch : Nat := 35; decide (s.tablesWf = true) && decide (s.crt.restarting = false) &&
      (match mfind s.mbx.taken ch with
      | some w => (decide (reqOp w = 4) && decide (secureParty ch = .host)) | _ => false))) = true := by decide +kernel

/-- States and operands that meet the hypotheses of each clause. -/
theorem test_meets_RegisterCommandsComplete : (
    -- clause 1
    (let s : State := tRun; let p := (Party.host); let off := rALP_SHED_CFG; let v := (3#32); decide (s.tablesWf = true) &&
      decide (isRunning s = true))
    &&
    -- clause 2
    (let s : State := setReg rCAS_EVENT 0x103 tRun; let p := (Party.host); let e := ((rCAS_EVENT_MASK, rCAS_EVENT));
      let v := (0x101#32); decide (s.tablesWf = true) && decide (e ∈ eventPairs) && (match regAt e.2 with
      | some d => (decide (mayWrite p e.2 d = true) && decide (isRunning s = true)) | _ => false))
    &&
    -- clause 3
    (let s : State := tRun; let p := (Party.host); let off := rALP_SHED_CFG; let v := (3#32); decide (s.tablesWf = true) &&
      (match regAt off with
      | some d => (decide (off % 4 = 0) && decide (maskOf off = none) && decide (d.perView = false) &&
      decide (mayWrite p off d = true) && decide (writeWindow p off v s = plainWrite p off v s) &&
      decide (isRunning s = true)) | _ => false))
    &&
    -- clause 4
    (let s : State := tRun; let p := (Party.service 3); let off := 0x200038; let v := (3#32); decide (s.tablesWf = true) &&
      (match regAt off with
      | some d => (decide (maskOf off = none) && decide (mayWrite p off d = false) &&
      decide (writeWindow p off v s = plainWrite p off v s) && decide (isRunning s = true)) | _ => false))
    &&
    -- clause 5
    (let s : State := tRun; let p := (Party.host); let off := rCAS_EVENT_MASK; let v := (3#32); decide (s.tablesWf = true) &&
      (match maskOf off with
      | some ev => (decide (isRunning s = true) && decide (visible p off = true)) | _ => false))
    &&
    -- clause 6
    (let s : State := tRun; let p := (Party.host); let e := ((rCAS_EVENT_MASK, rCAS_EVENT)); let v := (3#32);
      decide (s.tablesWf = true) && decide (e ∈ eventPairs) && (match regAt e.1 with
      | some d => (decide (mayWrite p e.1 d = true) && decide (isRunning s = true) &&
      (match d.written s.pcr.cfgReady (getReg s e.1) v with
      | w => (decide (setFld w 16 16 0 &&& getReg s e.2 = 0)))) | _ => false))
    &&
    -- clause 7
    (let s : State := setReg rCAS_EVENT 2 tRun; let p := (Party.host); let e := ((rCAS_EVENT_MASK, rCAS_EVENT));
      let v := (0x50003#32); decide (s.tablesWf = true) && decide (e ∈ eventPairs) && (match regAt e.1 with
      | some d => (decide (mayWrite p e.1 d = true) && decide (isRunning s = true) &&
      (match d.written s.pcr.cfgReady (getReg s e.1) v with
      | w => (decide (setFld w 16 16 0 &&& getReg s e.2 ≠ 0)))) | _ => false))
    &&
    -- clause 8
    (let s : State := tRun; let p := (Party.host); let off := 0x1000a4; decide (s.tablesWf = true) && decide (isRunning s = true) &&
      decide (isWideLow off = true))
    &&
    -- clause 9
    (let s : State := tRun; let p := (Party.host); let off := rSWC_TEPHRA_BASE_LO; decide (s.tablesWf = true) &&
      decide (isRunning s = true) && decide (visible p off = true) && decide (off % 4 = 0) && decide (isWideLow off = true))
    &&
    -- clause 10
    (let s : State := tRun; let p := (Party.host); let off := cCAS_TLP_LOST; decide (s.tablesWf = true) &&
      decide (isRunning s = true) && decide (visible p off = true) && decide (off % 4 = 0) && decide (isCounter off = true) &&
      decide (off ≠ cSTR_CID_HELD))
    &&
    -- clause 11
    (let s : State := tLink id; let g := 3; let f := (linkBytes 1 0 { tLinkFrame with dst := 2, src := 5 });
      decide (s.tablesWf = true) && (match receiveLink g 2 f s with
      | (some r, u) => (decide (isOwnCid u r.dst = true)) | _ => false))
    &&
    -- clause 12
    (let s : State := tLink id; let g := 3; let f := (linkBytes 1 0 { tLinkFrame with dst := 7, src := 5 });
      decide (s.tablesWf = true) && (match receiveLink g 2 f s with
      | (some r, u) => (decide (isOwnCid u r.dst = false)) | _ => false))
    &&
    -- clause 13
    (let s : State := (tLink id |> tCas (fun c => { c with hostReqs := [(9, 5)] })); let g := 3;
      let f := (linkBytes 1 0 { tLinkFrame with dst := 2, src := 5, payload := tlpBytes (.cpl 1 9 .success false [1, 2, 3, 4]) });
      decide (s.tablesWf = true) && (match parseLink f with
      | some r => (decide (r.type = 2) && decide ((getLink s g).state = .up) &&
      decide (r.seq = (getChan (getLink s g) r.ch).expected) && (match acceptSeq g r.ch (wireLen r.payload.length) s with
      | u => (decide (isOwnCid u r.dst = true) && decide (u.ident.role = .head) && (match parseTlp r.payload with
      | some (.cpl fn tag st l bs) => (decide (mfind u.cas.hostReqs tag = some r.src)) | _ => false)))) | _ => false))
    &&
    -- clause 14
    (let s : State := tLink id |> tIdent (fun i => { i with role := .member }); let g := 3;
      let f := (linkBytes 1 0 { tLinkFrame with dst := 2, src := 5, payload := tlpBytes (.cfg 3 4 true 15 0x100406 9) });
      decide (s.tablesWf = true) && (match parseLink f with
      | some r => (decide (r.type = 2) && decide ((getLink s g).state = .up) &&
      decide (r.seq = (getChan (getLink s g) r.ch).expected) && (match acceptSeq g r.ch (wireLen r.payload.length) s with
      | u => (decide (isOwnCid u r.dst = true) && decide (u.ident.role = .member) && (match parseTlp r.payload with
      | some x => (true) | _ => false)))) | _ => false))
    &&
    -- clause 15
    (let s : State := tLink id; let g := 3; let f := (linkBytes 1 4095 { tLinkFrame with dst := 2, src := 5 });
      decide (s.tablesWf = true) && (match parseLink f with
      | some r => (decide (r.type = 2) && decide ((getLink s g).state = .up) &&
      decide (r.seq ≠ (getChan (getLink s g) r.ch).expected) &&
      decide (1 ≤ ((getChan (getLink s g) r.ch).expected + 4096 - r.seq) % 4096) &&
      decide (((getChan (getLink s g) r.ch).expected + 4096 - r.seq) % 4096 ≤ 2047)) | _ => false))
    &&
    -- clause 16
    (let s : State := tLink id |> tIdent (fun i => { i with role := .member }); let g := 3;
      let f := (linkBytes 0 0 { tLinkFrame with type := 5, dst := 2, src := 5, payload := [0x1E] }); decide (s.tablesWf = true) &&
      (match parseLink f with
      | some r => (decide (r.type = 5) && decide ((getLink s g).state = .up) &&
      decide (r.seq = (getChan (getLink s g) r.ch).expected) && (match acceptSeq g r.ch (wireLen r.payload.length) s with
      | u => (decide (isOwnCid u r.dst = true) && decide (u.ident.role = .member) && (match byteAt r.payload 0 with
      | v => (decide (nbit v 5 = false)))))) | _ => false))
    &&
    -- clause 17
    (let s : State := tLink id |> tIdent (fun i => { i with role := .member }); let g := 3;
      let f := (linkBytes 0 0 { tLinkFrame with type := 5, dst := 2, src := 5, payload := [0x3E] }); decide (s.tablesWf = true) &&
      (match parseLink f with
      | some r => (decide (r.type = 5) && decide ((getLink s g).state = .up) &&
      decide (r.seq = (getChan (getLink s g) r.ch).expected) && (match acceptSeq g r.ch (wireLen r.payload.length) s with
      | u => (decide (isOwnCid u r.dst = true) && decide (u.ident.role = .member) && (match byteAt r.payload 0 with
      | v => (decide (nbit v 5 = true) && decide (isRunning s = true)))))) | _ => false))
    &&
    -- clause 18
    (let s : State := tLink id; let g := 3;
      let f := (linkBytes 0 0 { tLinkFrame with type := 5, dst := 2, src := 5, payload := [1] }); decide (s.tablesWf = true) &&
      (match parseLink f with
      | some r => (decide (r.type = 5) && decide ((getLink s g).state = .up) &&
      decide (r.seq = (getChan (getLink s g) r.ch).expected) && (match acceptSeq g r.ch (wireLen r.payload.length) s with
      | u => (decide (isOwnCid u r.dst = true) && decide (u.ident.role = .head) &&
      decide (nbit (byteAt r.payload 0) 0 = true)))) | _ => false))
    &&
    -- clause 19
    (let s : State := tLink id |> tIdent (fun i => { i with role := .member }); let g := 3;
      let f := (linkBytes 0 0 { tLinkFrame with type := 5, dst := 2, src := 5 }); decide (s.tablesWf = true) &&
      (match receiveLink g 5 f s with
      | (some r, u) => (decide (isOwnCid u r.dst = true) && decide (u.ident.role = .member)) | _ => false))
    &&
    -- clause 20
    (let s : State := tLink id; let g := 3; let f := (linkBytes 0 0 { tLinkFrame with type := 5, dst := 2, src := 5 });
      decide (s.tablesWf = true) && (match receiveLink g 5 f s with
      | (some r, u) => (decide (isOwnCid u r.dst = true) && decide (u.ident.role = .head)) | _ => false))
    &&
    -- clause 21
    (let s : State := tLink id; let g := 3; let f := (linkBytes 0 0 { tLinkFrame with type := 5, dst := 7, src := 5 });
      decide (s.tablesWf = true) && (match receiveLink g 5 f s with
      | (some r, u) => (decide (isOwnCid u r.dst = false)) | _ => false))) = true := by decide +kernel

/-- States and operands that meet the hypotheses of each clause. -/
theorem test_meets_ThreadInstructionCommandsComplete : (
    -- clause 1
    (let s : State := tThread (0x0B + 5 * 128 + 6 * 32768) (fun t => { t with wake := 15 }); let g : Nat := 255;
      decide (s.tablesWf = true) && (match nextWord s g with
      | some w => (decide (isEvwait w = true) && decide (0 < (getThread s g).wake)) | _ => false))
    &&
    -- clause 2
    (let s : State := tThread (0x0B + 5 * 128) id; let g : Nat := 255; decide (s.tablesWf = true) && (match nextWord s g with
      | some w => (decide (isEvwait w = true) && decide ((getThread s g).wake = 0) &&
      decide ((getThread s g).eventEnabled = false) && decide (nbits w 15 5 = 0)) | _ => false))
    &&
    -- clause 3
    (let s : State := tThread 0 (fun t => { t with state := .evwait, waitRd := 5, waitUntil := some 1200 }); let g : Nat := 255;
      decide (s.tablesWf = true) && decide ((getThread s g).state = .evwait) && (match (getThread s g).waitUntil with
      | some d => (true) | _ => false))
    &&
    -- clause 4
    (let s : State := (tThread (0x100B + 6 * 32768) (fun t => { t with x := [(6, 9)] })); let g : Nat := 255;
      decide (s.tablesWf = true) && (match nextWord s g with
      | some w => (decide (isEvpost w = true) && decide (nbit ((getThread s g).xreg (nbits w 15 5)).toNat 8 = false) &&
      (match ((getThread s g).xreg (nbits w 15 5)).toNat % 256 with
      | h => (decide (h ≠ g) && decide ((getThread s h).state = .run)))) | _ => false))
    &&
    -- clause 5
    (let s : State := (tThread (0x100B + 6 * 32768) (fun t => { t with x := [(6, 0x101)] })); let g : Nat := 255;
      decide (s.tablesWf = true) && (match nextWord s g with
      | some w => (decide (isEvpost w = true) && decide (nbit ((getThread s g).xreg (nbits w 15 5)).toNat 8 = true)) | _ => false))
    &&
    -- clause 6
    (let s : State := (tThread mretWord (fun t => { t with csr := [(csrMepc, 513)] })); let g : Nat := 255;
      decide (s.tablesWf = true) && decide (nextWord s g = some mretWord) && decide ((getThread s g).user = false))
    &&
    -- clause 7
    (let s : State := (tThread 0 (fun t => { t with csr := [(csrSvctimecmp, 1500)] })); let g : Nat := 255;
      decide (s.tablesWf = true) && decide ((getThread s g).state ≠ .off) && decide ((getThread s g).csrAt csrSvctimecmp ≠ 0))
    &&
    -- clause 8
    (let s : State := tThread (0x33 + 5 * 128 + 6 * 32768 + 7 * 1048576) id; let g : Nat := 255; decide (s.tablesWf = true) &&
      decide (threadIssues s g = true) && decide ((getThread s g).interruptDue = false) &&
      decide ((getThread s g).pc.getLsbD 0 = false) && (match fetchAt s (getThread s g) (getThread s g).pc.toNat with
      | some (len, w) => ((match rvDecode len w with
      | some i => ((match rvExec g len w i s with
      | .ok u => (true) | _ => false)) | _ => false)) | _ => false))
    &&
    -- clause 9
    (let s : State := tThread (0x33 + 5 * 128 + 6 * 32768 + 7 * 1048576) id; let g : Nat := 255; decide (s.tablesWf = true) &&
      decide (threadIssues s g = true) && decide ((getThread s g).interruptDue = false) &&
      decide ((getThread s g).pc.getLsbD 0 = false) && (match fetchAt s (getThread s g) (getThread s g).pc.toNat with
      | some (len, w) => ((match rvDecode len w with
      | some (.op f rd a b) => (true) | _ => false)) | _ => false))
    &&
    -- clause 10
    (let s : State := tThread 0x73 id; let g : Nat := 255; decide (s.tablesWf = true) && decide (threadIssues s g = true) &&
      decide ((getThread s g).interruptDue = false) && (match rvStep g s with
      | .error (c, v) => (true) | _ => false))
    &&
    -- clause 11
    (let s : State := (tThread 0 (fun t => { t with csr := [(0x300, 8), (0x304, 2048), (csrSvcev, 1), (csrSvcevmask, 1)] }));
      let g : Nat := 255; decide (s.tablesWf = true) && decide (threadIssues s g = true) &&
      decide ((getThread s g).interruptDue = true))) = true := by decide +kernel

/-- States and operands that meet the hypotheses of each clause. -/
theorem test_meets_ThreadControlCommandsComplete : (
    -- clause 1
    (let s : State := tThread 0 (fun t => { t with state := .held }); let b : Nat := 8; let g : Nat := 255;
      decide (s.tablesWf = true) && decide (isMaster s b = true) && decide (mayCommand b g = true) &&
      decide ((getThread s g).state = .held) && decide (threadPowered s g = true))
    &&
    -- clause 2
    (let s : State := tThread 0 id; let b : Nat := 8; let g : Nat := 255; decide (s.tablesWf = true) &&
      decide (isMaster s b = true) && decide (mayCommand b g = true) && decide ((getThread s g).state = .run))
    &&
    -- clause 3
    (let s : State := tThread 0 (fun t => { t with state := .faulted }); let b : Nat := 8; let g : Nat := 255;
      decide (s.tablesWf = true) && decide (isMaster s b = true) && decide (mayCommand b g = true) &&
      decide ((getThread s g).state = .faulted))
    &&
    -- clause 4
    (let s : State := tThread 0 (fun t => { t with halting := true }); let b : Nat := 8; let g : Nat := 255;
      decide (s.tablesWf = true) && decide (isMaster s b = true) && decide (mayCommand b g = true) &&
      decide ((getThread s g).halting = true) && decide ((getThread s g).state = .run))
    &&
    -- clause 5
    (let s : State := tThread 0 id; let b : Nat := 8; let g : Nat := 255; decide (s.tablesWf = true) &&
      decide (isMaster s b = true) && decide (mayCommand b g = true) && decide ((getThread s g).state ≠ .off))
    &&
    -- clause 6
    (let s : State := tThread 0 (fun t => { t with state := .faultedUnsaved, shadowCause := 2, regionBase := 0x8000, regionLimit := 0x81FF });
      let b : Nat := 8; let g : Nat := 255; decide (s.tablesWf = true) && decide (isMaster s b = true) &&
      decide (mayCommand b g = true) && decide ((getThread s g).state = .faultedUnsaved) && decide ((getThread s g).tsbOk = true))
    &&
    -- clause 7
    (let s : State := tThread 0 id; let b : Nat := 8; let g : Nat := 255; decide (s.tablesWf = true) &&
      decide (isMaster s b = true) && decide (mayCommand b g = true) && decide ((getThread s g).state = .run))
    &&
    -- clause 8
    (let s : State := tThread 0 (fun t => { t with state := .off }); let b : Nat := 8; let g : Nat := 255; let v := (0x200#64);
      decide (s.tablesWf = true) && decide (isMaster s b = true) && decide (mayCommand b g = true) &&
      decide ((getThread s g).state = .off) && decide (threadPowered s g = true))
    &&
    -- clause 9
    (let s : State := tThread 0 id |> tSvc (fun v => { v with faults := [{ thread := 255, unsaved := true }] }); let b : Nat := 8;
      let g : Nat := 255; let p := (Party.service 8); decide (s.tablesWf = true) && decide (isMaster s b = true) &&
      decide (mayCommand b g = true) && (match s.svc.faults with
      | e :: rest => (true) | _ => false))
    &&
    -- clause 10
    (let s : State := tThread 0 id; let b : Nat := 8; let g : Nat := 255; decide (s.tablesWf = true) &&
      decide (isMaster s b = true) && decide (mayCommand b g = true))) = true := by decide +kernel

/-- States and operands that meet the hypotheses of each clause. -/
theorem test_meets_TimeCommandsComplete : (
    -- clause 1
    (let s : State := tRun; let p := (Party.host); let v := (2#32); decide (s.tablesWf = true) && decide (isPf p = true) &&
      decide (fld v 0 2 ≠ 3) && decide (ptpSource (fld v 0 2) ≠ s.tim.src))
    &&
    -- clause 2
    (let s : State := tRun |> tTim (fun t => { t with src := .ptp }); let p := (Party.host); let v := (0x80000000#32);
      decide (s.tablesWf = true) && decide (isPf p = true) && decide (s.tim.src = .ptp))
    &&
    -- clause 3
    (let s : State := tRun |> tTim (fun t => { t with src := .loop }); let p := (Party.host); let v := (5#32);
      decide (s.tablesWf = true) && decide (isPf p = true) && decide (s.tim.src = .loop) && decide (s.tim.heldFrom = none))
    &&
    -- clause 4
    (let s : State := tRun |> setReg rTIM_PTP_STEP_LO 5; let p := (Party.host); let v := (0x80000000#32);
      decide (s.tablesWf = true) && decide (isPf p = true) && decide (s.tim.src ≠ .loop) && decide (anySourcing s = false))
    &&
    -- clause 5
    (let s : State := (tRun |> setReg rTIM_PTP_STEP_LO 0x000F4240 |> tLoops (fun l => { l with ports := mset (fun _ => LoopPort.init) [] 3 { LoopPort.init with on := true, sourcing := true } }));
      let p := (Party.host); let v := (0#32); decide (s.tablesWf = true) && decide (isPf p = true) && decide (s.tim.src ≠ .loop) &&
      decide (anySourcing s = true) && decide ((join64 v (getReg s rTIM_PTP_STEP_LO)).toInt.natAbs ≤ 1000000))
    &&
    -- clause 6
    (let s : State := tRun |> tTim (fun t => { t with slew := 5, slewEnd := some 2000 }); decide (s.tablesWf = true) &&
      (match s.tim.slewEnd with
      | some d => (true) | _ => false))
    &&
    -- clause 7
    (let s : State := tRun; let p := (Party.host); decide (s.tablesWf = true))
    &&
    -- clause 8
    (let s : State := tRun |> tTim (fun t => { t with src := .loop, locked := true, lastSweep := 900 });
      decide (s.tablesWf = true) && decide (s.tim.src = .loop) && decide (s.tim.freewheel = false))
    &&
    -- clause 9
    (let s : State := tRun |> tTim (fun t => { t with queue := [tEntry 0] }); decide (s.tablesWf = true) && (match s.tim.queue with
      | e :: rest => (decide (nbit (byteAt e 3) 1 = false)) | _ => false))
    &&
    -- clause 10
    (let s : State := tRun |> tTim (fun t => { t with queue := [tEntry 2], pinnedUsed := 4095 }); decide (s.tablesWf = true) &&
      (match s.tim.queue with
      | e :: rest => (decide (nbit (byteAt e 3) 1 = true) && decide (s.tim.pinnedUsed < 4096)) | _ => false))
    &&
    -- clause 11
    (let s : State := (tRun |> tTim (fun t => { t with log := [(65535, tEntry 0)] })); let p := (Party.host); let n := 65535;
      decide (s.tablesWf = true) && decide (n < 65536) && (match mfind s.tim.log n with
      | some e => (true) | _ => false))
    &&
    -- clause 12
    (let s : State := tRun; let r := (TelemetryReading.mk [40] 12000 300 3300 20 36000); decide (s.tablesWf = true))
    &&
    -- clause 13
    (let s : State := tMem (fun m => { m with svcMib := 1 }) tRun |> tTim (fun t => { t with snapDue := 1500 }) |> setReg rTIM_TELEM_CFG 0x03FF0001;
      decide (s.tablesWf = true) && decide (regFld s rTIM_TELEM_CFG 0 1 = 1) && decide (backgroundRuns s = true) &&
      (let d := s.at_ s.tim.snapDue;
      (let u := { reachTime d s with tim := { s.tim with snapDue := d + 1000000 * regFld s rTIM_TELEM_CFG 16 10 } };
      decide ((getReg u rTIM_TELEM_PROD - getReg u rTIM_TELEM_CONS).toNat < 2 ^ regFld s rTIM_TELEM_CFG 8 4))))
    &&
    -- clause 14
    (let s : State := tRun; decide (s.tablesWf = true) && (let d := 1000000000 * (s.tim.seconds + 1); true))) = true := by decide +kernel

end Sys2Proof.Tests
end

section
/-! R11: what counting does. The counter counted goes on modulo 2^64, and nothing else of the state changes. -/

namespace Sys2Proof.Machine

/-- A state whose tables are well-formed lists each counter once. -/
theorem msorted_ctr_of_tablesWf {s : State} (h : s.tablesWf = true) : msorted s.ctr = true := by
  simp only [State.tablesWf, State.coreTablesWf, Bool.and_eq_true] at h
  simp only [h]

/-- The counter counted goes on from its value, modulo 2^64. -/
theorem getCtr_addCtr_self {o n : Nat} {s : State} (h : msorted s.ctr = true) :
    getCtr (addCtr o n s) o = getCtr s o + BitVec.ofNat 64 n := mget_mset_self h

/-- A counter other than the one counted. -/
theorem getCtr_addCtr_ne {o k n : Nat} {s : State} (h : k ≠ o) : getCtr (addCtr o n s) k = getCtr s k := mget_mset_ne h

/-- Counting changes nothing but the table of counters. -/
theorem addCtr_restore_ctr (o n : Nat) (s : State) : { addCtr o n s with ctr := s.ctr } = s := rfl

/-- Settles O56: counting is one write of the table of counters, and a write there reads back as the 64-bit sum at its own key and
leaves every other key. -/
theorem countersWrap : Obligations.CountersWrap := by
  unfold Obligations.CountersWrap
  intro s o n hwf
  exact ⟨getCtr_addCtr_self (msorted_ctr_of_tablesWf hwf), fun _ hk => getCtr_addCtr_ne hk, addCtr_restore_ctr o n s⟩

end Sys2Proof.Machine
end

section
/-! R11, R218, R370: the counters that sending to the host may advance, and that raising an event flag advances no other. -/

namespace Sys2Proof.Machine

/-- The counters that sending to the host may advance: those of the Gondola links that carry a member's TLP frames, and of the TLP
frames that are lost (R370). -/
def isSendCounter (k : Nat) : Prop :=
  atIndex cCAS_G_FRAMES_TX k ∨ atIndex cCAS_G_BYTES_TX k ∨ k = cCAS_LOST_DEST_DROP ∨ k = cCAS_TLP_LOST

/-- The counters that asking for a message may advance: besides, the one of what is held while requests may not be issued (R218). -/
def isMsixCounter (k : Nat) : Prop := isSendCounter k ∨ k = cHEP_BME_HELD

@[simp] theorem getCtr_emit (o : Out) (s : State) (k : Nat) : getCtr (emit o s) k = getCtr s k := rfl
@[simp] theorem getCtr_setReg (o : Nat) (v : Word) (s : State) (k : Nat) : getCtr (setReg o v s) k = getCtr s k := rfl
@[simp] theorem getCtr_setLink (g : Nat) (l : Link) (s : State) (k : Nat) : getCtr (setLink g l s) k = getCtr s k := rfl
@[simp] theorem getCtr_setFn (n : Nat) (f : Func) (s : State) (k : Nat) : getCtr (setFn n f s) k = getCtr s k := rfl

theorem getCtr_incr_ne {o k : Nat} {s : State} (h : k ≠ o) : getCtr (incr o s) k = getCtr s k := getCtr_addCtr_ne h

section
variable {k : Nat} (hk : ¬ isSendCounter k)
include hk

theorem getCtr_wireFrame (g ch seq : Nat) (f : LinkFrame) (s : State) : getCtr (wireFrame g ch seq f s) k = getCtr s k := by
  have hframes : k ≠ cCAS_G_FRAMES_TX g := fun e => hk (.inl ⟨g, e⟩)
  have hbytes : k ≠ cCAS_G_BYTES_TX g := fun e => hk (.inr (.inl ⟨g, e⟩))
  rw [wireFrame, getCtr_addCtr_ne hbytes, getCtr_incr_ne hframes, getCtr_emit]

theorem getCtr_pumpChannel (g ch n : Nat) (s : State) : getCtr (pumpChannel g ch n s) k = getCtr s k := by
  induction n generalizing s with
  | zero => rfl
  | succ n ih =>
    rw [pumpChannel]
    dsimp only
    split
    · rfl
    · split
      · rfl
      · rw [ih, getCtr_wireFrame hk, getCtr_setLink]

theorem getCtr_sendLink (g ch : Nat) (f : LinkFrame) (s : State) : getCtr (sendLink g ch f s) k = getCtr s k := by
  rw [sendLink, pump, getCtr_pumpChannel hk, getCtr_setLink]

theorem getCtr_forwardTlp (f : LinkFrame) (hash : Nat) (s : State) : getCtr (forwardTlp f hash s) k = getCtr s k := by
  have hlost : k ≠ cCAS_LOST_DEST_DROP := fun e => hk (.inr (.inr (.inl e)))
  have htlp : k ≠ cCAS_TLP_LOST := fun e => hk (.inr (.inr (.inr e)))
  rw [forwardTlp]
  split
  · rw [getCtr_incr_ne hlost, getCtr_incr_ne htlp]
  · split
    · exact getCtr_incr_ne htlp
    · exact getCtr_sendLink hk _ _ _ _

theorem getCtr_sendTlp (d : Nat) (p : Bytes) (s : State) : getCtr (sendTlp d p s) k = getCtr s k := by
  rw [sendTlp]
  dsimp only
  split
  · rfl
  · exact getCtr_forwardTlp hk _ _ _

theorem getCtr_hostOut (o : Out) (s : State) : getCtr (hostOut o s) k = getCtr s k := by
  have htlp : k ≠ cCAS_TLP_LOST := fun e => hk (.inr (.inr (.inr e)))
  rw [hostOut]
  split
  · split
    · exact forEach_keeps (getCtr · k) (fun t s => getCtr_sendTlp hk _ _ s) _ s
    · exact getCtr_addCtr_ne htlp
  · rfl

end

section
variable {k : Nat} (hk : ¬ isMsixCounter k)
include hk

theorem getCtr_sendMsix (fn vec : Nat) (s : State) : getCtr (sendMsix fn vec s) k = getCtr s k := by
  have hheld : k ≠ cHEP_BME_HELD := fun e => hk (.inr e)
  rw [sendMsix]
  split
  · rfl
  · split
    · rfl
    · split
      · exact getCtr_hostOut (fun h => hk (.inl h)) _ _
      · rw [holdOut, getCtr_setFn, getCtr_incr_ne hheld, getCtr_setFn]

theorem getCtr_raise (ev mask n : Nat) (s : State) : getCtr (raise ev mask n s) k = getCtr s k := by
  rw [raise, raiseBits]
  split
  · rfl
  · rw [getCtr_sendMsix hk, getCtr_setReg]

end

/-- Raising an event flag writes the event register and no other. -/
@[simp] theorem raise_regs (ev mask n : Nat) (s : State) :
    (raise ev mask n s).regs = (setReg ev (getReg s ev ||| putBit n true) s).regs := by
  rw [raise, raiseBits]
  split
  · rfl
  · exact (congrArg State.regs (sendMsix_sansHost _ _ _) :)

theorem getReg_raise_ne {ev mask n k : Nat} {s : State} (h : k ≠ ev) : getReg (raise ev mask n s) k = getReg s k :=
  (congrArg (mget regReset · k) (raise_regs ev mask n s)).trans (getReg_setReg_ne h)

theorem getReg_raise_self {ev mask n : Nat} {s : State} (h : msorted s.regs = true) :
    getReg (raise ev mask n s) ev = getReg s ev ||| putBit n true :=
  (congrArg (mget regReset · ev) (raise_regs ev mask n s)).trans (getReg_setReg_self h)

/-- A bit that is put reads 1. -/
theorem bit_or_putBit (v : Word) {n : Nat} (h : n < 32) : bit (v ||| putBit n true) n = true := by
  rw [bit, putBit, if_pos rfl, BitVec.getLsbD_or, BitVec.getLsbD_ofNat, Nat.testBit_two_pow_self]
  simp [h]

theorem msorted_regs_of_tablesWf {s : State} (h : s.tablesWf = true) : msorted s.regs = true := by
  simp only [State.tablesWf, State.coreTablesWf, Bool.and_eq_true] at h
  simp only [h]

end Sys2Proof.Machine
end

section
/-! R54: what the rejection of an emergency message does and leaves. -/

namespace Sys2Proof.Machine

/-- The markers that follow an operation are sent only: what sending keeps is as the operation left it. -/
theorem withMarkers_keeps {β : Type} (g : State → β) (h : ∀ o s, g (emit o s) = g s) (f : State → State) (s : State) :
    g (withMarkers f s) = g (f s) := by
  refine forEach_keeps g (fun _ t => ?_) _ _
  split
  · exact h _ t
  · rfl

theorem acceptSeq_sansLink (g ch len : Nat) (s : State) : (acceptSeq g ch len s).sansLink = s.sansLink := by
  rw [acceptSeq, addCtr_sansLink, incr, addCtr_sansLink, setLink_sansLink]

theorem msorted_addCtr_ctr {o n : Nat} {s : State} (h : msorted s.ctr = true) : msorted (addCtr o n s).ctr = true := msorted_mset h

theorem msorted_acceptSeq_ctr {g ch len : Nat} {s : State} (h : msorted s.ctr = true) : msorted (acceptSeq g ch len s).ctr = true :=
  msorted_addCtr_ctr (msorted_addCtr_ctr h)

/-- A message arrives as it is, or as the next frame of a link that receives. -/
theorem emsgArrives_cases {path : EmsgPath} {s u : State} (h : emsgArrives path s = some u) : u = s ∨ ∃ g, u = acceptSeq g 0 96 s := by
  cases path with
  | loop n => exact .inl (Option.some.inj h).symm
  | eth => exact .inl (Option.some.inj h).symm
  | cascade g =>
    rw [emsgArrives] at h
    split at h
    · exact .inr ⟨g, (Option.some.inj h).symm⟩
    · cases h

/-- The arrival of a message changes its link and the counters of the link. -/
theorem emsgArrives_sansLink {path : EmsgPath} {s u : State} (h : emsgArrives path s = some u) : u.sansLink = s.sansLink := by
  obtain rfl | ⟨g, rfl⟩ := emsgArrives_cases h
  · rfl
  · exact acceptSeq_sansLink g 0 96 s

theorem msorted_emsgArrives_ctr {path : EmsgPath} {s u : State} (h : emsgArrives path s = some u) (hs : msorted s.ctr = true) :
    msorted u.ctr = true := by
  obtain rfl | ⟨g, rfl⟩ := emsgArrives_cases h
  · exact hs
  · exact msorted_acceptSeq_ctr hs

/-- The checks of R52 read nothing of the links and the counters. -/
theorem emsgReject_congr {s u : State} (h : u.sansLink = s.sansLink) (m : Bytes) : emsgReject u m = emsgReject s m :=
  (congrArg (emsgReject · m) h :)

/-- Nor does the check for a CLEAR that has been applied (R374). -/
theorem alreadyApplied_congr {s u : State} (h : u.sansLink = s.sansLink) (path : EmsgPath) (m : Bytes) :
    alreadyApplied path m u = alreadyApplied path m s :=
  (congrArg (alreadyApplied path m) h :)

/-- A message that fails a check, and is no copy of an applied CLEAR, is rejected. -/
theorem checkEmsg_eq_rejectEmsg {path : EmsgPath} {m : Bytes} {rx r : Nat} {s : State} (happlied : alreadyApplied path m s = false)
    (hreject : emsgReject s m = some r) : checkEmsg path m rx s = rejectEmsg path r s := by
  simp [checkEmsg, happlied, hreject]

/-- A message that arrives at a running Crater with its emergency path ready is checked. -/
theorem emsgIn_eq_checkEmsg {path : EmsgPath} {m : Bytes} {rx : Nat} {s u : State} (harrives : emsgArrives path s = some u)
    (hrestart : u.crt.restarting = false) (hready : u.alp.pathReady = true) : emsgIn path m rx s = checkEmsg path m rx u := by
  simp [emsgIn, harrives, hrestart, hready]

@[simp] theorem rejectEmsg_alp (path : EmsgPath) (r : Nat) (s : State) : (rejectEmsg path r s).alp = s.alp := by
  rw [rejectEmsg, evAlp, raise_alp, setReg_alp, incr, addCtr_alp]

@[simp] theorem rejectEmsg_crt (path : EmsgPath) (r : Nat) (s : State) : (rejectEmsg path r s).crt = s.crt := by
  rw [rejectEmsg, evAlp, raise_crt, setReg_crt, incr, addCtr_crt]

/-- No counter of the links or of the host interface lies at the offset of ALP_MSG_REJECT. -/
theorem not_isMsixCounter_msgReject : ¬ isMsixCounter cALP_MSG_REJECT := by
  simp only [isMsixCounter, isSendCounter, atIndex, cALP_MSG_REJECT, cCAS_G_FRAMES_TX, cCAS_G_BYTES_TX, cCAS_LOST_DEST_DROP,
    cCAS_TLP_LOST, cHEP_BME_HELD]
  rintro ((⟨n, h⟩ | ⟨n, h⟩ | h | h) | h) <;> omega

theorem getCtr_rejectEmsg {path : EmsgPath} {r : Nat} {s : State} (h : msorted s.ctr = true) :
    getCtr (rejectEmsg path r s) cALP_MSG_REJECT = getCtr s cALP_MSG_REJECT + 1 := by
  rw [rejectEmsg, evAlp, getCtr_raise not_isMsixCounter_msgReject, getCtr_setReg]
  exact getCtr_addCtr_self h

theorem getReg_rejectEmsg_lastReject {path : EmsgPath} {r : Nat} {s : State} (h : msorted s.regs = true) :
    getReg (rejectEmsg path r s) rALP_LAST_REJECT = putFld 0 4 r ||| putFld 4 4 (pathCode path) := by
  have hne : rALP_LAST_REJECT ≠ rALP_EVENT := by decide
  rw [rejectEmsg, evAlp, getReg_raise_ne hne]
  exact getReg_setReg_self h

theorem bit_rejectEmsg_event {path : EmsgPath} {r : Nat} {s : State} (h : msorted s.regs = true) :
    bit (getReg (rejectEmsg path r s) rALP_EVENT) 8 = true := by
  rw [rejectEmsg, evAlp, getReg_raise_self (msorted_mset h)]
  exact bit_or_putBit _ (by decide)

/-- Each of the four commands takes in a message of its row, and the markers follow. -/
theorem exec_emsg_of_rowKind {path : EmsgPath} {m : Bytes} {rx k : Nat} {c : Instr} {s : State}
    (hc : (k, c) ∈ [(1, Instr.emsgDeclare path m rx), (2, Instr.emsgClear path m rx), (3, Instr.emsgDrillStart path m rx),
      (4, Instr.emsgDrillEnd path m rx)]) (hrow : rowKind k m = true) :
    exec c s = .next (withMarkers (emsgIn path m rx) s) := by
  simp only [List.mem_cons, List.not_mem_nil, or_false, Prod.mk.injEq] at hc
  obtain ⟨rfl, rfl⟩ | ⟨rfl, rfl⟩ | ⟨rfl, rfl⟩ | ⟨rfl, rfl⟩ := hc <;>
    exact congrArg Host.Outcome.next (if_pos hrow)

/-- Settles O57: whichever command brings it, the message is rejected in the state of its arrival, which differs from the state before
by its link only; the markers sent after that change nothing of what is claimed. -/
theorem failedMessagesAreRejected : Obligations.FailedMessagesAreRejected := by
  unfold Obligations.FailedMessagesAreRejected
  intro s u path m rx r k c hwf hc hrow hrestart hready harrives happlied hreject
  have hlink := emsgArrives_sansLink harrives
  have halp : u.alp = s.alp := (congrArg State.alp hlink :)
  have hcrt : u.crt = s.crt := (congrArg State.crt hlink :)
  have huregs : u.regs = s.regs := (congrArg State.regs hlink :)
  have hregs : msorted u.regs = true := huregs ▸ msorted_regs_of_tablesWf hwf
  have hctr : msorted u.ctr = true := msorted_emsgArrives_ctr harrives (msorted_ctr_of_tablesWf hwf)
  have hin : emsgIn path m rx s = rejectEmsg path r u := by
    rw [emsgIn_eq_checkEmsg harrives (hcrt ▸ hrestart) (halp ▸ hready)]
    exact checkEmsg_eq_rejectEmsg ((alreadyApplied_congr hlink path m).trans happlied) ((emsgReject_congr hlink m).trans hreject)
  have hkeeps {β : Type} (g : State → β) (h : ∀ o s, g (emit o s) = g s) : g (withMarkers (emsgIn path m rx) s) = g (rejectEmsg path r u) :=
    (withMarkers_keeps g h _ s).trans (congrArg g hin)
  refine ⟨_, exec_emsg_of_rowKind hc hrow, ?_, ?_, ?_, ?_, ?_⟩
  · rw [hkeeps State.alp emit_alp, rejectEmsg_alp, halp]
  · rw [hkeeps State.crt emit_crt, rejectEmsg_crt, hcrt]
  · rw [hkeeps (getCtr · cALP_MSG_REJECT) fun _ _ => rfl, getCtr_rejectEmsg hctr]
  · rw [hkeeps (getReg · rALP_LAST_REJECT) fun _ _ => rfl, getReg_rejectEmsg_lastReject hregs]
  · rw [hkeeps (getReg · rALP_EVENT) fun _ _ => rfl, bit_rejectEmsg_event hregs]

end Sys2Proof.Machine
end

section
/-! R294, R295, R299: the first-choice pool of a request, and the one buffer that a grant takes from it. -/

namespace Sys2Proof.Machine

/-- A pool qualifies for a purpose and a length: its use includes the purpose, and its buffers are large enough (R294). -/
def poolQualifies (s : State) (purpose : PoolPurpose) (len n : Nat) : Prop :=
  (getPool s n).use.getLsbD (useBit purpose) = true ∧ 0 < poolBytes (getPool s n).size ∧ len ≤ poolBytes (getPool s n).size

/-- The first choice is the lowest-numbered pool that qualifies. -/
theorem firstChoice_eq_some_iff {s : State} {purpose : PoolPurpose} {len n : Nat} :
    firstChoice s purpose len = some n ↔
      n < 16 ∧ poolQualifies s purpose len n ∧ ∀ k, k < n → ¬ poolQualifies s purpose len k := by
  have htest (k : Nat) : ((getPool s k).use.getLsbD (useBit purpose) && decide (0 < poolBytes (getPool s k).size)
      && decide (len ≤ poolBytes (getPool s k).size)) = true ↔ poolQualifies s purpose len k := by
    simp [poolQualifies, and_assoc]
  rw [firstChoice, List.find?_range_eq_some, List.mem_range]
  simp only [Bool.not_eq_true', ← Bool.not_eq_true, htest]
  exact and_left_comm

/-- The manager without its free lists and the deferred instances. -/
def PoolMgr.sansFree (m : PoolMgr) : PoolMgr := { m with pools := [], deferred := [] }

@[simp] theorem raise_pool (ev mask n : Nat) (s : State) : (raise ev mask n s).pool = s.pool :=
  (congrArg State.pool (raise_sansEvent ev mask n s) :)

@[simp] theorem recordHbm_pool (kind : Nat) (scrub : Bool) (a : Nat) (s : State) : (recordHbm kind scrub a s).pool = s.pool := by
  rw [recordHbm, setReg64_pool, setReg_pool]

/-- A read of an HBM block changes nothing of the pools. -/
theorem hbmBlockRead_pool (ecc : EccResult) (s : State) : (hbmBlockRead ecc s).pool = s.pool := by
  cases ecc with
  | clean => rfl
  | corrected => exact (incr_pool _ _).trans (recordHbm_pool _ _ _ _)
  | uncorrectable => exact (raise_pool _ _ _ _).trans ((incr_pool _ _).trans (recordHbm_pool _ _ _ _))

theorem setPool_sansFree (n : Nat) (p : Pool) (s : State) : (setPool n p s).pool.sansFree = s.pool.sansFree := rfl

/-- Cutting a list gives no buffer out and takes none back. -/
theorem cutList_sansFree (n : Nat) (s : State) : (cutList n s).pool.sansFree = s.pool.sansFree := by
  rw [cutList, evPool, raise_pool, setPool_sansFree]

theorem endDeferral_sansFree (r : PoolReq) (s : State) : (endDeferral r s).pool.sansFree = s.pool.sansFree := by
  rw [endDeferral]
  split <;> rfl

/-- Besides free lists and deferred instances, a grant enters one buffer, the head of the pool, as held, and answers with it. -/
theorem grant_sansFree (r : PoolReq) (n : Nat) (s : State) :
    (grant r n s).pool.sansFree = { s.pool.sansFree with
      held := minsert s.pool.held (2 ^ 24 * n + (getPool s n).head) { inst := r.inst, purpose := r.purpose, ls := r.ls }
      replies := s.pool.replies ++ [{ id := r.id, answer := .granted n (getPool s n).head }] } := by
  unfold grant
  extract_lets p b h s0 s1 m s2 s3
  have hread : s0.pool = s.pool := by
    unfold s0
    split
    · exact hbmBlockRead_pool r.link s
    · rfl
  have htake : s1.pool.sansFree = s.pool.sansFree :=
    (setPool_sansFree _ _ _).trans (congrArg PoolMgr.sansFree ((incr_pool _ _).trans hread))
  have hlink : s3.pool.sansFree = s2.pool.sansFree := by
    unfold s3
    split
    · rfl
    · rw [incr_pool]
    · exact cutList_sansFree n s2
  have hend : (endDeferral r s3).pool.sansFree = { s.pool.sansFree with held := minsert s.pool.held (2 ^ 24 * n + b) h } := by
    rw [endDeferral_sansFree, hlink]
    exact (congrArg (fun x : PoolMgr => { x with held := minsert x.held (2 ^ 24 * n + b) h }) htake :)
  exact (congrArg (fun x : PoolMgr => { x with replies := x.replies ++ [PoolReply.mk r.id (.granted n b)] }) hend :)

/-- A request that may be served, and that its first choice can serve, is granted (R299 step 1). -/
theorem exec_poolRequest_of_ok {r : PoolReq} {n : Nat} {s : State} (hfirst : firstChoice s r.purpose r.len = some n)
    (hserved : s.pcr.refuge = false ∨ r.purpose = .core) (hok : judge s r n = .ok) : exec (.poolRequest r) s = .next (grant r n s) := by
  have hopen : (s.pcr.refuge && decide (r.purpose ≠ .core)) = false := by
    obtain h | h := hserved <;> simp [h]
  change execPoolRequest r s = _
  simp only [execPoolRequest, hfirst, hopen, hok, Bool.false_eq_true, if_false]

/-- A request for which no pool qualifies is refused (R294). -/
theorem exec_poolRequest_of_none {r : PoolReq} {s : State} (hfirst : firstChoice s r.purpose r.len = none) :
    exec (.poolRequest r) s = .next (replyPool r.id .malformed s) := by
  change execPoolRequest r s = _
  simp [execPoolRequest, hfirst]

/-- Settles O60: the first choice is the first pool found of those that qualify, and a grant enters one buffer as held, whatever the read
of its link gives. -/
theorem firstChoicePool : Obligations.FirstChoicePool := by
  unfold Obligations.FirstChoicePool
  intro s r _
  refine ⟨fun n => firstChoice_eq_some_iff, fun n hfirst hserved hok => ?_, fun hfirst => ?_⟩
  · have hgrant := grant_sansFree r n s
    exact ⟨_, exec_poolRequest_of_ok hfirst hserved hok, (congrArg PoolMgr.held hgrant :), (congrArg PoolMgr.replies hgrant :)⟩
  · exact ⟨_, exec_poolRequest_of_none hfirst, rfl⟩

end Sys2Proof.Machine
end

section
/-! R387–R391: what parking a service thread does and leaves, and the trap that is completed at once or by RESUME. -/

namespace Sys2Proof.Machine

theorem msorted_threads_of_tablesWf {s : State} (h : s.tablesWf = true) : msorted s.svc.threads = true := by
  simp only [State.tablesWf, State.secureTablesWf, Bool.and_eq_true] at h
  simp only [h]

theorem getThread_setThread_self {g : Nat} {t : Thread} {s : State} (h : msorted s.svc.threads = true) :
    getThread (setThread g t s) g = t := mget_mset_self h

theorem getThread_setThread_ne {g k : Nat} {t : Thread} {s : State} (h : k ≠ g) :
    getThread (setThread g t s) k = getThread s k := mget_mset_ne h

/-- A read at the key written gives a value other than the default, whatever the order of the keys. -/
theorem mget_mset_self_of_ne {α : Type} [DecidableEq α] {d : Nat → α} {m : Map α} {k : Nat} {a : α} (h : a ≠ d k) :
    mget d (mset d m k a) k = a := by
  rw [mset, if_neg h, mget, mfind_minsert, if_pos rfl]
  rfl

/-- A double word with a bit put has the bit. -/
theorem getLsbD_or_twoPow (v : DWord) {n : Nat} (h : n < 64) : (v ||| BitVec.ofNat 64 (2 ^ n)).getLsbD n = true := by
  rw [BitVec.getLsbD_or, BitVec.getLsbD_ofNat, Nat.testBit_two_pow_self]
  simp [h]

/-- Leaving an EVWAIT counts an instruction retired and writes no other control and status register. -/
theorem leaveWait_csrAt_ne {k : Nat} (h : k ≠ csrMinstret) (t : Thread) (r : Nat) : (t.leaveWait r).csrAt k = t.csrAt k := by
  have hx : (t.setX t.waitRd (BitVec.ofNat 64 r)).csr = t.csr := by
    rw [Thread.setX]
    split <;> rfl
  exact (mget_mset_ne h).trans (congrArg (mget zero64 · k) hx)

theorem wakeByEvent_csrAt_svcev (t : Thread) : t.wakeByEvent.csrAt csrSvcev = t.csrAt csrSvcev := by
  rw [Thread.wakeByEvent]
  split
  · rfl
  · split
    · rfl
    · exact leaveWait_csrAt_ne (by decide) t 0

/-- An event wakes no thread outside EVWAIT. -/
theorem wakeByEvent_of_ne_evwait {t : Thread} (h : t.state ≠ .evwait) : t.wakeByEvent = t := by
  rw [Thread.wakeByEvent, if_pos (by simp [h])]

/-- The thread with event `n` pending (R387). -/
def Thread.withEvent (t : Thread) (n : Nat) : Thread :=
  t.setCsr csrSvcev (t.csrAt csrSvcev ||| BitVec.ofNat 64 (2 ^ n))

theorem withEvent_svcev (t : Thread) {n : Nat} (h : n < 64) : ((t.withEvent n).csrAt csrSvcev).getLsbD n = true := by
  have hbit := getLsbD_or_twoPow (t.csrAt csrSvcev) h
  have hne : t.csrAt csrSvcev ||| BitVec.ofNat 64 (2 ^ n) ≠ zero64 csrSvcev := by
    intro hzero
    rw [hzero] at hbit
    simp [zero64] at hbit
  exact (congrArg (·.getLsbD n) (mget_mset_self_of_ne hne)).trans hbit

theorem raiseThread_of_off {g n : Nat} {s : State} (h : (getThread s g).state = .off) : raiseThread g n s = s := if_pos h

theorem raiseThread_of_ne_off {g n : Nat} {s : State} (h : (getThread s g).state ≠ .off) :
    raiseThread g n s = setThread g ((getThread s g).withEvent n).wakeByEvent s := if_neg h

/-- Raising an event at a thread leaves the memories. -/
theorem raiseThread_memories (g n : Nat) (s : State) :
    (raiseThread g n s).mem = s.mem ∧ (raiseThread g n s).svc.scratch = s.svc.scratch := by
  by_cases hoff : (getThread s g).state = .off
  · rw [raiseThread_of_off hoff]
    exact ⟨rfl, rfl⟩
  · rw [raiseThread_of_ne_off hoff]
    exact ⟨rfl, rfl⟩

/-- An event raised at any thread changes at most the control and status registers of a thread outside EVWAIT. -/
theorem getThread_raiseThread_of_ne_evwait {g h n : Nat} {s : State} (hsorted : msorted s.svc.threads = true)
    (hstate : (getThread s g).state ≠ .evwait) : ∃ csr, getThread (raiseThread h n s) g = { getThread s g with csr := csr } := by
  by_cases hoff : (getThread s h).state = .off
  · exact ⟨_, by rw [raiseThread_of_off hoff]⟩
  · rw [raiseThread_of_ne_off hoff]
    by_cases hg : g = h
    · subst hg
      rw [getThread_setThread_self hsorted, wakeByEvent_of_ne_evwait (t := (getThread s g).withEvent n) hstate]
      exact ⟨_, rfl⟩
    · exact ⟨_, getThread_setThread_ne hg⟩

/-- An event raised at a thread that is not OFF is pending there. -/
theorem raiseThread_svcev {g n : Nat} {s : State} (hsorted : msorted s.svc.threads = true) (hoff : (getThread s g).state ≠ .off)
    (hn : n < 64) : ((getThread (raiseThread g n s) g).csrAt csrSvcev).getLsbD n = true := by
  rw [raiseThread_of_ne_off hoff, getThread_setThread_self hsorted, wakeByEvent_csrAt_svcev]
  exact withEvent_svcev _ hn

/-- The state of a parked thread. -/
def parkState (unsaved : Bool) : ThreadState := if unsaved then .faultedUnsaved else .faulted

/-- The number of the event that parking a thread raises at SC0.T0. -/
def parkEvent (unsaved : Bool) : Nat := if unsaved then 2 else 3

/-- A thread parked with the state of its trap in the shadow registers (R390). -/
def Thread.parked (t : Thread) (unsaved : Bool) (cause tval : DWord) : Thread :=
  { t with state := parkState unsaved, shadowCause := cause, shadowPc := t.pc, shadowTval := tval, halting := false, waitUntil := none }

theorem parkState_ne_evwait (unsaved : Bool) : parkState unsaved ≠ .evwait := by
  cases unsaved <;> decide

theorem parkState_ne_off (unsaved : Bool) : parkState unsaved ≠ .off := by
  cases unsaved <;> decide

/-- An entry of the fault FIFO leaves the memories and the threads. -/
theorem pushThreadFault_keeps (g : Nat) (unsaved : Bool) (s : State) :
    (pushThreadFault g unsaved s).mem = s.mem ∧ (pushThreadFault g unsaved s).svc.scratch = s.svc.scratch
      ∧ (pushThreadFault g unsaved s).svc.threads = s.svc.threads := by
  rw [pushThreadFault]
  split <;> exact ⟨rfl, rfl, rfl⟩

/-- Parking replaces the thread by the parked one, leaving memories and other threads, and then raises its event at SC0.T0. -/
theorem parkThread_eq_raiseThread (g : Nat) (unsaved : Bool) (t : Thread) (c v : DWord) (s : State) :
    ∃ u, parkThread g unsaved t c v s = raiseThread 0 (parkEvent unsaved) u ∧ u.mem = s.mem ∧ u.svc.scratch = s.svc.scratch
      ∧ u.svc.threads = (setThread g (t.parked unsaved c v) s).svc.threads := by
  refine ⟨_, rfl, ?_⟩
  obtain ⟨hmem, hscratch, hthreads⟩ := pushThreadFault_keeps g unsaved (setThread g (t.parked unsaved c v) s)
  split
  · simp only [evSvc, raise_mem, raise_svc, incr_mem, incr_svc]
    exact ⟨hmem, hscratch, hthreads⟩
  · simp only [incr_mem, incr_svc]
    exact ⟨hmem, hscratch, hthreads⟩

/-- What R390 says of a thread that a trap parks: it keeps its registers and PC, its shadow registers hold the state of the trap, no
memory is written, and its event is pending at SC0.T0. -/
theorem parkThread_parks (g : Nat) (unsaved : Bool) (c v : DWord) {s : State} (hwf : s.tablesWf = true) :
    let t := parkThread g unsaved (getThread s g) c v s
    t.mem = s.mem ∧ t.svc.scratch = s.svc.scratch ∧ (getThread t g).state = parkState unsaved
      ∧ (getThread t g).x = (getThread s g).x ∧ (getThread t g).pc = (getThread s g).pc
      ∧ (getThread t g).shadowPc = (getThread s g).pc ∧ (getThread t g).shadowCause = c ∧ (getThread t g).shadowTval = v
      ∧ ((getThread s 0).state ≠ .off → ((getThread t 0).csrAt csrSvcev).getLsbD (parkEvent unsaved) = true) := by
  have hs := msorted_threads_of_tablesWf hwf
  obtain ⟨u, hpark, hmem, hscratch, hthreads⟩ := parkThread_eq_raiseThread g unsaved (getThread s g) c v s
  have hget (k : Nat) : getThread u k = getThread (setThread g ((getThread s g).parked unsaved c v) s) k :=
    congrArg (mget Thread.init · k) hthreads
  have hself : getThread u g = (getThread s g).parked unsaved c v := (hget g).trans (getThread_setThread_self hs)
  have hu : msorted u.svc.threads = true := hthreads ▸ msorted_mset hs
  obtain ⟨hrmem, hrscratch⟩ := raiseThread_memories 0 (parkEvent unsaved) u
  have hawake : (getThread u g).state ≠ .evwait := hself ▸ parkState_ne_evwait unsaved
  obtain ⟨csr, hcsr⟩ := getThread_raiseThread_of_ne_evwait (h := 0) (n := parkEvent unsaved) hu hawake
  rw [hself] at hcsr
  have hoff (h0 : (getThread s 0).state ≠ .off) : (getThread u 0).state ≠ .off := by
    by_cases hg : 0 = g
    · subst hg
      exact hself ▸ parkState_ne_off unsaved
    · rwa [hget, getThread_setThread_ne hg]
  dsimp only
  rw [hpark, hcsr]
  exact ⟨hrmem.trans hmem, hrscratch.trans hscratch, rfl, rfl, rfl, rfl, rfl, rfl,
    fun h0 => raiseThread_svcev hu (hoff h0) (by cases unsaved <;> decide)⟩

/-- The check of R390: the save block is aligned, and its bytes lie inside the data region. -/
theorem tsbOk_iff (x : Thread) : x.tsbOk = true ↔
    x.tsb.toNat % 512 = 0 ∧ x.regionBase.toNat ≤ x.tsb.toNat ∧ x.tsb.toNat + 511 ≤ x.regionLimit.toNat := by
  simp [Thread.tsbOk, and_assoc]

theorem takeTrap_of_busy {g : Nat} {c v : DWord} {s : State} (hbusy : (getThread s g).busy = true) :
    takeTrap g c v s = parkThread g false (getThread s g) c v s := if_pos hbusy

theorem takeTrap_of_not_tsbOk {g : Nat} {c v : DWord} {s : State} (hbusy : (getThread s g).busy = false)
    (htsb : (getThread s g).tsbOk = false) : takeTrap g c v s = parkThread g true (getThread s g) c v s := by
  simp [takeTrap, hbusy, htsb]

theorem takeTrap_of_tsbOk {g : Nat} {c v : DWord} {s : State} (hbusy : (getThread s g).busy = false)
    (htsb : (getThread s g).tsbOk = true) : takeTrap g c v s = completeTrap g (getThread s g) (getThread s g).pc c v s := by
  simp [takeTrap, hbusy, htsb]

/-- Cause `c` and value `v` are those of the trap that a thread takes next: the interrupt that is due, or the trap of its next
instruction. -/
def trapDue (g : Nat) (c v : DWord) (s : State) : Prop :=
  (getThread s g).interruptDue = true ∧ c = externalInterrupt ∧ v = 0 ∨ (getThread s g).interruptDue = false ∧ rvStep g s = .error (c, v)

/-- A thread that issues takes the trap that is due. -/
theorem exec_threadTrap_of_due {g : Nat} {c v : DWord} {s : State} (hissues : threadIssues s g = true) (hdue : trapDue g c v s) :
    exec (.threadTrap g) s = .next (takeTrap g c v s) := by
  change execThreadTrap g s = _
  obtain ⟨hint, rfl, rfl⟩ | ⟨hint, htrap⟩ := hdue
  · simp [execThreadTrap, hissues, hint]
  · simp [execThreadTrap, hissues, hint, htrap]

/-- Settles O58: each trap that cannot be saved parks the thread, with TSB_BUSY 1 in FAULTED and else in FAULTED_UNSAVED, and what
parking does is the same for both. -/
theorem failedTrapsParkTheThread : Obligations.FailedTrapsParkTheThread := by
  unfold Obligations.FailedTrapsParkTheThread
  refine ⟨tsbOk_iff, fun s g c v hwf hissues hdue => ⟨fun hbusy htsb => ?_, fun hbusy => ?_⟩⟩
  · refine ⟨_, exec_threadTrap_of_due hissues hdue, ?_⟩
    rw [takeTrap_of_not_tsbOk hbusy htsb]
    exact parkThread_parks g true c v hwf
  · refine ⟨_, exec_threadTrap_of_due hissues hdue, ?_⟩
    rw [takeTrap_of_busy hbusy]
    exact parkThread_parks g false c v hwf

/-- RESUME completes the trap from the shadow registers where the check passes. -/
theorem exec_threadResume_of_tsbOk {b g : Nat} {s : State} (hmaster : isMaster s b = true) (hmay : mayCommand b g = true)
    (hstate : (getThread s g).state = .faultedUnsaved) (htsb : (getThread s g).tsbOk = true) :
    exec (.threadResume b g) s = .next (setThreadErr false
      (completeTrap g (getThread s g) (getThread s g).shadowPc (getThread s g).shadowCause (getThread s g).shadowTval s)) := by
  change Host.Outcome.next (resumeThread b g s) = _
  simp [resumeThread, hmaster, hmay, hstate, htsb]

/-- RESUME sets ERR where the check fails, and nothing else. -/
theorem exec_threadResume_of_not_tsbOk {b g : Nat} {s : State} (hmaster : isMaster s b = true) (hmay : mayCommand b g = true)
    (htsb : (getThread s g).tsbOk = false) : exec (.threadResume b g) s = .next (setThreadErr true s) := by
  change Host.Outcome.next (resumeThread b g s) = _
  simp [resumeThread, hmaster, hmay, htsb]

/-- ERR reads as it was set. -/
theorem bit_setThreadErr {e : Bool} {s : State} (h : msorted s.regs = true) :
    bit (getView (setThreadErr e s) (.service 0) rSVC_THREAD_CTL) 30 = e := by
  have hread : getView (setThreadErr e s) (.service 0) rSVC_THREAD_CTL = putBit 30 e := getReg_setReg_self h
  rw [hread]
  cases e <;> decide

/-- Settles O59: RESUME and a trap complete through the one `completeTrap`, from the shadow registers and from the trap itself; where
the check fails RESUME writes ERR only. -/
theorem resumeCompletesTheTrap : Obligations.ResumeCompletesTheTrap := by
  unfold Obligations.ResumeCompletesTheTrap
  intro s b g hwf
  refine ⟨fun hmaster hmay hstate htsb => ?_, fun hmaster hmay _ htsb => ?_, fun c v hbusy htsb => takeTrap_of_tsbOk hbusy htsb⟩
  · exact ⟨_, exec_threadResume_of_tsbOk hmaster hmay hstate htsb, rfl⟩
  · exact ⟨_, exec_threadResume_of_not_tsbOk hmaster hmay htsb, setView_svc _ _ _ _, setView_mem _ _ _ _,
      bit_setThreadErr (msorted_regs_of_tablesWf hwf)⟩

end Sys2Proof.Machine
end
